-- ==== Sys2Proof/Word.lean ====
section
/-!
DEFINITION. The word types of the KY4816: the 48-bit native word (R1, R296), the 64-bit CSR and bus word (R1), the 56-bit
word as the Warp store holds it (48 data bits and 8 check bits, R296), and the 640-bit SDRAM burst with its check bytes
(R397).
-/

set_option autoImplicit false

namespace Sys2Proof

/-- The native 48-bit word. -/
abbrev Word := BitVec 48

/-- A 64-bit CSR value or bus datum. -/
abbrev Qword := BitVec 64

/-- A word as stored with its check field in bits 55 to 48. -/
abbrev Stored := BitVec 56

/-- One byte. -/
abbrev Byte := BitVec 8

/-- One SDRAM burst as stored: its eighty symbols (R396), symbol n in bits 8n + 7 to 8n. -/
abbrev Burst := BitVec 640

end Sys2Proof
end

