-- ==== Sys2Proof/Syntax.lean ====
section
/-!
DEFINITION. The commands of the KY4816 as a block: the rows of the opcode table. A row that a register write makes carries the
value written; a row that brings data from outside the device carries that data; a Chronov instruction carries the physical
engine that issues it and its operands.
-/

set_option autoImplicit false

namespace Sys2Proof

/-- Operand b of a format-A instruction: a scalar register, or an immediate of 29 bits (R272). -/
inductive OpB where
  | reg (wb : BitVec 5)
  | imm (v : BitVec 29)
deriving DecidableEq, Repr

/-- A loom operand descriptor LO: group, mode, pointer and modifier (R273). -/
structure LoomOp where
  g : Bool
  mode : BitVec 2
  p : BitVec 3
  m : BitVec 3
deriving DecidableEq, Repr

/-- A vector source: a lane register or a loom operand (R273). -/
inductive VSrc where
  | reg (v : BitVec 4)
  | loom (lo : LoomOp)
deriving DecidableEq, Repr

/-- The queue operand of push, pop and qcnt (R286). -/
structure QOp where
  r : Bool
  wq : BitVec 5
  qi : BitVec 8
  rp : Bool
  pri : BitVec 4
deriving DecidableEq, Repr

/-- The count of a rep: an immediate of 17 bits or a scalar register (R289). -/
inductive RepCount where
  | imm (n : BitVec 17)
  | reg (w : BitVec 5)
deriving DecidableEq, Repr

/-- What one calibration run measures (R518, R519): of a converter whether no selection kept its linearity, the selections, and OFFSET,
GAIN, the three zone ratios and the aperture trim; the hits of a timing line's taps; the codes of each pick a replica run
captured, from its first sample on; the offsets and gains of the anchor converter. -/
inductive CalMeas where
  | converter (dnl : Bool) (sel vals : List Int)
  | line (hits : List Nat)
  | replica (codes : List (List (BitVec 56)))
  | anchor (vals : List Int)
deriving DecidableEq, Repr

/-- What a read of a module's SPD gives (R385): nothing, or whether it is a module of R384, its ranks, the device density in Gb, the rank
size in GiB and tRFC. -/
inductive SpdRead where
  | absent
  | present (known : Bool) (ranks : Fin 8) (density : Fin 64) (gib : Fin 256) (trfc : Fin 65536)
deriving DecidableEq, Repr

/-- How a bring-up step ends (R542, R543): the PLL locked; the bytes of the two flash copies; whether every checker gave the right result;
the words that did not read back bare; the modules and the narrowest read and write eyes of channels A and B; the regions filled;
the two results of every object, in the order converters, timing lines, anchor converter, and two measurements of each reference buffer. -/
inductive BringStep where
  | lock
  | flash (a b : List (BitVec 8))
  | selfTest (ok : Bool)
  | storeFill (weak : List (BitVec 25))
  | memory (a b : SpdRead) (eyes : List (Fin 65))
  | regions
  | calibration (ms : List (CalMeas × CalMeas)) (bufs : List (Int × Int))
deriving DecidableEq, Repr

/-- The instructions of the test access port (R571). -/
inductive TapInstr where
  | bypass | sample | extest | idcode | highz | clamp
deriving DecidableEq, Repr

/-- The commands: one constructor per row of the opcode table. Each docstring names the row and the rule that governs it. -/
inductive Instr where
  /-- PICK_TICK (R23). -/
  | pickTick
  /-- PICK_DROP (R23). -/
  | pickDrop
  /-- PICK_DONE (R21). -/
  | pickDone
  /-- SREF_LOSS (R9). -/
  | srefLoss
  /-- PLL_UNLOCK (R9). -/
  | pllUnlock
  /-- PPS_EDGE (R38). -/
  | ppsEdge (k : Nat) (tap : Fin 320)
  /-- PPS_HOLDOVER (R39). -/
  | ppsHoldover
  /-- TOD_ARM (R40). -/
  | todArm (sec : BitVec 40)
  /-- TOD_SET_IMM (R40). -/
  | todSetImm (sec : BitVec 40)
  /-- SYS_TIME_HI_READ (R41). -/
  | sysTimeHiRead
  /-- DISC_CTL_WRITE (R42). -/
  | discCtlWrite (v : BitVec 64)
  /-- CONV_SWAP_REQUEST (R61). -/
  | convSwapRequest (g : Fin 4) (v : Qword)
  /-- SWAP_SWITCH (R61). -/
  | swapSwitch (g : Fin 4)
  /-- CONV_STUCK (R64). -/
  | convStuck (j : Fin 68)
  /-- AUTO_SWAP_REQUEST (R65). -/
  | autoSwapRequest (g : Fin 4)
  /-- PRT_RUN_START (R67). -/
  | prtRunStart (p : Fin 16) (v : Qword)
  /-- PRT_RUN_STOP (R67). -/
  | prtRunStop (p : Fin 16) (v : Qword)
  /-- PORT_CLOSE_DONE (R67). -/
  | portCloseDone (p : Fin 16)
  /-- FRUGAL_MEMBER_WRITE (R69). -/
  | frugalMemberWrite (p : Fin 16) (member : Bool)
  /-- CORR_APPLY (R54). -/
  | corrApply (p : Fin 16)
  /-- GZ_DATA_ACCESS (R77). -/
  | gzDataAccess (p : Fin 16) (w : Option Qword)
  /-- RED_LOAD_DATA_ACCESS (R108). -/
  | redLoadDataAccess (w : Option Qword)
  /-- PREPARE (R90). -/
  | prepare (v : Qword)
  /-- PREPARE_DEFERRED_START (R92). -/
  | prepareDeferredStart
  /-- PREPARE_END (R90). -/
  | prepareEnd
  /-- GAUGE_CELL_RESULT (R121). -/
  | gaugeCellResult (p : Fin 16) (first : Nat) (codes : List (BitVec 56))
  /-- BREAK_DECISION (R133). -/
  | breakDecision (p : Fin 16)
  /-- ENV_RESET (R137). -/
  | envReset (v : Qword)
  /-- HEDDLE_UPDATE (R152). -/
  | heddleUpdate (p : Fin 16) (stalled : Bool)
  /-- HEDDLE_UPDATE_RESUME (R163). -/
  | heddleUpdateResume (p : Fin 16) (stalled : Bool)
  /-- PICK_MARKER_PUSH (R166). -/
  | pickMarkerPush (p : Fin 16)
  /-- SPECTRAL_CELL_STAGE (R185). -/
  | spectralCellStage (p : Fin 16) (first : Nat) (codes : List (BitVec 56))
  /-- FIT_DONE_ITEM (R188). -/
  | fitDoneItem
  /-- FIT_TIMEOUT (R188). -/
  | fitTimeout (p : Fin 16)
  /-- STRIPE_FLUSH_START (R188). -/
  | stripeFlushStart
  /-- STRIPE_FRAME_PUSHED (R188). -/
  | stripeFramePushed
  /-- SPC_LO_DATA_ACCESS (R178). -/
  | spcLoDataAccess (w : Option (BitVec 64))
  /-- SPC_LINE_WRITE (R181). -/
  | spcLineWrite (r : Fin 3) (v : BitVec 64)
  /-- PROGRAM_START (R202). -/
  | programStart
  /-- TRD_NOP (R206). -/
  | trdNop
  /-- DRAFT_WRAP (R205). -/
  | draftWrap
  /-- PICK (R207). -/
  | pick
  /-- KIND (R208). -/
  | kind (k : BitVec 2) (mask : BitVec 16)
  /-- SLOT (R209). -/
  | slot (k : BitVec 6) (mask : BitVec 16)
  /-- GZT (R209). -/
  | gzt (t : BitVec 2) (mask : BitVec 16)
  /-- LINE (R210). -/
  | line (inc : Bool) (l : BitVec 3) (mask : BitVec 16)
  /-- LO (R211). -/
  | lo (e : BitVec 6)
  /-- STRIPE (R212). -/
  | stripe (line : BitVec 7) (stripe : BitVec 12)
  /-- LOOP (R213). -/
  | loop (count : BitVec 16)
  /-- ENDL (R213). -/
  | endl
  /-- JUMP (R214). -/
  | jump (target : BitVec 12)
  /-- JFLG (R214). -/
  | jflg (flag : BitVec 4) (target : BitVec 12)
  /-- NOTE (R215). -/
  | note (q : BitVec 2) (pri : BitVec 4) (code : BitVec 16)
  /-- PPSA (R226). -/
  | ppsa (ofs : BitVec 29)
  /-- PPSA_TIMEOUT (R227). -/
  | ppsaTimeout
  /-- BEAT (R219). -/
  | beat
  /-- SWAP (R216). -/
  | swap
  /-- TRD_DRAFT_DATA_ACCESS (R234). -/
  | trdDraftDataAccess (w : Option Qword)
  /-- TRD_BANK_CFG_WRITE (R235). -/
  | trdBankCfgWrite (b : Fin 2) (v : Qword)
  /-- VALIDATE (R199). -/
  | validate (b : Fin 2)
  /-- SCAN_END (R199). -/
  | scanEnd (b : Fin 2)
  /-- HOST_BEAT (R222). -/
  | hostBeat
  /-- DISCARD (R223). -/
  | discard
  /-- TRD_CTL_SWAP (R216). -/
  | trdCtlSwap
  /-- TRD_FLAG_SET_WRITE (R214). -/
  | trdFlagSetWrite (v : Qword)
  /-- HANDLER_DISPATCH (R247). -/
  | handlerDispatch (e : Fin 34)
  /-- TICK_HANDLER_PENDING (R250). -/
  | tickHandlerPending
  /-- PBUDGET_EXPIRY (R251). -/
  | pbudgetExpiry (l : Fin 32)
  /-- ENGINE_RUN_START (R254). -/
  | engineRunStart (l : Fin 32)
  /-- ENGINE_RUN_STOP (R254). -/
  | engineRunStop (l : Fin 32)
  /-- IMG_LOAD (R257). -/
  | imgLoad (v : Qword)
  /-- IMG_LOAD_END (R257). -/
  | imgLoadEnd
  /-- ENGINE_SWAP_REQUEST (R259). -/
  | engineSwapRequest (v : Qword)
  /-- SWAP_CANCEL (R261). -/
  | swapCancel
  /-- SWAP_BOUNDARY (R260). -/
  | swapBoundary
  /-- SWAP_TAKEOVER (R260). -/
  | swapTakeover
  /-- SHT_LOG_DATA_ACCESS (R267). -/
  | shtLogDataAccess (w : Option Qword)
  /-- LDQ_COMPLETE (R285). -/
  | ldqComplete (e : Fin 34) (k : Fin 16)
  /-- STQ_COMPLETE (R245). -/
  | stqComplete (e : Fin 34) (k : Fin 16)
  /-- WFENCE_RELEASE (R284). -/
  | wfenceRelease (e : Fin 34)
  /-- DONE_RETIRE (R292). -/
  | doneRetire (e : Fin 34)
  /-- PUSH_RESUME (R286). -/
  | pushResume (e : Fin 34)
  /-- POP_RESUME (R286). -/
  | popResume (e : Fin 34)
  /-- ILLEGAL_INSTRUCTION (R272). -/
  | illegalInstruction (e : Fin 34)
  /-- NOP (R279). -/
  | nop (e : Fin 34)
  /-- ADD (R279). -/
  | add (e : Fin 34) (wd wa : BitVec 5) (b : OpB)
  /-- SUB (R279). -/
  | sub (e : Fin 34) (wd wa : BitVec 5) (b : OpB)
  /-- ADDS (R279). -/
  | adds (e : Fin 34) (wd wa : BitVec 5) (b : OpB)
  /-- SUBS (R279). -/
  | subs (e : Fin 34) (wd wa : BitVec 5) (b : OpB)
  /-- AND (R279). -/
  | and (e : Fin 34) (wd wa : BitVec 5) (b : OpB)
  /-- OR (R279). -/
  | or (e : Fin 34) (wd wa : BitVec 5) (b : OpB)
  /-- XOR (R279). -/
  | xor (e : Fin 34) (wd wa : BitVec 5) (b : OpB)
  /-- SHL (R279). -/
  | shl (e : Fin 34) (wd wa : BitVec 5) (b : OpB)
  /-- SHR (R279). -/
  | shr (e : Fin 34) (wd wa : BitVec 5) (b : OpB)
  /-- SAR (R279). -/
  | sar (e : Fin 34) (wd wa : BitVec 5) (b : OpB)
  /-- CMP (R279). -/
  | cmp (e : Fin 34) (wa : BitVec 5) (b : OpB)
  /-- MIN (R279). -/
  | min (e : Fin 34) (wd wa : BitVec 5) (b : OpB)
  /-- MAX (R279). -/
  | max (e : Fin 34) (wd wa : BitVec 5) (b : OpB)
  /-- ABS (R279). -/
  | abs (e : Fin 34) (wd wa : BitVec 5)
  /-- NRM (R279). -/
  | nrm (e : Fin 34) (wd wa : BitVec 5)
  /-- MUL (R279). -/
  | mul (e : Fin 34) (wd wa : BitVec 5) (b : OpB)
  /-- MULH (R279). -/
  | mulh (e : Fin 34) (wd wa : BitVec 5) (b : OpB)
  /-- DIV (R279). -/
  | div (e : Fin 34) (wd wa : BitVec 5) (b : OpB)
  /-- MOVI (R279). -/
  | movi (e : Fin 34) (wd : BitVec 5) (imm : BitVec 24)
  /-- MOVH (R279). -/
  | movh (e : Fin 34) (wd : BitVec 5) (imm : BitVec 24)
  /-- MFS (R280). -/
  | mfs (e : Fin 34) (wd : BitVec 5) (spr : BitVec 6)
  /-- MTS (R280). -/
  | mts (e : Fin 34) (wa : BitVec 5) (spr : BitVec 6)
  /-- VGET (R279). -/
  | vget (e : Fin 34) (wd : BitVec 5) (va : BitVec 4) (lane : BitVec 2)
  /-- VSET (R279). -/
  | vset (e : Fin 34) (wa : BitVec 5) (vd : BitVec 4) (lane : BitVec 2)
  /-- VBC (R279). -/
  | vbc (e : Fin 34) (wa : BitVec 5) (vd : BitVec 4)
  /-- LW (R281). -/
  | lw (e : Fin 34) (wd : BitVec 5) (lo : LoomOp)
  /-- SW (R281). -/
  | sw (e : Fin 34) (wa : BitVec 5) (lo : LoomOp)
  /-- LW_A (R281). -/
  | lwA (e : Fin 34) (wd : BitVec 5) (a : BitVec 16)
  /-- SW_A (R281). -/
  | swA (e : Fin 34) (wa : BitVec 5) (a : BitVec 16)
  /-- LV (R281). -/
  | lv (e : Fin 34) (vd : BitVec 4) (lo : LoomOp)
  /-- SV (R281). -/
  | sv (e : Fin 34) (va : BitVec 4) (lo : LoomOp)
  /-- PSET (R281). -/
  | pset (e : Fin 34) (p : BitVec 3) (a : BitVec 16)
  /-- PMOD (R281). -/
  | pmod (e : Fin 34) (p m : BitVec 3)
  /-- VADD (R282). -/
  | vadd (e : Fin 34) (vd : BitVec 4) (s1 s2 : VSrc)
  /-- VSUB (R282). -/
  | vsub (e : Fin 34) (vd : BitVec 4) (s1 s2 : VSrc)
  /-- VADDS (R282). -/
  | vadds (e : Fin 34) (vd : BitVec 4) (s1 s2 : VSrc)
  /-- VSUBS (R282). -/
  | vsubs (e : Fin 34) (vd : BitVec 4) (s1 s2 : VSrc)
  /-- VADDH (R282). -/
  | vaddh (e : Fin 34) (vd : BitVec 4) (s1 s2 : VSrc)
  /-- VSUBH (R282). -/
  | vsubh (e : Fin 34) (vd : BitVec 4) (s1 s2 : VSrc)
  /-- VAND (R282). -/
  | vand (e : Fin 34) (vd : BitVec 4) (s1 s2 : VSrc)
  /-- VOR (R282). -/
  | vor (e : Fin 34) (vd : BitVec 4) (s1 s2 : VSrc)
  /-- VXOR (R282). -/
  | vxor (e : Fin 34) (vd : BitVec 4) (s1 s2 : VSrc)
  /-- VSHL (R282). -/
  | vshl (e : Fin 34) (vd : BitVec 4) (s1 : VSrc) (n : BitVec 6)
  /-- VSAR (R282). -/
  | vsar (e : Fin 34) (vd : BitVec 4) (s1 : VSrc) (n : BitVec 6)
  /-- VMIN (R282). -/
  | vmin (e : Fin 34) (vd : BitVec 4) (s1 s2 : VSrc)
  /-- VMAX (R282). -/
  | vmax (e : Fin 34) (vd : BitVec 4) (s1 s2 : VSrc)
  /-- VABS (R282). -/
  | vabs (e : Fin 34) (vd : BitVec 4) (s1 : VSrc)
  /-- VCONJ (R282). -/
  | vconj (e : Fin 34) (vd : BitVec 4) (s1 : VSrc)
  /-- VCMP (R282). -/
  | vcmp (e : Fin 34) (cc : BitVec 3) (s1 s2 : VSrc)
  /-- VSEL (R282). -/
  | vsel (e : Fin 34) (vd : BitVec 4) (s1 s2 : VSrc)
  /-- VSUM (R282). -/
  | vsum (e : Fin 34) (wd : BitVec 5) (s1 : VSrc)
  /-- VSHR (R282). -/
  | vshr (e : Fin 34) (vd : BitVec 4) (s1 : VSrc) (n : BitVec 6)
  /-- MAC_C (R283). -/
  | macC (e : Fin 34) (ac : BitVec 2) (s1 s2 : VSrc) (cj ng clr : Bool)
  /-- MAC_R (R283). -/
  | macR (e : Fin 34) (ac : BitVec 2) (s1 s2 : VSrc) (ng clr : Bool)
  /-- MAC_P (R283). -/
  | macP (e : Fin 34) (ac : BitVec 2) (s1 : VSrc) (ng clr : Bool)
  /-- CLRAC (R283). -/
  | clrac (e : Fin 34) (ac : BitVec 2)
  /-- RND_C (R283). -/
  | rndC (e : Fin 34) (vd : BitVec 4) (ac : BitVec 2) (sh : BitVec 6)
  /-- RND_R (R283). -/
  | rndR (e : Fin 34) (vd : BitVec 4) (ac : BitVec 2) (sh : BitVec 6)
  /-- ACRED_R (R283). -/
  | acredR (e : Fin 34) (wd : BitVec 5) (ac : BitVec 2) (sh : BitVec 6)
  /-- ACRED_C (R283). -/
  | acredC (e : Fin 34) (wd : BitVec 5) (ac : BitVec 2) (sh : BitVec 6)
  /-- LDAC_R (R283). -/
  | ldacR (e : Fin 34) (ac : BitVec 2) (va : BitVec 4) (sh : BitVec 6)
  /-- LDAC_C (R283). -/
  | ldacC (e : Fin 34) (ac : BitVec 2) (va : BitVec 4) (sh : BitVec 6)
  /-- LDQ (R284). -/
  | ldq (e : Fin 34) (wa : BitVec 5) (lo : LoomOp)
  /-- STQ (R284). -/
  | stq (e : Fin 34) (wa : BitVec 5) (lo : LoomOp)
  /-- WFENCE (R284). -/
  | wfence (e : Fin 34)
  /-- PUSH (R286). -/
  | push (e : Fin 34) (wa : BitVec 5) (q : QOp)
  /-- POP (R286). -/
  | pop (e : Fin 34) (wd : BitVec 5) (q : QOp)
  /-- QCNT (R286). -/
  | qcnt (e : Fin 34) (wd : BitVec 5) (q : QOp)
  /-- B_COND (R289). -/
  | bCond (e : Fin 34) (cond : BitVec 4) (target : BitVec 14)
  /-- CALL (R289). -/
  | call (e : Fin 34) (target : BitVec 14)
  /-- JR (R289). -/
  | jr (e : Fin 34) (wa : BitVec 5)
  /-- REP (R291). -/
  | rep (e : Fin 34) (count : RepCount) (last : BitVec 14)
  /-- REXIT (R289). -/
  | rexit (e : Fin 34)
  /-- DONE (R292). -/
  | done (e : Fin 34)
  /-- CLST (R289). -/
  | clst (e : Fin 34) (mask : BitVec 3)
  /-- WARP_WRITE_BACK (R302). -/
  | warpWriteBack
  /-- SCRUB_READ (R309). -/
  | scrubRead
  /-- ROW_REPAIR_START (R305). -/
  | rowRepairStart
  /-- ROW_REPAIR_DONE (R305). -/
  | rowRepairDone
  /-- WRP_FILL_GO (R308). -/
  | wrpFillGo (v : Qword)
  /-- WRP_FILL_DONE (R308). -/
  | wrpFillDone
  /-- WFQ_HPUSH (R316). -/
  | wfqHpush (v : BitVec 64)
  /-- WFQ_HPOP (R316). -/
  | wfqHpop
  /-- WFQ_FLUSH (R320). -/
  | wfqFlush (v : BitVec 64)
  /-- WFQ_CFG_WRITE (R315). -/
  | wfqCfgWrite (q : Fin 256) (v : BitVec 64)
  /-- QUEUE_STALE (R318). -/
  | queueStale (q : Fin 256)
  /-- HST_CMD_TAIL_WRITE (R336). -/
  | hstCmdTailWrite (v : BitVec 64)
  /-- COMMAND_FETCH (R338). -/
  | commandFetch (q0 q1 q2 q3 q4 q5 q6 q7 : BitVec 64)
  /-- COMPLETION_WRITE (R340). -/
  | completionWrite
  /-- HST_CPL_HEAD_WRITE (R340). -/
  | hstCplHeadWrite (v : BitVec 64)
  /-- HST_CTL_WRITE (R357). -/
  | hstCtlWrite (v : BitVec 64)
  /-- DMA_ERROR (R333). -/
  | dmaError (what : Option (Fin 256) × Fin 4)
  /-- BAR0_NARROW_ACCESS (R334). -/
  | bar0NarrowAccess (off : BitVec 16) (len : BitVec 13) (w : Option (BitVec 64))
  /-- BAR2_ACCESS (R335). -/
  | bar2Access (off : BitVec 28) (len : BitVec 13) (w : Option (List Qword))
  /-- EVT_RAW_WRITE (R349). -/
  | evtRawWrite (i : Fin 4) (v : BitVec 64)
  /-- HOLDOFF_EXPIRY (R349). -/
  | holdoffExpiry (v : Fin 32)
  /-- MSIX_UNMASK (R349). -/
  | msixUnmask (v : Fin 32) (fm : Bool)
  /-- MSPI_FRAME (R351). -/
  | mspiFrame (op : BitVec 8) (off : BitVec 16) (v : BitVec 64) (early : Option (Fin 12))
  /-- MBX_GO (R352). -/
  | mbxGo (v : BitVec 64)
  /-- HST_LINK (R350). -/
  | hstLink (speed : Fin 5) (width : Fin 4) (down : Bool)
  /-- BUS_MASTER_CHANGE (R332). -/
  | busMasterChange (enable d3hot : Bool)
  /-- CMD_NOP (R341). -/
  | cmdNop (tag : BitVec 8)
  /-- IDENTIFY (R341). -/
  | identify (tag : BitVec 8)
  /-- CSR_READ (R341). -/
  | csrRead (tag : BitVec 8)
  /-- CSR_WRITE (R341). -/
  | csrWrite (tag : BitVec 8)
  /-- CSR_RMW (R341). -/
  | csrRmw (tag : BitVec 8)
  /-- WEAVE_START (R200). -/
  | weaveStart (tag : BitVec 8)
  /-- WEAVE_STOP (R343). -/
  | weaveStop (tag : BitVec 8)
  /-- WEAVE_STOP_COMPLETE (R343). -/
  | weaveStopComplete
  /-- PROFILE_SET (R342). -/
  | profileSet (tag : BitVec 8)
  /-- HOLD_ENTER (R404). -/
  | holdEnter (tag : BitVec 8)
  /-- HOLD_ENTER_COMPLETE (R404). -/
  | holdEnterComplete
  /-- HOLD_EXIT (R549). -/
  | holdExit (tag : BitVec 8) (drift : List Int)
  /-- PORT_START (R341). -/
  | portStart (tag : BitVec 8)
  /-- PORT_STOP (R341). -/
  | portStop (tag : BitVec 8)
  /-- ENGINE_START (R341). -/
  | engineStart (tag : BitVec 8)
  /-- ENGINE_STOP (R341). -/
  | engineStop (tag : BitVec 8)
  /-- CMD_BEAT (R341). -/
  | cmdBeat (tag : BitVec 8)
  /-- TIME_SET (R341). -/
  | timeSet (tag : BitVec 8)
  /-- CODE_PREPARE (R341). -/
  | codePrepare (tag : BitVec 8)
  /-- IMAGE_LOAD (R341). -/
  | imageLoad (tag : BitVec 8)
  /-- ENGINE_SWAP (R341). -/
  | engineSwap (tag : BitVec 8)
  /-- CONV_SWAP (R341). -/
  | convSwap (tag : BitVec 8)
  /-- WARP_FILL (R341). -/
  | warpFill (tag : BitVec 8)
  /-- RING_BIND (R360). -/
  | ringBind (tag : BitVec 8)
  /-- RING_UNBIND (R367). -/
  | ringUnbind (tag : BitVec 8)
  /-- CAL_RUN (R531). -/
  | calRun (tag : BitVec 8)
  /-- MEM_VACATE (R405). -/
  | memVacate (tag : BitVec 8)
  /-- MEM_RESTORE (R406). -/
  | memRestore (tag : BitVec 8) (present known : Bool) (ranks : Fin 8) (density : Fin 64) (gib : Fin 256) (trfc : Fin 65536)
  /-- RING_DELIVER (R363). -/
  | ringDeliver (q : Fin 256)
  /-- RING_BATCH_END (R363). -/
  | ringBatchEnd (q : Fin 256)
  /-- CONS_POLL (R364). -/
  | consPoll (q : Fin 256)
  /-- CONS_READ_DONE (R364). -/
  | consReadDone (q : Fin 256) (v : BitVec 64)
  /-- REFRESH_DUE (R392). -/
  | refreshDue (k : Fin 8) (stalled : Bool) (drift : BitVec 16)
  /-- MR4_POLL (R392). -/
  | mr4Poll (hot : BitVec 8)
  /-- DRAM_WRITE_BACK (R397). -/
  | dramWriteBack
  /-- PARITY_ALERT (R398). -/
  | parityAlert (k : Fin 8) (again : Bool)
  /-- PATROL_SCRUB_READ (R399). -/
  | patrolScrubRead (upset flip : BitVec 640)
  /-- PAGE_RETIRE_DONE (R398). -/
  | pageRetireDone
  /-- DRM_ACT_RANK_OUT (R398). -/
  | drmActRankOut (v : Qword)
  /-- RANK_MIGRATE_DONE (R398). -/
  | rankMigrateDone
  /-- DRM_ACT_VACATE (R405). -/
  | drmActVacate (v : Qword)
  /-- VACATE_DONE (R405). -/
  | vacateDone
  /-- DRM_ACT_RESTORE (R406). -/
  | drmActRestore (v : Qword) (present known : Bool) (ranks : Fin 8) (density : Fin 64) (gib : Fin 256) (trfc : Fin 65536)
  /-- RESTORE_DONE (R406). -/
  | restoreDone (eyeR eyeW : Fin 65)
  /-- REGION_FILL_GO (R401). -/
  | regionFillGo (r : Fin 8) (v : Qword)
  /-- REGION_FILL_DONE (R401). -/
  | regionFillDone
  /-- MOVE_REQUEST (R402). -/
  | moveRequest
  /-- MOVE_DONE (R403). -/
  | moveDone
  /-- DRM_RPL_WRITE (R393). -/
  | drmRplWrite (w : Fin 4) (v : Qword)
  /-- SRC_CUR_WRITE (R423). -/
  | srcCurWrite (c : Fin 8) (v : Qword)
  /-- SRC_CUR_MODE_WRITE (R421). -/
  | srcCurModeWrite (c : Fin 8) (v : Qword)
  /-- FADE_STEP (R422). -/
  | fadeStep (c : Fin 8)
  /-- BUS_FRAME_DONE (R425). -/
  | busFrameDone (miso : List Byte)
  /-- BLANK_END (R431). -/
  | blankEnd (p : Fin 16)
  /-- LAUNCH_WINDOW_END (R432). -/
  | launchWindowEnd (p : Fin 16)
  /-- CURRENT_MEASURE (R434). -/
  | currentMeasure (c : Fin 8) (vcomp current : Fin 65536)
  /-- PROOF_PULSE (R435). -/
  | proofPulse (c : Fin 8) (vcomp current : Fin 65536)
  /-- INTLK_N_LOW (R437). -/
  | intlkNLow
  /-- PERMIT_WRITE (R437). -/
  | permitWrite (v : Qword)
  /-- HBEAT_TOGGLE (R438). -/
  | hbeatToggle
  /-- SRC_LINE_DATA_ACCESS (R446). -/
  | srcLineDataAccess (w : Option Qword)
  /-- STAMP_EDGE (R450). -/
  | stampEdge (i : Fin 24) (k : Nat) (tap : Fin 320) (fall : Bool)
  /-- STAMP_DELIVER (R452). -/
  | stampDeliver
  /-- STAMP_LOSS (R458). -/
  | stampLoss
  /-- GATE_OPEN (R455). -/
  | gateOpen (g : Fin 4) (k : Nat) (tap : Fin 320)
  /-- GATE_CLOSE (R455). -/
  | gateClose (g : Fin 4) (k : Nat) (tap : Fin 320)
  /-- GATE_MAX_LEN (R455). -/
  | gateMaxLen (g : Fin 4)
  /-- TSU_GATE_WRITE (R455). -/
  | tsuGateWrite (g : Fin 4) (v : BitVec 64)
  /-- SPARE_LINE_CHANGE (R453). -/
  | spareLineChange
  /-- TSU_MAP_DATA_ACCESS (R465). -/
  | tsuMapDataAccess (w : Option (BitVec 64))
  /-- ANC_EN_WRITE (R476). -/
  | ancEnWrite (v : BitVec 64)
  /-- ENTRY_DELAY_END (R476). -/
  | entryDelayEnd
  /-- CONVERSION_END (R474). -/
  | conversionEnd (v : Int × Int) (vexc : Int) (clip : Bool)
  /-- IMPEDANCE_CHECK_END (R479). -/
  | impedanceCheckEnd (z : Nat)
  /-- EXCITATION_TRIP (R470). -/
  | excitationTrip (ch : Fin 16) (current : Nat)
  /-- ANC_STALE (R481). -/
  | ancStale (ch : Fin 26)
  /-- ANC_TBL_DATA_ACCESS (R492). -/
  | ancTblDataAccess (w : Option (BitVec 64))
  /-- BOB_START (R508). -/
  | bobStart (x : Fin 4)
  /-- BOB_PAUSE (R508). -/
  | bobPause (x : Fin 4)
  /-- BOB_FINISH (R504). -/
  | bobFinish (x : Fin 4)
  /-- BOB_FLUSH (R503). -/
  | bobFlush (x : Fin 4)
  /-- BOB_ABORT (R508). -/
  | bobAbort (x : Fin 4)
  /-- BOB_SAVE (R509). -/
  | bobSave (x : Fin 4) (slot : Fin 16)
  /-- BOB_RESTORE (R509). -/
  | bobRestore (x : Fin 4) (slot : Fin 16)
  /-- BOB_ITEM_READ (R499). -/
  | bobItemRead (x : Fin 4)
  /-- BOB_OUTPUT_DRAIN (R506). -/
  | bobOutputDrain (x : Fin 4)
  /-- BOB_IDLE_FLUSH (R503). -/
  | bobIdleFlush (x : Fin 4)
  /-- BOB_SAVE_DONE (R509). -/
  | bobSaveDone (x : Fin 4)
  /-- BOB_RESTORE_DONE (R509). -/
  | bobRestoreDone (x : Fin 4)
  /-- CAL_RUN_START (R523). -/
  | calRunStart (kind g : Fin 4)
  /-- CAL_RUN_END (R518). -/
  | calRunEnd (kind : Fin 4) (idx : Fin 256) (m : CalMeas)
  /-- CAL_PAIR_END (R520). -/
  | calPairEnd (kind : Fin 4) (idx : Fin 256)
  /-- DISAGREE_RETRY (R520). -/
  | disagreeRetry (kind : Fin 4) (idx : Fin 256)
  /-- INPLACE_CHECK (R525). -/
  | inplaceCheck (j : Fin 68) (sum : Int) (rail : Bool)
  /-- REPLICA_TIMEOUT (R521). -/
  | replicaTimeout
  /-- CAL_REF_WRITE (R517). -/
  | calRefWrite (v : BitVec 64)
  /-- CAL_SAVE (R529). -/
  | calSave (v : BitVec 64)
  /-- CAL_SAVE_DONE (R529). -/
  | calSaveDone (ok : Bool)
  /-- REF_CHECK (R516). -/
  | refCheck (measured : BitVec 22)
  /-- SENSOR_READ (R522). -/
  | sensorRead (t0 t1 t2 t3 : BitVec 16) (v0 v1 v2 v3 v4 : BitVec 16)
  /-- POWER_ON_RESET (R539). -/
  | powerOnReset
  /-- BROWN_OUT (R538). -/
  | brownOut
  /-- PERST_N (R539). -/
  | perstN
  /-- RST_N (R539). -/
  | rstN
  /-- FLR (R539). -/
  | flr
  /-- CORE_RST (R539). -/
  | coreRst
  /-- RESET_RELEASE (R540). -/
  | resetRelease (pcie : Fin 4) (noflash : Bool)
  /-- BRINGUP_STEP_END (R542). -/
  | bringupStepEnd (cc : Nat) (o : BringStep)
  /-- PLL_LOCK_TIMEOUT (R543). -/
  | pllLockTimeout
  /-- FAULT_CLR (R546). -/
  | faultClr
  /-- FAULT_FORCE (R547). -/
  | faultForce
  /-- SUPPLY_FAULT (R547). -/
  | supplyFault (k : Fin 5 × BitVec 16)
  /-- SUPPLY_RECOVER (R547). -/
  | supplyRecover
  /-- SUPPLY_WARN (R548). -/
  | supplyWarn (k : Fin 5) (mv : BitVec 16)
  /-- SYS_PROFILE_WRITE (R550). -/
  | sysProfileWrite (v : BitVec 64)
  /-- RC_REGISTER_READ (R3). -/
  | rcRegisterRead (r : Fin 8192)
  /-- REGISTER_WRITE (R577). -/
  | registerWrite (r : Fin 8192) (v : BitVec 64)
  /-- SREF_RETURN (R10). -/
  | srefReturn
  /-- PLL_RELOCK (R10). -/
  | pllRelock
  /-- INTLK_N_HIGH (R437). -/
  | intlkNHigh
  /-- PCIE_LINK_UP (R331). -/
  | pcieLinkUp (speed : Fin 5) (width : Fin 4)
  /-- CALCLK_LOSS (R516). -/
  | calclkLoss
  /-- CALCLK_RETURN (R516). -/
  | calclkReturn
  /-- ENGINE_SELF_CHECK_FAIL (R255). -/
  | engineSelfCheckFail (e : Fin 34)
  /-- OWED_REFRESH (R392). -/
  | owedRefresh (k : Fin 8) (drift : BitVec 16)
  /-- TAP_INSTRUCTION_LOAD (R571). -/
  | tapInstructionLoad (i : TapInstr × BitVec 49)
deriving DecidableEq, Repr

end Sys2Proof
end

