-- ==== Sys2Proof/Decode.lean ====
section
/-!
DEFINITION. Decoding of the opcode table's words. The table gives no row any bits (every row's list of fields is empty): the
commands arrive as accesses and events, not as words. So no word spells a command. The words the spec does encode, draft
instructions (R207 to R216), Chronov instructions (R273 to R295) and command slots (R337), are encoded and decoded where
they are used: Machine/Treadle.lean, Machine/Chronov.lean and Machine/Commands.lean.
-/

set_option autoImplicit false

namespace Sys2Proof

/-- The command a word of the table's bits spells: none, for the table gives no bits. -/
def decodeTableWord (_nbits _w : Nat) : Option Instr := none

end Sys2Proof
end

