-- ==== Sys2Proof/Config.lean ====
section
/-!
DEFINITION. What the spec leaves open, as constants that nothing in Lean can evaluate.
-/

set_option autoImplicit false

namespace Sys2Proof

/-- The one source of free values: an unknown sequence of numbers. A place whose value the spec leaves open draws the next
element, and the counter `State.free` moves on, so that no two draws are related. A draw that the spec bounds is reduced to
that bound where it is used. Log entry 1. -/
opaque Config.free : Nat → Nat

/-- The pool slot that the device would give the n-th item pushed to a queue, were it free: the spec leaves the choice of a slot open. Log
entry 1. -/
opaque Config.poolSlot (queue n : Nat) : Nat

end Sys2Proof
end

