-- ==== Sys2Proof/Machine/Bits.lean ====
section
/-!
DEFINITION. Bit fields of natural numbers, two's complement, rounding and saturation: the arithmetic the rules name.
-/

set_option autoImplicit false

namespace Sys2Proof.Machine

/-- The field of `w` bits that begins at bit `lo` of `n`. -/
def slice (n lo w : Nat) : Nat := n / 2 ^ lo % 2 ^ w

/-- Bit `b` of `n`. -/
def bitOf (n b : Nat) : Bool := n / 2 ^ b % 2 = 1

/-- 1 for true. -/
def b2n (b : Bool) : Nat := if b then 1 else 0

/-- The value `v` cut to `w` bits, placed at bit `lo`. -/
def place (v lo w : Nat) : Nat := v % 2 ^ w * 2 ^ lo

/-- `n` with bit `b` set to `v`. -/
def setBitTo (n b : Nat) (v : Bool) : Nat :=
  if bitOf n b then (if v then n else n - 2 ^ b) else (if v then n + 2 ^ b else n)

/-- The two's-complement value of the low `w` bits of `n`. -/
def sx (w n : Nat) : Int :=
  let m := n % 2 ^ w
  if m < 2 ^ (w - 1) then (m : Int) else (m : Int) - 2 ^ w

/-- The low `w` bits of an integer, as two's complement. -/
def ux (w : Nat) (z : Int) : Nat := (z % (2 ^ w : Int)).toNat

/-- Saturate an unsigned value at the all-ones value of `w` bits. -/
def satU (w n : Nat) : Nat := if n < 2 ^ w then n else 2 ^ w - 1

/-- Saturate a signed value to the range of `w` bits. -/
def satS (w : Nat) (z : Int) : Int :=
  if z < -(2 ^ (w - 1) : Int) then -(2 ^ (w - 1) : Int)
  else if (2 ^ (w - 1) : Int) - 1 < z then (2 ^ (w - 1) : Int) - 1 else z

/-- The nearer end of the range where the value lies outside it. -/
def clampN (lo hi n : Nat) : Nat := if n < lo then lo else if hi < n then hi else n

/-- The nearer end of the range where the value lies outside it. -/
def clampZ (lo hi z : Int) : Int := if z < lo then lo else if hi < z then hi else z

/-- The quotient of two integers (the divisor positive), rounded to the nearest integer, ties away from zero. -/
def divRound (z : Int) (d : Nat) : Int :=
  if 0 ≤ z then ((2 * z.toNat + d) / (2 * d) : Nat) else -(((2 * (-z).toNat + d) / (2 * d) : Nat) : Int)

/-- A rational rounded to the nearest integer, ties away from zero. -/
def ratRound (q : Rat) : Int := divRound q.num q.den

/-- The integer square root, floored: `n` bits of the root by trial from the top. -/
def isqrtGo (n : Nat) : Nat → Nat → Nat
  | 0, r => r
  | k + 1, r => let t := r + 2 ^ k; isqrtGo n k (if t * t ≤ n then t else r)

/-- The floored square root of a number below 2^128. -/
def isqrt (n : Nat) : Nat := isqrtGo n 64 0

/-- The greater number. -/
def maxN (a b : Nat) : Nat := if a < b then b else a

/-- The lesser number. -/
def minN (a b : Nat) : Nat := if a < b then a else b

/-- The numbers 0 to `n - 1` whose bit is 1 in a mask, ascending. -/
def maskList (n m : Nat) : List Nat := (List.range n).filter (fun i => bitOf m i)

/-- The sum of a list. -/
def sumN (l : List Nat) : Nat := l.foldl (· + ·) 0

/-- The largest member of a list, 0 for the empty one. -/
def maxL (l : List Nat) : Nat := l.foldl maxN 0

/-- Exclusive or over a list of bytes. -/
def xorAll (l : List Byte) : Byte := l.foldl (· ^^^ ·) 0

end Sys2Proof.Machine
end

