-- ==== Sys2Proof/Machine/Code.lean ====
section
/-!
DEFINITION. The check code of the Warp store (R299, R300), which the loom memories, the instruction stores and the queue pool
share: 48 data bits, 8 check bits, and the bare pattern that no write makes.
-/

set_option autoImplicit false

namespace Sys2Proof.Machine

/-- The columns of the data bits: the first 48 of the eight-bit values of weight 3, ascending (R299). -/
def codeCols : List Nat :=
  [0x07, 0x0B, 0x0D, 0x0E, 0x13, 0x15, 0x16, 0x19, 0x1A, 0x1C, 0x23, 0x25] ++
  [0x26, 0x29, 0x2A, 0x2C, 0x31, 0x32, 0x34, 0x38, 0x43, 0x45, 0x46, 0x49] ++
  [0x4A, 0x4C, 0x51, 0x52, 0x54, 0x58, 0x61, 0x62, 0x64, 0x68, 0x70, 0x83] ++
  [0x85, 0x86, 0x89, 0x8A, 0x8C, 0x91, 0x92, 0x94, 0x98, 0xA1, 0xA2, 0xA4]

/-- Exclusive or of the columns of the data bits that are 1. -/
def checkGo : List Nat → Nat → Nat → Nat
  | [], _, acc => acc
  | c :: t, d, acc => checkGo t (d / 2) (if d % 2 = 1 then Nat.xor acc c else acc)

/-- The check field of 48 data bits (R299). -/
def checkOf (d : Nat) : Nat := checkGo codeCols (d % 2 ^ 48) 0

/-- A word as a write stores it: the data with its own check field. -/
def encodeWord (d : Nat) : Stored := BitVec.ofNat 56 (checkOf d * 2 ^ 48 + d % 2 ^ 48)

/-- The bare pattern: data zero, check field 0xFF (R300). -/
def bareWord : Stored := 0xFF000000000000#56

/-- What a read of a stored word finds (R300). -/
inductive WRead where
  | clean (d : Nat)
  | corrected (d : Nat)
  | bare
  | bareUpset
  | bad
deriving DecidableEq, Repr

/-- The position of a value in a list. -/
def indexGo (x : Nat) : List Nat → Nat → Option Nat
  | [], _ => none
  | c :: t, i => if c = x then some i else indexGo x t (i + 1)

/-- The data bits a correctable syndrome flips: one data bit, or none when a check bit was upset. -/
def flipOf (syn : Nat) : Option Nat :=
  match indexGo syn codeCols 0 with
  | some i => some (2 ^ i)
  | none => if syn ∈ [1, 2, 4, 8, 16, 32, 64, 128] then some 0 else none

/-- The decoding of a stored word by its syndrome, first matching row of R300. -/
def decodeWord (w : Stored) : WRead :=
  let d := w.toNat % 2 ^ 48
  let syn := Nat.xor (w.toNat / 2 ^ 48) (checkOf d)
  if syn = 0 then .clean d
  else match flipOf syn with
    | some f => .corrected (Nat.xor d f)
    | none =>
      if syn = 0xFF then .bare
      else if (flipOf (Nat.xor 0xFF syn)).isSome then .bareUpset else .bad

/-- The data a reader receives: corrected, or zero for a bare or an uncorrectable word (R298, R300). -/
def WRead.data : WRead → Nat
  | .clean d => d
  | .corrected d => d
  | .bare => 0
  | .bareUpset => 0
  | .bad => 0

/-- Whether the word reads bare. -/
def WRead.isBare : WRead → Bool
  | .bare => true
  | .bareUpset => true
  | .clean _ => false
  | .corrected _ => false
  | .bad => false

end Sys2Proof.Machine
end

