-- ==== Sys2Proof/Machine/RegTypes.lean ====
section
/-!
DEFINITION. How a register and a field of it are described (R1 to R3): offset in BAR0, stride and count of an indexed
register, and for a field its place, width, type and reset.
-/

set_option autoImplicit false

namespace Sys2Proof.Machine

/-- The field types of R3. -/
inductive FTy where
  | rw | ro | wo | w1c | rc | rws
deriving DecidableEq, Repr

/-- A field of a register (of every instance of an indexed register). -/
structure Fld where
  base : Nat
  stride : Nat
  lo : Nat
  width : Nat
  ty : FTy
  rst : Nat → Nat

/-- A register, with `count` instances `stride` bytes apart. -/
structure Reg where
  base : Nat
  stride : Nat
  count : Nat
  fields : List Fld

/-- The BAR0 offset of instance `i`. -/
def Reg.off (r : Reg) (i : Nat) : Nat := r.base + r.stride * i

/-- The key under which a field of instance `i` is stored: its register's offset and its lowest bit. -/
def Fld.key (f : Fld) (i : Nat) : Nat := (f.base + f.stride * i) * 64 + f.lo

/-- The instance of a register that an offset names. -/
def Reg.instAt (r : Reg) (off : Nat) : Option Nat :=
  if r.base ≤ off then
    if r.stride = 0 then (if off = r.base then some 0 else none)
    else
      let d := off - r.base
      if d % r.stride = 0 ∧ d / r.stride < r.count then some (d / r.stride) else none
  else none

end Sys2Proof.Machine
end

