-- ==== Sys2Proof/Machine/Regs.lean ====
section
/-!
DEFINITION. Every register of BAR0 and every field of it that the register map itself holds, written from the register
tables of the spec (the rule of each table is named at its register). A field that the device derives from other state
(COUNT of a queue, the summaries of EVT_VEC, what a data window shows) has its one home there and is put together by the
bus read (Machine/Bus.lean); it has no entry here. Field resets are the tables' resets; where a table says "see R<n>",
"Strap" or "Cause" the reset is the one log entry 3 names.
-/

set_option autoImplicit false

namespace Sys2Proof.Machine

def SYS_ID_PART_NUM : Fld := ⟨0x0, 0, 32, 16, .ro, fun _ => 0x4816⟩
def SYS_ID_FAMILY : Fld := ⟨0x0, 0, 24, 8, .ro, fun _ => 1⟩
def SYS_ID_STEP_MAJOR : Fld := ⟨0x0, 0, 16, 8, .ro, fun _ => 1⟩
def SYS_ID_STEP_MINOR : Fld := ⟨0x0, 0, 8, 8, .ro, fun _ => 1⟩
/-- SYS_ID (R5). -/
def SYS_ID : Reg := ⟨0x0, 0, 1, [SYS_ID_PART_NUM, SYS_ID_FAMILY, SYS_ID_STEP_MAJOR, SYS_ID_STEP_MINOR]⟩

def SYS_STATE_PREV : Fld := ⟨0x8, 0, 8, 4, .ro, fun _ => 1⟩
def SYS_STATE_STATE : Fld := ⟨0x8, 0, 0, 4, .ro, fun _ => 2⟩
/-- SYS_STATE (R560). -/
def SYS_STATE : Reg := ⟨0x8, 0, 1, [SYS_STATE_PREV, SYS_STATE_STATE]⟩

def SYS_CTL_KEY : Fld := ⟨0x10, 0, 8, 8, .wo, fun _ => 0⟩
def SYS_CTL_FAULT_FORCE : Fld := ⟨0x10, 0, 2, 1, .wo, fun _ => 0⟩
def SYS_CTL_FAULT_CLR : Fld := ⟨0x10, 0, 1, 1, .wo, fun _ => 0⟩
def SYS_CTL_CORE_RST : Fld := ⟨0x10, 0, 0, 1, .wo, fun _ => 0⟩
/-- SYS_CTL (R560). -/
def SYS_CTL : Reg := ⟨0x10, 0, 1, [SYS_CTL_KEY, SYS_CTL_FAULT_FORCE, SYS_CTL_FAULT_CLR, SYS_CTL_CORE_RST]⟩

def SYS_STRAP_PCIE : Fld := ⟨0x18, 0, 1, 2, .ro, fun _ => 0⟩
def SYS_STRAP_NOFLASH : Fld := ⟨0x18, 0, 0, 1, .ro, fun _ => 0⟩
/-- SYS_STRAP (R561). -/
def SYS_STRAP : Reg := ⟨0x18, 0, 1, [SYS_STRAP_PCIE, SYS_STRAP_NOFLASH]⟩

def SYS_BRINGUP_TIME_US : Fld := ⟨0x20, 0, 24, 24, .ro, fun _ => 0⟩
def SYS_BRINGUP_FAIL_STEP : Fld := ⟨0x20, 0, 8, 4, .ro, fun _ => 0⟩
def SYS_BRINGUP_STEP : Fld := ⟨0x20, 0, 0, 4, .ro, fun _ => 1⟩
/-- SYS_BRINGUP (R561). -/
def SYS_BRINGUP : Reg := ⟨0x20, 0, 1, [SYS_BRINGUP_TIME_US, SYS_BRINGUP_FAIL_STEP, SYS_BRINGUP_STEP]⟩

def SYS_RESET_SOFT : Fld := ⟨0x28, 0, 4, 1, .ro, fun _ => 0⟩
def SYS_RESET_FLR : Fld := ⟨0x28, 0, 3, 1, .ro, fun _ => 0⟩
def SYS_RESET_PIN : Fld := ⟨0x28, 0, 2, 1, .ro, fun _ => 0⟩
def SYS_RESET_PERST : Fld := ⟨0x28, 0, 1, 1, .ro, fun _ => 0⟩
def SYS_RESET_POR : Fld := ⟨0x28, 0, 0, 1, .ro, fun _ => 1⟩
/-- SYS_RESET (R561). -/
def SYS_RESET : Reg := ⟨0x28, 0, 1, [SYS_RESET_SOFT, SYS_RESET_FLR, SYS_RESET_PIN, SYS_RESET_PERST, SYS_RESET_POR]⟩

def SYS_PROFILE_PROFILE : Fld := ⟨0x30, 0, 0, 2, .rw, fun _ => 0⟩
/-- SYS_PROFILE (R560). -/
def SYS_PROFILE : Reg := ⟨0x30, 0, 1, [SYS_PROFILE_PROFILE]⟩

def SYS_FAULT_LATCHED : Fld := ⟨0x38, 0, 8, 8, .w1c, fun _ => 0⟩
def SYS_FAULT_ACTIVE : Fld := ⟨0x38, 0, 0, 8, .ro, fun _ => 0⟩
/-- SYS_FAULT (R562). -/
def SYS_FAULT : Reg := ⟨0x38, 0, 1, [SYS_FAULT_LATCHED, SYS_FAULT_ACTIVE]⟩

def SYS_CLK_STAT_SREF_LOST : Fld := ⟨0x40, 0, 3, 1, .w1c, fun _ => 0⟩
def SYS_CLK_STAT_PLL_UNLOCKED : Fld := ⟨0x40, 0, 2, 1, .w1c, fun _ => 0⟩
def SYS_CLK_STAT_SREF_OK : Fld := ⟨0x40, 0, 1, 1, .ro, fun _ => 0⟩
def SYS_CLK_STAT_PLL_LOCK : Fld := ⟨0x40, 0, 0, 1, .ro, fun _ => 0⟩
/-- SYS_CLK_STAT (R10). -/
def SYS_CLK_STAT : Reg := ⟨0x40, 0, 1, [SYS_CLK_STAT_SREF_LOST, SYS_CLK_STAT_PLL_UNLOCKED, SYS_CLK_STAT_SREF_OK, SYS_CLK_STAT_PLL_LOCK]⟩

def SYS_ENV_TEMP_FAULT : Fld := ⟨0x48, 0, 40, 8, .rw, fun _ => 0x6e⟩
def SYS_ENV_TEMP_WARN : Fld := ⟨0x48, 0, 32, 8, .rw, fun _ => 0x64⟩
def SYS_ENV_TEMP_MAX : Fld := ⟨0x48, 0, 16, 16, .ro, fun _ => 0⟩
def SYS_ENV_SUPPLY_OK : Fld := ⟨0x48, 0, 0, 5, .ro, fun _ => 0⟩
/-- SYS_ENV (R562). -/
def SYS_ENV : Reg := ⟨0x48, 0, 1, [SYS_ENV_TEMP_FAULT, SYS_ENV_TEMP_WARN, SYS_ENV_TEMP_MAX, SYS_ENV_SUPPLY_OK]⟩

def SYS_PICK_PERIOD_PERIOD : Fld := ⟨0x80, 0, 0, 23, .rw, fun _ => 0x7a120⟩
/-- SYS_PICK_PERIOD (R19). -/
def SYS_PICK_PERIOD : Reg := ⟨0x80, 0, 1, [SYS_PICK_PERIOD_PERIOD]⟩

def SYS_PICK_LIM_STRETCH_LIM : Fld := ⟨0x88, 0, 24, 20, .rw, fun _ => 0x7a120⟩
def SYS_PICK_LIM_SELV_FLOOR : Fld := ⟨0x88, 0, 0, 20, .rw, fun _ => 0x1f40⟩
/-- SYS_PICK_LIM (R20). -/
def SYS_PICK_LIM : Reg := ⟨0x88, 0, 1, [SYS_PICK_LIM_STRETCH_LIM, SYS_PICK_LIM_SELV_FLOOR]⟩

def SYS_PICK_BASE_BASE : Fld := ⟨0x90, 0, 0, 48, .rws, fun _ => 0⟩
/-- SYS_PICK_BASE (R31). -/
def SYS_PICK_BASE : Reg := ⟨0x90, 0, 1, [SYS_PICK_BASE_BASE]⟩

def SYS_PICK_NUM_NUM : Fld := ⟨0x98, 0, 0, 48, .ro, fun _ => 0⟩
/-- SYS_PICK_NUM (R31). -/
def SYS_PICK_NUM : Reg := ⟨0x98, 0, 1, [SYS_PICK_NUM_NUM]⟩

def SYS_PICK_STAT_CAUSE : Fld := ⟨0xa0, 0, 48, 2, .ro, fun _ => 0⟩
def SYS_PICK_STAT_FLOOR : Fld := ⟨0xa0, 0, 24, 24, .ro, fun _ => 0⟩
def SYS_PICK_STAT_LATENESS : Fld := ⟨0xa0, 0, 0, 24, .ro, fun _ => 0⟩
/-- SYS_PICK_STAT (R29). -/
def SYS_PICK_STAT : Reg := ⟨0xa0, 0, 1, [SYS_PICK_STAT_CAUSE, SYS_PICK_STAT_FLOOR, SYS_PICK_STAT_LATENESS]⟩

def SYS_PICK_CNT_DROPS : Fld := ⟨0xa8, 0, 32, 16, .rc, fun _ => 0⟩
def SYS_PICK_CNT_STRETCHES : Fld := ⟨0xa8, 0, 16, 16, .rc, fun _ => 0⟩
def SYS_PICK_CNT_LATE : Fld := ⟨0xa8, 0, 0, 16, .rc, fun _ => 0⟩
/-- SYS_PICK_CNT (R32). -/
def SYS_PICK_CNT : Reg := ⟨0xa8, 0, 1, [SYS_PICK_CNT_DROPS, SYS_PICK_CNT_STRETCHES, SYS_PICK_CNT_LATE]⟩

def SYS_TOD_SET_SEC : Fld := ⟨0xc0, 0, 8, 40, .rw, fun _ => 0⟩
def SYS_TOD_SET_IMM : Fld := ⟨0xc0, 0, 1, 1, .wo, fun _ => 0⟩
def SYS_TOD_SET_ARM : Fld := ⟨0xc0, 0, 0, 1, .wo, fun _ => 0⟩
/-- SYS_TOD_SET (R40). -/
def SYS_TOD_SET : Reg := ⟨0xc0, 0, 1, [SYS_TOD_SET_SEC, SYS_TOD_SET_IMM, SYS_TOD_SET_ARM]⟩

/-- SYS_TIME_HI (R41). -/
def SYS_TIME_HI : Reg := ⟨0xc8, 0, 1, []⟩

/-- SYS_TIME_LO (R41). -/
def SYS_TIME_LO : Reg := ⟨0xd0, 0, 1, []⟩

def SYS_DISC_CTL_STEP_THR : Fld := ⟨0xd8, 0, 16, 24, .rw, fun _ => 0x3e8⟩
def SYS_DISC_CTL_TC : Fld := ⟨0xd8, 0, 8, 4, .rw, fun _ => 4⟩
def SYS_DISC_CTL_PPS_EN : Fld := ⟨0xd8, 0, 0, 1, .rw, fun _ => 0⟩
/-- SYS_DISC_CTL (R42). -/
def SYS_DISC_CTL : Reg := ⟨0xd8, 0, 1, [SYS_DISC_CTL_STEP_THR, SYS_DISC_CTL_TC, SYS_DISC_CTL_PPS_EN]⟩

def SYS_DISC_STAT_PHASE_ERR : Fld := ⟨0xe0, 0, 16, 32, .ro, fun _ => 0⟩
def SYS_DISC_STAT_HOLDOVER : Fld := ⟨0xe0, 0, 3, 1, .ro, fun _ => 0⟩
def SYS_DISC_STAT_LOCKED : Fld := ⟨0xe0, 0, 2, 1, .ro, fun _ => 0⟩
def SYS_DISC_STAT_VALID : Fld := ⟨0xe0, 0, 1, 1, .ro, fun _ => 0⟩
def SYS_DISC_STAT_STEPPED : Fld := ⟨0xe0, 0, 0, 1, .w1c, fun _ => 0⟩
/-- SYS_DISC_STAT (R43). -/
def SYS_DISC_STAT : Reg := ⟨0xe0, 0, 1, [SYS_DISC_STAT_PHASE_ERR, SYS_DISC_STAT_HOLDOVER, SYS_DISC_STAT_LOCKED, SYS_DISC_STAT_VALID, SYS_DISC_STAT_STEPPED]⟩

def SYS_DISC_FREQ_FREQ : Fld := ⟨0xe8, 0, 0, 48, .ro, fun _ => 0⟩
/-- SYS_DISC_FREQ (R43). -/
def SYS_DISC_FREQ : Reg := ⟨0xe8, 0, 1, [SYS_DISC_FREQ_FREQ]⟩

def SYS_LINE_SHED_SHED_ODD : Fld := ⟨0x200, 0x8, 24, 24, .rw, fun _ => 0⟩
def SYS_LINE_SHED_SHED_EVEN : Fld := ⟨0x200, 0x8, 0, 24, .rw, fun _ => 0⟩
/-- SYS_LINE_SHED (R14). -/
def SYS_LINE_SHED : Reg := ⟨0x200, 0x8, 64, [SYS_LINE_SHED_SHED_ODD, SYS_LINE_SHED_SHED_EVEN]⟩

def HST_CTL_CPL_LOG2 : Fld := ⟨0x400, 0, 8, 5, .rw, fun _ => 8⟩
def HST_CTL_CMD_LOG2 : Fld := ⟨0x400, 0, 4, 4, .rw, fun _ => 0xc⟩
def HST_CTL_CPL_EN : Fld := ⟨0x400, 0, 1, 1, .rw, fun _ => 0⟩
def HST_CTL_CMD_EN : Fld := ⟨0x400, 0, 0, 1, .rw, fun _ => 0⟩
/-- HST_CTL (R356). -/
def HST_CTL : Reg := ⟨0x400, 0, 1, [HST_CTL_CPL_LOG2, HST_CTL_CMD_LOG2, HST_CTL_CPL_EN, HST_CTL_CMD_EN]⟩

def HST_STAT_LINK_SPEED : Fld := ⟨0x408, 0, 28, 4, .ro, fun _ => 0⟩
def HST_STAT_LINK_WIDTH : Fld := ⟨0x408, 0, 24, 4, .ro, fun _ => 0⟩
def HST_STAT_DMA_ERR : Fld := ⟨0x408, 0, 16, 1, .w1c, fun _ => 0⟩
/-- HST_STAT (R356). -/
def HST_STAT : Reg := ⟨0x408, 0, 1, [HST_STAT_LINK_SPEED, HST_STAT_LINK_WIDTH, HST_STAT_DMA_ERR]⟩

def HST_CMD_BASE_CMD_BASE : Fld := ⟨0x410, 0, 12, 52, .rw, fun _ => 0⟩
/-- HST_CMD_BASE (R357). -/
def HST_CMD_BASE : Reg := ⟨0x410, 0, 1, [HST_CMD_BASE_CMD_BASE]⟩

def HST_CMD_TAIL_TAIL : Fld := ⟨0x418, 0, 0, 12, .rw, fun _ => 0⟩
/-- HST_CMD_TAIL (R357). -/
def HST_CMD_TAIL : Reg := ⟨0x418, 0, 1, [HST_CMD_TAIL_TAIL]⟩

def HST_CMD_HEAD_HEAD : Fld := ⟨0x420, 0, 0, 12, .ro, fun _ => 0⟩
/-- HST_CMD_HEAD (R357). -/
def HST_CMD_HEAD : Reg := ⟨0x420, 0, 1, [HST_CMD_HEAD_HEAD]⟩

def HST_CPL_BASE_CPL_BASE : Fld := ⟨0x428, 0, 12, 52, .rw, fun _ => 0⟩
/-- HST_CPL_BASE (R357). -/
def HST_CPL_BASE : Reg := ⟨0x428, 0, 1, [HST_CPL_BASE_CPL_BASE]⟩

def HST_CPL_HEAD_HEAD : Fld := ⟨0x430, 0, 0, 16, .rw, fun _ => 0⟩
/-- HST_CPL_HEAD (R357). -/
def HST_CPL_HEAD : Reg := ⟨0x430, 0, 1, [HST_CPL_HEAD_HEAD]⟩

def HST_CPL_TAIL_TAIL : Fld := ⟨0x438, 0, 0, 16, .ro, fun _ => 0⟩
/-- HST_CPL_TAIL (R357). -/
def HST_CPL_TAIL : Reg := ⟨0x438, 0, 1, [HST_CPL_TAIL_TAIL]⟩

def HST_CNT_COMMANDS : Fld := ⟨0x440, 0, 16, 32, .rc, fun _ => 0⟩
def HST_CNT_ERRORS : Fld := ⟨0x440, 0, 0, 16, .rc, fun _ => 0⟩
/-- HST_CNT (R358). -/
def HST_CNT : Reg := ⟨0x440, 0, 1, [HST_CNT_COMMANDS, HST_CNT_ERRORS]⟩

def HST_MBX_CTL_MBX_DONE : Fld := ⟨0x448, 0, 2, 1, .w1c, fun _ => 0⟩
def HST_MBX_CTL_MBX_BUSY : Fld := ⟨0x448, 0, 1, 1, .ro, fun _ => 0⟩
def HST_MBX_CTL_GO : Fld := ⟨0x448, 0, 0, 1, .wo, fun _ => 0⟩
/-- HST_MBX_CTL (R358). -/
def HST_MBX_CTL : Reg := ⟨0x448, 0, 1, [HST_MBX_CTL_MBX_DONE, HST_MBX_CTL_MBX_BUSY, HST_MBX_CTL_GO]⟩

def HST_MBX_CPL0_CPL0 : Fld := ⟨0x450, 0, 0, 64, .ro, fun _ => 0⟩
/-- HST_MBX_CPL0 (R358). -/
def HST_MBX_CPL0 : Reg := ⟨0x450, 0, 1, [HST_MBX_CPL0_CPL0]⟩

def HST_MBX_CPL1_CPL1 : Fld := ⟨0x458, 0, 0, 64, .ro, fun _ => 0⟩
/-- HST_MBX_CPL1 (R358). -/
def HST_MBX_CPL1 : Reg := ⟨0x458, 0, 1, [HST_MBX_CPL1_CPL1]⟩

def HST_MBX_CMD_QWORD : Fld := ⟨0x480, 0x8, 0, 64, .rw, fun _ => 0⟩
/-- HST_MBX_CMD (R358). -/
def HST_MBX_CMD : Reg := ⟨0x480, 0x8, 8, [HST_MBX_CMD_QWORD]⟩

def TRD_CTL_DISCARD : Fld := ⟨0x800, 0, 7, 1, .wo, fun _ => 0⟩
def TRD_CTL_HOST_BEAT : Fld := ⟨0x800, 0, 6, 1, .wo, fun _ => 0⟩
def TRD_CTL_SWAP : Fld := ⟨0x800, 0, 5, 1, .wo, fun _ => 0⟩
def TRD_CTL_BANK : Fld := ⟨0x800, 0, 0, 1, .rw, fun _ => 0⟩
/-- TRD_CTL (R232). -/
def TRD_CTL : Reg := ⟨0x800, 0, 1, [TRD_CTL_DISCARD, TRD_CTL_HOST_BEAT, TRD_CTL_SWAP, TRD_CTL_BANK]⟩

/-- TRD_STAT (R233). -/
def TRD_STAT : Reg := ⟨0x808, 0, 1, []⟩

def TRD_DRAFT_ADDR_BANK : Fld := ⟨0x810, 0, 12, 1, .rw, fun _ => 0⟩
def TRD_DRAFT_ADDR_ADDR : Fld := ⟨0x810, 0, 0, 12, .rw, fun _ => 0⟩
/-- TRD_DRAFT_ADDR (R234). -/
def TRD_DRAFT_ADDR : Reg := ⟨0x810, 0, 1, [TRD_DRAFT_ADDR_BANK, TRD_DRAFT_ADDR_ADDR]⟩

/-- TRD_DRAFT_DATA (R234). -/
def TRD_DRAFT_DATA : Reg := ⟨0x818, 0, 1, []⟩

def TRD_BEAT_STAT_AFFECTED : Fld := ⟨0x830, 0, 40, 8, .ro, fun _ => 0⟩
def TRD_BEAT_STAT_NOT_READY : Fld := ⟨0x830, 0, 32, 8, .ro, fun _ => 0⟩
def TRD_BEAT_STAT_OUTCOME : Fld := ⟨0x830, 0, 28, 4, .ro, fun _ => 0⟩
def TRD_BEAT_STAT_TRIES : Fld := ⟨0x830, 0, 23, 5, .ro, fun _ => 0⟩
/-- TRD_BEAT_STAT (R236). -/
def TRD_BEAT_STAT : Reg := ⟨0x830, 0, 1, [TRD_BEAT_STAT_AFFECTED, TRD_BEAT_STAT_NOT_READY, TRD_BEAT_STAT_OUTCOME, TRD_BEAT_STAT_TRIES]⟩

def TRD_BEAT_PICK_PICK : Fld := ⟨0x838, 0, 0, 48, .ro, fun _ => 0⟩
/-- TRD_BEAT_PICK (R236). -/
def TRD_BEAT_PICK : Reg := ⟨0x838, 0, 1, [TRD_BEAT_PICK_PICK]⟩

/-- TRD_FLAGS (R237). -/
def TRD_FLAGS : Reg := ⟨0x840, 0, 1, []⟩

def TRD_FLAG_SET_SET : Fld := ⟨0x848, 0, 0, 16, .wo, fun _ => 0⟩
/-- TRD_FLAG_SET (R237). -/
def TRD_FLAG_SET : Reg := ⟨0x848, 0, 1, [TRD_FLAG_SET_SET]⟩

def TRD_CNT_COMMITS : Fld := ⟨0x850, 0, 32, 16, .rc, fun _ => 0⟩
def TRD_CNT_ABANDONS : Fld := ⟨0x850, 0, 24, 8, .rc, fun _ => 0⟩
def TRD_CNT_MERGED : Fld := ⟨0x850, 0, 16, 8, .rc, fun _ => 0⟩
def TRD_CNT_BUDGET : Fld := ⟨0x850, 0, 8, 8, .rc, fun _ => 0⟩
def TRD_CNT_NOTE_DROP : Fld := ⟨0x850, 0, 0, 8, .rc, fun _ => 0⟩
/-- TRD_CNT (R237). -/
def TRD_CNT : Reg := ⟨0x850, 0, 1, [TRD_CNT_COMMITS, TRD_CNT_ABANDONS, TRD_CNT_MERGED, TRD_CNT_BUDGET, TRD_CNT_NOTE_DROP]⟩

def TRD_BANK_CFG_STEP : Fld := ⟨0x820, 0x8, 48, 8, .rw, fun _ => 0⟩
def TRD_BANK_CFG_ENTRY : Fld := ⟨0x820, 0x8, 36, 12, .rw, fun _ => 0⟩
def TRD_BANK_CFG_LENGTH : Fld := ⟨0x820, 0x8, 23, 13, .rw, fun _ => 0⟩
def TRD_BANK_CFG_ERR_ADDR : Fld := ⟨0x820, 0x8, 11, 12, .ro, fun _ => 0⟩
def TRD_BANK_CFG_ERR : Fld := ⟨0x820, 0x8, 7, 4, .ro, fun _ => 0⟩
def TRD_BANK_CFG_CHECKING : Fld := ⟨0x820, 0x8, 2, 1, .ro, fun _ => 0⟩
def TRD_BANK_CFG_VALIDATE : Fld := ⟨0x820, 0x8, 1, 1, .wo, fun _ => 0⟩
def TRD_BANK_CFG_VALID : Fld := ⟨0x820, 0x8, 0, 1, .ro, fun _ => 0⟩
/-- TRD_BANK_CFG (R235). -/
def TRD_BANK_CFG : Reg := ⟨0x820, 0x8, 2, [TRD_BANK_CFG_STEP, TRD_BANK_CFG_ENTRY, TRD_BANK_CFG_LENGTH, TRD_BANK_CFG_ERR_ADDR, TRD_BANK_CFG_ERR, TRD_BANK_CFG_CHECKING, TRD_BANK_CFG_VALIDATE, TRD_BANK_CFG_VALID]⟩

def TRD_PORT_LINE_STG : Fld := ⟨0x900, 0x8, 20, 3, .rw, fun _ => 0⟩
def TRD_PORT_LINE : Fld := ⟨0x900, 0x8, 16, 3, .ro, fun _ => 0⟩
def TRD_PORT_GZT : Fld := ⟨0x900, 0x8, 12, 2, .ro, fun _ => 0⟩
def TRD_PORT_KIND : Fld := ⟨0x900, 0x8, 8, 2, .ro, fun _ => 0⟩
def TRD_PORT_SLOT : Fld := ⟨0x900, 0x8, 0, 6, .ro, fun _ => 0⟩
/-- TRD_PORT (R238). -/
def TRD_PORT : Reg := ⟨0x900, 0x8, 16, [TRD_PORT_LINE_STG, TRD_PORT_LINE, TRD_PORT_GZT, TRD_PORT_KIND, TRD_PORT_SLOT]⟩

def PRT_CTL_FRUGAL_MEMBER : Fld := ⟨0xc00, 0x80, 1, 1, .rw, fun _ => 0⟩
def PRT_CTL_RUN : Fld := ⟨0xc00, 0x80, 0, 1, .rw, fun _ => 0⟩
/-- PRT_CTL (R73). -/
def PRT_CTL : Reg := ⟨0xc00, 0x80, 16, [PRT_CTL_FRUGAL_MEMBER, PRT_CTL_RUN]⟩

def PRT_STAT_STAMP_FAULT : Fld := ⟨0xc08, 0x80, 9, 1, .ro, fun _ => 0⟩
def PRT_STAT_CONV_FAULT : Fld := ⟨0xc08, 0x80, 8, 1, .ro, fun _ => 0⟩
def PRT_STAT_START_PENDING : Fld := ⟨0xc08, 0x80, 3, 1, .ro, fun _ => 0⟩
def PRT_STAT_STATE : Fld := ⟨0xc08, 0x80, 0, 3, .ro, fun _ => 0⟩
/-- PRT_STAT (R74). -/
def PRT_STAT : Reg := ⟨0xc08, 0x80, 16, [PRT_STAT_STAMP_FAULT, PRT_STAT_CONV_FAULT, PRT_STAT_START_PENDING, PRT_STAT_STATE]⟩

def PRT_IQ_X_A : Fld := ⟨0xc10, 0x80, 24, 24, .rw, fun _ => 0x400000⟩
def PRT_IQ_X_B : Fld := ⟨0xc10, 0x80, 0, 24, .rw, fun _ => 0⟩
/-- PRT_IQ_X (R75). -/
def PRT_IQ_X : Reg := ⟨0xc10, 0x80, 16, [PRT_IQ_X_A, PRT_IQ_X_B]⟩

def PRT_IQ_Y_A : Fld := ⟨0xc18, 0x80, 24, 24, .rw, fun _ => 0x400000⟩
def PRT_IQ_Y_B : Fld := ⟨0xc18, 0x80, 0, 24, .rw, fun _ => 0⟩
/-- PRT_IQ_Y (R75). -/
def PRT_IQ_Y : Reg := ⟨0xc18, 0x80, 16, [PRT_IQ_Y_A, PRT_IQ_Y_B]⟩

def PRT_SKEW_SKEW_XQ : Fld := ⟨0xc20, 0x80, 32, 16, .rw, fun _ => 0⟩
def PRT_SKEW_SKEW_YI : Fld := ⟨0xc20, 0x80, 16, 16, .rw, fun _ => 0⟩
def PRT_SKEW_SKEW_YQ : Fld := ⟨0xc20, 0x80, 0, 16, .rw, fun _ => 0⟩
/-- PRT_SKEW (R76). -/
def PRT_SKEW : Reg := ⟨0xc20, 0x80, 16, [PRT_SKEW_SKEW_XQ, PRT_SKEW_SKEW_YI, PRT_SKEW_SKEW_YQ]⟩

def PRT_GZ_ADDR_TABLE : Fld := ⟨0xc28, 0x80, 4, 2, .rw, fun _ => 0⟩
def PRT_GZ_ADDR_ENTRY : Fld := ⟨0xc28, 0x80, 0, 4, .rw, fun _ => 0⟩
/-- PRT_GZ_ADDR (R77). -/
def PRT_GZ_ADDR : Reg := ⟨0xc28, 0x80, 16, [PRT_GZ_ADDR_TABLE, PRT_GZ_ADDR_ENTRY]⟩

/-- PRT_GZ_DATA (R77). -/
def PRT_GZ_DATA : Reg := ⟨0xc30, 0x80, 16, []⟩

def PRT_MAP_CONV_XI : Fld := ⟨0xc38, 0x80, 24, 8, .ro, fun i => 4 * i⟩
def PRT_MAP_CONV_XQ : Fld := ⟨0xc38, 0x80, 16, 8, .ro, fun i => 4 * i + 1⟩
def PRT_MAP_CONV_YI : Fld := ⟨0xc38, 0x80, 8, 8, .ro, fun i => 4 * i + 2⟩
def PRT_MAP_CONV_YQ : Fld := ⟨0xc38, 0x80, 0, 8, .ro, fun i => 4 * i + 3⟩
/-- PRT_MAP (R78). -/
def PRT_MAP : Reg := ⟨0xc38, 0x80, 16, [PRT_MAP_CONV_XI, PRT_MAP_CONV_XQ, PRT_MAP_CONV_YI, PRT_MAP_CONV_YQ]⟩

def PRT_CNT_SAT_SAMPLES : Fld := ⟨0xc40, 0x80, 24, 24, .rc, fun _ => 0⟩
def PRT_CNT_SAT_SHEDS : Fld := ⟨0xc40, 0x80, 8, 16, .rc, fun _ => 0⟩
def PRT_CNT_STEP_SKIP : Fld := ⟨0xc40, 0x80, 0, 8, .rc, fun _ => 0⟩
/-- PRT_CNT (R79). -/
def PRT_CNT : Reg := ⟨0xc40, 0x80, 16, [PRT_CNT_SAT_SAMPLES, PRT_CNT_SAT_SHEDS, PRT_CNT_STEP_SKIP]⟩

def CNV_CORR_OFFSET : Fld := ⟨0x1400, 0x10, 32, 16, .rw, fun _ => 0⟩
def CNV_CORR_GAIN : Fld := ⟨0x1400, 0x10, 16, 16, .rw, fun _ => 0x8000⟩
/-- CNV_CORR (R80). -/
def CNV_CORR : Reg := ⟨0x1400, 0x10, 68, [CNV_CORR_OFFSET, CNV_CORR_GAIN]⟩

def CNV_RATIO_RATIO6 : Fld := ⟨0x1408, 0x10, 32, 16, .rw, fun _ => 0x804e⟩
def CNV_RATIO_RATIO12 : Fld := ⟨0x1408, 0x10, 16, 16, .rw, fun _ => 0x404e⟩
def CNV_RATIO_RATIO18 : Fld := ⟨0x1408, 0x10, 0, 16, .rw, fun _ => 0x203a⟩
/-- CNV_RATIO (R81). -/
def CNV_RATIO : Reg := ⟨0x1408, 0x10, 68, [CNV_RATIO_RATIO6, CNV_RATIO_RATIO12, CNV_RATIO_RATIO18]⟩

def CNV_STAT_SLOT : Fld := ⟨0x1840, 0x8, 40, 8, .ro, fun i => if i < 64 then i else 255⟩
def CNV_STAT_CAL_FAIL : Fld := ⟨0x1840, 0x8, 17, 1, .w1c, fun _ => 0⟩
def CNV_STAT_STUCK : Fld := ⟨0x1840, 0x8, 16, 1, .w1c, fun _ => 0⟩
def CNV_STAT_STATE : Fld := ⟨0x1840, 0x8, 0, 4, .ro, fun i => if i < 64 then 1 else 3⟩
/-- CNV_STAT (R82). -/
def CNV_STAT : Reg := ⟨0x1840, 0x8, 68, [CNV_STAT_SLOT, CNV_STAT_CAL_FAIL, CNV_STAT_STUCK, CNV_STAT_STATE]⟩

def CNV_GRP_CTL_AUTO_SPARE : Fld := ⟨0x1a80, 0x10, 8, 1, .rw, fun _ => 1⟩
def CNV_GRP_CTL_SWAP : Fld := ⟨0x1a80, 0x10, 7, 1, .wo, fun _ => 0⟩
def CNV_GRP_CTL_SLOT : Fld := ⟨0x1a80, 0x10, 0, 4, .wo, fun _ => 0⟩
/-- CNV_GRP_CTL (R83). -/
def CNV_GRP_CTL : Reg := ⟨0x1a80, 0x10, 4, [CNV_GRP_CTL_AUTO_SPARE, CNV_GRP_CTL_SWAP, CNV_GRP_CTL_SLOT]⟩

def CNV_GRP_STAT_SPARE : Fld := ⟨0x1a88, 0x10, 40, 8, .ro, fun i => 64 + i⟩
def CNV_GRP_STAT_LAST_SLOT : Fld := ⟨0x1a88, 0x10, 32, 4, .ro, fun _ => 0⟩
def CNV_GRP_STAT_SWAPS : Fld := ⟨0x1a88, 0x10, 16, 16, .rc, fun _ => 0⟩
def CNV_GRP_STAT_REASON : Fld := ⟨0x1a88, 0x10, 4, 4, .ro, fun _ => 0⟩
def CNV_GRP_STAT_DONE : Fld := ⟨0x1a88, 0x10, 3, 1, .w1c, fun _ => 0⟩
def CNV_GRP_STAT_REFUSED : Fld := ⟨0x1a88, 0x10, 2, 1, .w1c, fun _ => 0⟩
def CNV_GRP_STAT_BUSY : Fld := ⟨0x1a88, 0x10, 0, 1, .ro, fun _ => 0⟩
/-- CNV_GRP_STAT (R84). -/
def CNV_GRP_STAT : Reg := ⟨0x1a88, 0x10, 4, [CNV_GRP_STAT_SPARE, CNV_GRP_STAT_LAST_SLOT, CNV_GRP_STAT_SWAPS, CNV_GRP_STAT_REASON, CNV_GRP_STAT_DONE, CNV_GRP_STAT_REFUSED, CNV_GRP_STAT_BUSY]⟩

def RED_LOAD_ADDR_ADDR : Fld := ⟨0x1c00, 0, 0, 14, .rw, fun _ => 0⟩
/-- RED_LOAD_ADDR (R108). -/
def RED_LOAD_ADDR : Reg := ⟨0x1c00, 0, 1, [RED_LOAD_ADDR_ADDR]⟩

/-- RED_LOAD_DATA (R108). -/
def RED_LOAD_DATA : Reg := ⟨0x1c08, 0, 1, []⟩

def RED_SLOT_CFG_SHIFT : Fld := ⟨0x1c10, 0, 36, 4, .rw, fun _ => 0⟩
def RED_SLOT_CFG_CHIP_LEN : Fld := ⟨0x1c10, 0, 32, 2, .rw, fun _ => 0⟩
def RED_SLOT_CFG_CHIPS_M1 : Fld := ⟨0x1c10, 0, 16, 11, .rw, fun _ => 0⟩
/-- RED_SLOT_CFG (R109). -/
def RED_SLOT_CFG : Reg := ⟨0x1c10, 0, 1, [RED_SLOT_CFG_SHIFT, RED_SLOT_CFG_CHIP_LEN, RED_SLOT_CFG_CHIPS_M1]⟩

def RED_SLOT_CTL_PREPARE : Fld := ⟨0x1c18, 0, 8, 1, .wo, fun _ => 0⟩
def RED_SLOT_CTL_SLOT : Fld := ⟨0x1c18, 0, 0, 6, .wo, fun _ => 0⟩
/-- RED_SLOT_CTL (R110). -/
def RED_SLOT_CTL : Reg := ⟨0x1c18, 0, 1, [RED_SLOT_CTL_PREPARE, RED_SLOT_CTL_SLOT]⟩

def RED_SLOT_STAT_BUSY : Fld := ⟨0x1c20, 0, 15, 1, .ro, fun _ => 0⟩
def RED_SLOT_STAT_REFUSED : Fld := ⟨0x1c20, 0, 14, 1, .w1c, fun _ => 0⟩
def RED_SLOT_STAT_BUSY_SLOT : Fld := ⟨0x1c20, 0, 8, 6, .ro, fun _ => 0⟩
/-- RED_SLOT_STAT (R110). -/
def RED_SLOT_STAT : Reg := ⟨0x1c20, 0, 1, [RED_SLOT_STAT_BUSY, RED_SLOT_STAT_REFUSED, RED_SLOT_STAT_BUSY_SLOT]⟩

def RED_PORT_CFG_PSHIFT : Fld := ⟨0x1d00, 0x8, 16, 5, .rw, fun _ => 0x10⟩
def RED_PORT_CFG_WIN : Fld := ⟨0x1d00, 0x8, 8, 2, .rw, fun _ => 1⟩
def RED_PORT_CFG_SEG_LEN : Fld := ⟨0x1d00, 0x8, 0, 2, .rw, fun _ => 0⟩
/-- RED_PORT_CFG (R112). -/
def RED_PORT_CFG : Reg := ⟨0x1d00, 0x8, 16, [RED_PORT_CFG_PSHIFT, RED_PORT_CFG_WIN, RED_PORT_CFG_SEG_LEN]⟩

def RED_PORT_STAT_SAT_OUT : Fld := ⟨0x1d80, 0x8, 32, 16, .rc, fun _ => 0⟩
def RED_PORT_STAT_EMPTY_SLOT : Fld := ⟨0x1d80, 0x8, 24, 8, .rc, fun _ => 0⟩
def RED_PORT_STAT_LAST_KIND : Fld := ⟨0x1d80, 0x8, 8, 2, .ro, fun _ => 0⟩
def RED_PORT_STAT_LAST_SLOT : Fld := ⟨0x1d80, 0x8, 0, 6, .ro, fun _ => 0⟩
/-- RED_PORT_STAT (R113). -/
def RED_PORT_STAT : Reg := ⟨0x1d80, 0x8, 16, [RED_PORT_STAT_SAT_OUT, RED_PORT_STAT_EMPTY_SLOT, RED_PORT_STAT_LAST_KIND, RED_PORT_STAT_LAST_SLOT]⟩

/-- RED_SLOT_INFO (R111). -/
def RED_SLOT_INFO : Reg := ⟨0x1e00, 0x8, 64, []⟩

def GAU_NG_N_G : Fld := ⟨0x2000, 0, 0, 17, .rw, fun _ => 0x177cf⟩
/-- GAU_NG (R141). -/
def GAU_NG : Reg := ⟨0x2000, 0, 1, [GAU_NG_N_G]⟩

def GAU_BRK_CTL_DROP : Fld := ⟨0x2008, 0, 36, 12, .rw, fun _ => 0x200⟩
def GAU_BRK_CTL_LIT_MARGIN : Fld := ⟨0x2008, 0, 24, 12, .rw, fun _ => 0x200⟩
def GAU_BRK_CTL_CLEAR : Fld := ⟨0x2008, 0, 16, 8, .rw, fun _ => 0x10⟩
def GAU_BRK_CTL_ENV_TC : Fld := ⟨0x2008, 0, 12, 4, .rw, fun _ => 8⟩
def GAU_BRK_CTL_LEARN : Fld := ⟨0x2008, 0, 0, 12, .rw, fun _ => 0x100⟩
/-- GAU_BRK_CTL (R142). -/
def GAU_BRK_CTL : Reg := ⟨0x2008, 0, 1, [GAU_BRK_CTL_DROP, GAU_BRK_CTL_LIT_MARGIN, GAU_BRK_CTL_CLEAR, GAU_BRK_CTL_ENV_TC, GAU_BRK_CTL_LEARN]⟩

def GAU_LINE_ADDR_LINE : Fld := ⟨0x2010, 0, 0, 7, .rw, fun _ => 0⟩
/-- GAU_LINE_ADDR (R143). -/
def GAU_LINE_ADDR : Reg := ⟨0x2010, 0, 1, [GAU_LINE_ADDR_LINE]⟩

/-- GAU_LINE_DATA (R143). -/
def GAU_LINE_DATA : Reg := ⟨0x2018, 0, 1, []⟩

def GAU_SPAN_FIRST : Fld := ⟨0x2100, 0x20, 24, 24, .rw, fun _ => 0⟩
def GAU_SPAN_CELLS : Fld := ⟨0x2100, 0x20, 0, 19, .rw, fun _ => 0⟩
/-- GAU_SPAN (R144). -/
def GAU_SPAN : Reg := ⟨0x2100, 0x20, 16, [GAU_SPAN_FIRST, GAU_SPAN_CELLS]⟩

def GAU_SHAPE_G : Fld := ⟨0x2108, 0x20, 40, 8, .rw, fun _ => 1⟩
def GAU_SHAPE_K : Fld := ⟨0x2108, 0x20, 32, 7, .rw, fun _ => 1⟩
def GAU_SHAPE_W : Fld := ⟨0x2108, 0x20, 24, 7, .rw, fun _ => 1⟩
def GAU_SHAPE_BASE : Fld := ⟨0x2108, 0x20, 0, 22, .rw, fun i => 0x40000 * i⟩
/-- GAU_SHAPE (R145). -/
def GAU_SHAPE : Reg := ⟨0x2108, 0x20, 16, [GAU_SHAPE_G, GAU_SHAPE_K, GAU_SHAPE_W, GAU_SHAPE_BASE]⟩

def GAU_REF_ORIGIN : Fld := ⟨0x2110, 0x20, 24, 16, .rw, fun _ => 0⟩
def GAU_REF_NOISE_LOG : Fld := ⟨0x2110, 0x20, 0, 16, .rw, fun _ => 0⟩
/-- GAU_REF (R146). -/
def GAU_REF : Reg := ⟨0x2110, 0x20, 16, [GAU_REF_ORIGIN, GAU_REF_NOISE_LOG]⟩

def GAU_STAT_GEOM_ERR : Fld := ⟨0x2118, 0x20, 20, 4, .ro, fun _ => 0⟩
/-- GAU_STAT (R147). -/
def GAU_STAT : Reg := ⟨0x2118, 0x20, 16, [GAU_STAT_GEOM_ERR]⟩

def GAU_CNT_DARK_CELLS : Fld := ⟨0x2300, 0x8, 24, 24, .rc, fun _ => 0⟩
def GAU_CNT_BREAKS : Fld := ⟨0x2300, 0x8, 16, 8, .rc, fun _ => 0⟩
def GAU_CNT_LOSSES : Fld := ⟨0x2300, 0x8, 8, 8, .rc, fun _ => 0⟩
def GAU_CNT_SCATTER : Fld := ⟨0x2300, 0x8, 0, 8, .rc, fun _ => 0⟩
/-- GAU_CNT (R148). -/
def GAU_CNT : Reg := ⟨0x2300, 0x8, 16, [GAU_CNT_DARK_CELLS, GAU_CNT_BREAKS, GAU_CNT_LOSSES, GAU_CNT_SCATTER]⟩

def HDL_CTL_ENV_SHIFT : Fld := ⟨0x2400, 0, 16, 4, .rw, fun _ => 4⟩
def HDL_CTL_D : Fld := ⟨0x2400, 0, 0, 11, .rw, fun _ => 4⟩
/-- HDL_CTL (R171). -/
def HDL_CTL : Reg := ⟨0x2400, 0, 1, [HDL_CTL_ENV_SHIFT, HDL_CTL_D]⟩

def HDL_STAT_START_REFUSED : Fld := ⟨0x2408, 0, 1, 1, .w1c, fun _ => 0⟩
/-- HDL_STAT (R172). -/
def HDL_STAT : Reg := ⟨0x2408, 0, 1, [HDL_STAT_START_REFUSED]⟩

/-- HDL_GRID (R173). -/
def HDL_GRID : Reg := ⟨0x2410, 0, 1, []⟩

def HDL_PORT_CFG_FAST_THR : Fld := ⟨0x2500, 0x8, 32, 16, .rw, fun _ => 0x2000⟩
def HDL_PORT_CFG_FAST_PRI : Fld := ⟨0x2500, 0x8, 28, 4, .rw, fun _ => 8⟩
def HDL_PORT_CFG_RANK : Fld := ⟨0x2500, 0x8, 26, 2, .rw, fun _ => 1⟩
def HDL_PORT_CFG_Q_HOLD : Fld := ⟨0x2500, 0x8, 20, 6, .rw, fun _ => 8⟩
def HDL_PORT_CFG_NOTE_CAP : Fld := ⟨0x2500, 0x8, 1, 19, .rw, fun _ => 0⟩
def HDL_PORT_CFG_FAST_EN : Fld := ⟨0x2500, 0x8, 0, 1, .rw, fun _ => 0⟩
/-- HDL_PORT_CFG (R174). -/
def HDL_PORT_CFG : Reg := ⟨0x2500, 0x8, 16, [HDL_PORT_CFG_FAST_THR, HDL_PORT_CFG_FAST_PRI, HDL_PORT_CFG_RANK, HDL_PORT_CFG_Q_HOLD, HDL_PORT_CFG_NOTE_CAP, HDL_PORT_CFG_FAST_EN]⟩

def HDL_ALIGN_ALIGN : Fld := ⟨0x2580, 0x8, 0, 32, .rw, fun _ => 0⟩
/-- HDL_ALIGN (R175). -/
def HDL_ALIGN : Reg := ⟨0x2580, 0x8, 16, [HDL_ALIGN_ALIGN]⟩

def HDL_CNT_NOTE_DROP : Fld := ⟨0x2600, 0x8, 24, 24, .rc, fun _ => 0⟩
def HDL_CNT_OVERRUN : Fld := ⟨0x2600, 0x8, 8, 16, .rc, fun _ => 0⟩
def HDL_CNT_GAPS : Fld := ⟨0x2600, 0x8, 0, 8, .rc, fun _ => 0⟩
/-- HDL_CNT (R176). -/
def HDL_CNT : Reg := ⟨0x2600, 0x8, 16, [HDL_CNT_NOTE_DROP, HDL_CNT_OVERRUN, HDL_CNT_GAPS]⟩

def SPC_CTL_FIT_Q : Fld := ⟨0x2800, 0, 40, 8, .rw, fun _ => 0x40⟩
def SPC_CTL_DONE_Q : Fld := ⟨0x2800, 0, 32, 8, .rw, fun _ => 0x41⟩
def SPC_CTL_FIT_TMO : Fld := ⟨0x2800, 0, 16, 16, .rw, fun _ => 0x3e8⟩
def SPC_CTL_LO_SETTLE : Fld := ⟨0x2800, 0, 2, 14, .rw, fun _ => 0x64⟩
def SPC_CTL_FIT_EN : Fld := ⟨0x2800, 0, 1, 1, .rw, fun _ => 1⟩
/-- SPC_CTL (R197). -/
def SPC_CTL : Reg := ⟨0x2800, 0, 1, [SPC_CTL_FIT_Q, SPC_CTL_DONE_Q, SPC_CTL_FIT_TMO, SPC_CTL_LO_SETTLE, SPC_CTL_FIT_EN]⟩

/-- SPC_STAT (R197). -/
def SPC_STAT : Reg := ⟨0x2808, 0, 1, []⟩

def SPC_REC_BASE_REC_BASE : Fld := ⟨0x2810, 0, 12, 26, .rw, fun _ => 0⟩
/-- SPC_REC_BASE (R197). -/
def SPC_REC_BASE : Reg := ⟨0x2810, 0, 1, [SPC_REC_BASE_REC_BASE]⟩

def SPC_COEF_BASE_COEF_BASE : Fld := ⟨0x2818, 0, 0, 25, .rw, fun _ => 0x1600000⟩
/-- SPC_COEF_BASE (R197). -/
def SPC_COEF_BASE : Reg := ⟨0x2818, 0, 1, [SPC_COEF_BASE_COEF_BASE]⟩

def SPC_LO_ADDR_ENTRY : Fld := ⟨0x2820, 0, 1, 6, .rw, fun _ => 0⟩
def SPC_LO_ADDR_WORD : Fld := ⟨0x2820, 0, 0, 1, .rw, fun _ => 0⟩
/-- SPC_LO_ADDR (R197). -/
def SPC_LO_ADDR : Reg := ⟨0x2820, 0, 1, [SPC_LO_ADDR_ENTRY, SPC_LO_ADDR_WORD]⟩

/-- SPC_LO_DATA (R197). -/
def SPC_LO_DATA : Reg := ⟨0x2828, 0, 1, []⟩

def SPC_LINE_ADDR_LINE : Fld := ⟨0x2830, 0, 0, 7, .rw, fun _ => 0⟩
/-- SPC_LINE_ADDR (R197). -/
def SPC_LINE_ADDR : Reg := ⟨0x2830, 0, 1, [SPC_LINE_ADDR_LINE]⟩

/-- SPC_LINE_SPAN (R197). -/
def SPC_LINE_SPAN : Reg := ⟨0x2838, 0, 1, []⟩

/-- SPC_LINE_SHAPE (R197). -/
def SPC_LINE_SHAPE : Reg := ⟨0x2840, 0, 1, []⟩

/-- SPC_LINE_STRIPE (R197). -/
def SPC_LINE_STRIPE : Reg := ⟨0x2848, 0, 1, []⟩

def SPC_LO_STAT_ENTRY : Fld := ⟨0x2850, 0, 0, 6, .ro, fun _ => 0⟩
/-- SPC_LO_STAT (R197). -/
def SPC_LO_STAT : Reg := ⟨0x2850, 0, 1, [SPC_LO_STAT_ENTRY]⟩

def SPC_CNT_INVALID : Fld := ⟨0x2900, 0x8, 48, 8, .rc, fun _ => 0⟩
def SPC_CNT_STRIPES : Fld := ⟨0x2900, 0x8, 32, 16, .rc, fun _ => 0⟩
def SPC_CNT_LOST : Fld := ⟨0x2900, 0x8, 24, 8, .rc, fun _ => 0⟩
def SPC_CNT_BUSY : Fld := ⟨0x2900, 0x8, 16, 8, .rc, fun _ => 0⟩
def SPC_CNT_UNSETTLED : Fld := ⟨0x2900, 0x8, 8, 8, .rc, fun _ => 0⟩
def SPC_CNT_TIMEOUTS : Fld := ⟨0x2900, 0x8, 0, 8, .rc, fun _ => 0⟩
/-- SPC_CNT (R197). -/
def SPC_CNT : Reg := ⟨0x2900, 0x8, 16, [SPC_CNT_INVALID, SPC_CNT_STRIPES, SPC_CNT_LOST, SPC_CNT_BUSY, SPC_CNT_UNSETTLED, SPC_CNT_TIMEOUTS]⟩

def SHT_RUN_RUN : Fld := ⟨0x2c00, 0, 0, 32, .rw, fun _ => 0⟩
/-- SHT_RUN (R266). -/
def SHT_RUN : Reg := ⟨0x2c00, 0, 1, [SHT_RUN_RUN]⟩

def SHT_PEND_START_PENDING : Fld := ⟨0x2c08, 0, 0, 32, .ro, fun _ => 0⟩
/-- SHT_PEND (R266). -/
def SHT_PEND : Reg := ⟨0x2c08, 0, 1, [SHT_PEND_START_PENDING]⟩

def SHT_LOG_ADDR_LOG : Fld := ⟨0x2c10, 0, 4, 5, .rw, fun _ => 0⟩
def SHT_LOG_ADDR_ENTRY : Fld := ⟨0x2c10, 0, 0, 4, .rw, fun _ => 0⟩
/-- SHT_LOG_ADDR (R267). -/
def SHT_LOG_ADDR : Reg := ⟨0x2c10, 0, 1, [SHT_LOG_ADDR_LOG, SHT_LOG_ADDR_ENTRY]⟩

/-- SHT_LOG_DATA (R267). -/
def SHT_LOG_DATA : Reg := ⟨0x2c18, 0, 1, []⟩

def SHT_IMG_CTL_LOAD : Fld := ⟨0x2c20, 0, 41, 1, .wo, fun _ => 0⟩
def SHT_IMG_CTL_SRC : Fld := ⟨0x2c20, 0, 16, 25, .wo, fun _ => 0⟩
def SHT_IMG_CTL_ENGINE : Fld := ⟨0x2c20, 0, 0, 6, .wo, fun _ => 0⟩
/-- SHT_IMG_CTL (R268). -/
def SHT_IMG_CTL : Reg := ⟨0x2c20, 0, 1, [SHT_IMG_CTL_LOAD, SHT_IMG_CTL_SRC, SHT_IMG_CTL_ENGINE]⟩

def SHT_IMG_STAT_ERR_WORD : Fld := ⟨0x2c28, 0, 24, 24, .ro, fun _ => 0⟩
def SHT_IMG_STAT_ERR : Fld := ⟨0x2c28, 0, 20, 4, .ro, fun _ => 0⟩
def SHT_IMG_STAT_REFUSED : Fld := ⟨0x2c28, 0, 17, 1, .w1c, fun _ => 0⟩
def SHT_IMG_STAT_BUSY : Fld := ⟨0x2c28, 0, 16, 1, .ro, fun _ => 0⟩
def SHT_IMG_STAT_ENGINE : Fld := ⟨0x2c28, 0, 0, 6, .ro, fun _ => 0⟩
/-- SHT_IMG_STAT (R268). -/
def SHT_IMG_STAT : Reg := ⟨0x2c28, 0, 1, [SHT_IMG_STAT_ERR_WORD, SHT_IMG_STAT_ERR, SHT_IMG_STAT_REFUSED, SHT_IMG_STAT_BUSY, SHT_IMG_STAT_ENGINE]⟩

def SHT_SWAP_LOG : Fld := ⟨0x2c30, 0, 16, 5, .wo, fun _ => 0⟩
def SHT_SWAP_CANCEL : Fld := ⟨0x2c30, 0, 12, 1, .wo, fun _ => 0⟩
def SHT_SWAP_REQ : Fld := ⟨0x2c30, 0, 11, 1, .wo, fun _ => 0⟩
def SHT_SWAP_RETIRE : Fld := ⟨0x2c30, 0, 10, 1, .wo, fun _ => 0⟩
def SHT_SWAP_MODE : Fld := ⟨0x2c30, 0, 8, 2, .wo, fun _ => 0⟩
def SHT_SWAP_SPARE : Fld := ⟨0x2c30, 0, 0, 6, .wo, fun _ => 0⟩
/-- SHT_SWAP (R269). -/
def SHT_SWAP : Reg := ⟨0x2c30, 0, 1, [SHT_SWAP_LOG, SHT_SWAP_CANCEL, SHT_SWAP_REQ, SHT_SWAP_RETIRE, SHT_SWAP_MODE, SHT_SWAP_SPARE]⟩

def SHT_SWAP_STAT_SWAPS : Fld := ⟨0x2c38, 0, 32, 16, .rc, fun _ => 0⟩
def SHT_SWAP_STAT_LOG : Fld := ⟨0x2c38, 0, 16, 5, .ro, fun _ => 0⟩
def SHT_SWAP_STAT_REASON : Fld := ⟨0x2c38, 0, 12, 4, .ro, fun _ => 0⟩
def SHT_SWAP_STAT_WAITING : Fld := ⟨0x2c38, 0, 11, 1, .ro, fun _ => 0⟩
def SHT_SWAP_STAT_COPYING : Fld := ⟨0x2c38, 0, 10, 1, .ro, fun _ => 0⟩
def SHT_SWAP_STAT_DONE : Fld := ⟨0x2c38, 0, 9, 1, .w1c, fun _ => 0⟩
def SHT_SWAP_STAT_REFUSED : Fld := ⟨0x2c38, 0, 8, 1, .w1c, fun _ => 0⟩
def SHT_SWAP_STAT_CANCELLED : Fld := ⟨0x2c38, 0, 7, 1, .w1c, fun _ => 0⟩
def SHT_SWAP_STAT_OUTGOING : Fld := ⟨0x2c38, 0, 0, 6, .ro, fun _ => 0⟩
/-- SHT_SWAP_STAT (R269). -/
def SHT_SWAP_STAT : Reg := ⟨0x2c38, 0, 1, [SHT_SWAP_STAT_SWAPS, SHT_SWAP_STAT_LOG, SHT_SWAP_STAT_REASON, SHT_SWAP_STAT_WAITING, SHT_SWAP_STAT_COPYING, SHT_SWAP_STAT_DONE, SHT_SWAP_STAT_REFUSED, SHT_SWAP_STAT_CANCELLED, SHT_SWAP_STAT_OUTGOING]⟩

def SHT_CTL_AUTO_SPARE : Fld := ⟨0x2c40, 0, 0, 1, .rw, fun _ => 1⟩
/-- SHT_CTL (R266). -/
def SHT_CTL : Reg := ⟨0x2c40, 0, 1, [SHT_CTL_AUTO_SPARE]⟩

def SHT_LCNT_OVERRUNS : Fld := ⟨0x2c80, 0x8, 32, 16, .rc, fun _ => 0⟩
def SHT_LCNT_SKIPPED : Fld := ⟨0x2c80, 0x8, 16, 16, .rc, fun _ => 0⟩
def SHT_LCNT_FAULTS : Fld := ⟨0x2c80, 0x8, 8, 8, .rc, fun _ => 0⟩
/-- SHT_LCNT (R270). -/
def SHT_LCNT : Reg := ⟨0x2c80, 0x8, 32, [SHT_LCNT_OVERRUNS, SHT_LCNT_SKIPPED, SHT_LCNT_FAULTS]⟩

def SHT_ENG_STAT_IMAGE_ID : Fld := ⟨0x2d80, 0x10, 32, 16, .ro, fun _ => 0⟩
def SHT_ENG_STAT_SERVES : Fld := ⟨0x2d80, 0x10, 31, 1, .ro, fun i => if i < 32 then 1 else 0⟩
def SHT_ENG_STAT_LOG : Fld := ⟨0x2d80, 0x10, 26, 5, .ro, fun i => if i < 32 then i else 0⟩
def SHT_ENG_STAT_FAULT : Fld := ⟨0x2d80, 0x10, 20, 4, .ro, fun _ => 0⟩
def SHT_ENG_STAT_ENG_STATE : Fld := ⟨0x2d80, 0x10, 0, 4, .ro, fun i => if i < 32 then 3 else 0⟩
/-- SHT_ENG_STAT (R271). -/
def SHT_ENG_STAT : Reg := ⟨0x2d80, 0x10, 34, [SHT_ENG_STAT_IMAGE_ID, SHT_ENG_STAT_SERVES, SHT_ENG_STAT_LOG, SHT_ENG_STAT_FAULT, SHT_ENG_STAT_ENG_STATE]⟩

/-- SHT_ENG_DBG (R271). -/
def SHT_ENG_DBG : Reg := ⟨0x2d88, 0x10, 34, []⟩

def WRP_CTL_SCRUB_GAP : Fld := ⟨0x3000, 0, 20, 16, .rw, fun _ => 0x100⟩
def WRP_CTL_AUTO_REPAIR : Fld := ⟨0x3000, 0, 2, 1, .rw, fun _ => 1⟩
def WRP_CTL_SCRUB_EN : Fld := ⟨0x3000, 0, 1, 1, .rw, fun _ => 1⟩
/-- WRP_CTL (R325). -/
def WRP_CTL : Reg := ⟨0x3000, 0, 1, [WRP_CTL_SCRUB_GAP, WRP_CTL_AUTO_REPAIR, WRP_CTL_SCRUB_EN]⟩

def WRP_STAT_PASSES : Fld := ⟨0x3008, 0, 24, 24, .ro, fun _ => 0⟩
def WRP_STAT_SELFTEST_OK : Fld := ⟨0x3008, 0, 7, 1, .ro, fun _ => 0⟩
def WRP_STAT_FILL_DONE : Fld := ⟨0x3008, 0, 6, 1, .w1c, fun _ => 0⟩
def WRP_STAT_FILL_REFUSED : Fld := ⟨0x3008, 0, 5, 1, .w1c, fun _ => 0⟩
def WRP_STAT_FILL_BUSY : Fld := ⟨0x3008, 0, 4, 1, .ro, fun _ => 0⟩
def WRP_STAT_REPAIR_BUSY : Fld := ⟨0x3008, 0, 3, 1, .ro, fun _ => 0⟩
/-- WRP_STAT (R325). -/
def WRP_STAT : Reg := ⟨0x3008, 0, 1, [WRP_STAT_PASSES, WRP_STAT_SELFTEST_OK, WRP_STAT_FILL_DONE, WRP_STAT_FILL_REFUSED, WRP_STAT_FILL_BUSY, WRP_STAT_REPAIR_BUSY]⟩

def WRP_CNT_CORR : Fld := ⟨0x3010, 0, 24, 24, .rc, fun _ => 0⟩
def WRP_CNT_BARE_READS : Fld := ⟨0x3010, 0, 0, 24, .rc, fun _ => 0⟩
/-- WRP_CNT (R326). -/
def WRP_CNT : Reg := ⟨0x3010, 0, 1, [WRP_CNT_CORR, WRP_CNT_BARE_READS]⟩

def WRP_CNT2_UE : Fld := ⟨0x3018, 0, 32, 16, .rc, fun _ => 0⟩
def WRP_CNT2_BARE_FIX : Fld := ⟨0x3018, 0, 16, 16, .rc, fun _ => 0⟩
def WRP_CNT2_WEAK : Fld := ⟨0x3018, 0, 8, 8, .rc, fun _ => 0⟩
def WRP_CNT2_REPAIRS : Fld := ⟨0x3018, 0, 0, 8, .rc, fun _ => 0⟩
/-- WRP_CNT2 (R326). -/
def WRP_CNT2 : Reg := ⟨0x3018, 0, 1, [WRP_CNT2_UE, WRP_CNT2_BARE_FIX, WRP_CNT2_WEAK, WRP_CNT2_REPAIRS]⟩

def WRP_ERR_ADDR_REQ : Fld := ⟨0x3020, 0, 25, 3, .ro, fun _ => 0⟩
def WRP_ERR_ADDR_WORD : Fld := ⟨0x3020, 0, 0, 25, .ro, fun _ => 0⟩
/-- WRP_ERR_ADDR (R326). -/
def WRP_ERR_ADDR : Reg := ⟨0x3020, 0, 1, [WRP_ERR_ADDR_REQ, WRP_ERR_ADDR_WORD]⟩

def WRP_FILL_BASE_LAST_Q : Fld := ⟨0x3028, 0, 23, 23, .rw, fun _ => 0⟩
def WRP_FILL_BASE_FIRST_Q : Fld := ⟨0x3028, 0, 0, 23, .rw, fun _ => 0⟩
/-- WRP_FILL_BASE (R327). -/
def WRP_FILL_BASE : Reg := ⟨0x3028, 0, 1, [WRP_FILL_BASE_LAST_Q, WRP_FILL_BASE_FIRST_Q]⟩

def WRP_FILL_CTL_GO : Fld := ⟨0x3030, 0, 0, 1, .wo, fun _ => 0⟩
/-- WRP_FILL_CTL (R327). -/
def WRP_FILL_CTL : Reg := ⟨0x3030, 0, 1, [WRP_FILL_CTL_GO]⟩

def WRP_INJ_ADDR_ARM : Fld := ⟨0x3038, 0, 25, 1, .rw, fun _ => 0⟩
def WRP_INJ_ADDR_WORD : Fld := ⟨0x3038, 0, 0, 25, .rw, fun _ => 0⟩
/-- WRP_INJ_ADDR (R327). -/
def WRP_INJ_ADDR : Reg := ⟨0x3038, 0, 1, [WRP_INJ_ADDR_ARM, WRP_INJ_ADDR_WORD]⟩

def WRP_INJ_MASK_FLIP : Fld := ⟨0x3040, 0, 0, 56, .rw, fun _ => 0⟩
/-- WRP_INJ_MASK (R327). -/
def WRP_INJ_MASK : Reg := ⟨0x3040, 0, 1, [WRP_INJ_MASK_FLIP]⟩

def WRP_BANK_ADDR_BANK : Fld := ⟨0x3048, 0, 0, 7, .rw, fun _ => 0⟩
/-- WRP_BANK_ADDR (R328). -/
def WRP_BANK_ADDR : Reg := ⟨0x3048, 0, 1, [WRP_BANK_ADDR_BANK]⟩

/-- WRP_BANK_DATA (R328). -/
def WRP_BANK_DATA : Reg := ⟨0x3050, 0, 1, []⟩

/-- WFQ_POOL_STAT (R329). -/
def WFQ_POOL_STAT : Reg := ⟨0x3200, 0, 1, []⟩

def WFQ_POOL_CTL_LOW : Fld := ⟨0x3208, 0, 13, 22, .rw, fun _ => 0x10000⟩
def WFQ_POOL_CTL_RES_SUM : Fld := ⟨0x3208, 0, 0, 13, .ro, fun _ => 0x100⟩
/-- WFQ_POOL_CTL (R329). -/
def WFQ_POOL_CTL : Reg := ⟨0x3208, 0, 1, [WFQ_POOL_CTL_LOW, WFQ_POOL_CTL_RES_SUM]⟩

def WFQ_HPUSH_PRI : Fld := ⟨0x3210, 0, 60, 4, .wo, fun _ => 0⟩
def WFQ_HPUSH_QUEUE : Fld := ⟨0x3210, 0, 52, 8, .wo, fun _ => 0⟩
def WFQ_HPUSH_ITEM : Fld := ⟨0x3210, 0, 0, 48, .wo, fun _ => 0⟩
/-- WFQ_HPUSH (R329). -/
def WFQ_HPUSH : Reg := ⟨0x3210, 0, 1, [WFQ_HPUSH_PRI, WFQ_HPUSH_QUEUE, WFQ_HPUSH_ITEM]⟩

def WFQ_HPOP_SEL_QUEUE : Fld := ⟨0x3218, 0, 0, 8, .rw, fun _ => 0⟩
/-- WFQ_HPOP_SEL (R329). -/
def WFQ_HPOP_SEL : Reg := ⟨0x3218, 0, 1, [WFQ_HPOP_SEL_QUEUE]⟩

/-- WFQ_HPOP (R329). -/
def WFQ_HPOP : Reg := ⟨0x3220, 0, 1, []⟩

def WFQ_FLUSH_GO : Fld := ⟨0x3228, 0, 8, 1, .wo, fun _ => 0⟩
def WFQ_FLUSH_QUEUE : Fld := ⟨0x3228, 0, 0, 8, .wo, fun _ => 0⟩
/-- WFQ_FLUSH (R329). -/
def WFQ_FLUSH : Reg := ⟨0x3228, 0, 1, [WFQ_FLUSH_GO, WFQ_FLUSH_QUEUE]⟩

def WFQ_CFG_CAP : Fld := ⟨0x3400, 0x10, 42, 22, .rw, fun _ => 0⟩
def WFQ_CFG_LEVEL : Fld := ⟨0x3400, 0x10, 20, 22, .rw, fun _ => 0⟩
def WFQ_CFG_RES : Fld := ⟨0x3400, 0x10, 8, 12, .rw, fun i => if i < 64 then 4 else 0⟩
def WFQ_CFG_STALE : Fld := ⟨0x3400, 0x10, 0, 5, .rw, fun _ => 0⟩
/-- WFQ_CFG (R330). -/
def WFQ_CFG : Reg := ⟨0x3400, 0x10, 256, [WFQ_CFG_CAP, WFQ_CFG_LEVEL, WFQ_CFG_RES, WFQ_CFG_STALE]⟩

def WFQ_STAT_LOST : Fld := ⟨0x3408, 0x10, 18, 8, .rc, fun _ => 0⟩
def WFQ_STAT_CORR : Fld := ⟨0x3408, 0x10, 10, 8, .rc, fun _ => 0⟩
def WFQ_STAT_UE : Fld := ⟨0x3408, 0x10, 4, 6, .rc, fun _ => 0⟩
def WFQ_STAT_STALE : Fld := ⟨0x3408, 0x10, 3, 1, .w1c, fun _ => 0⟩
def WFQ_STAT_LVL : Fld := ⟨0x3408, 0x10, 2, 1, .w1c, fun _ => 0⟩
/-- WFQ_STAT (R330). -/
def WFQ_STAT : Reg := ⟨0x3408, 0x10, 256, [WFQ_STAT_LOST, WFQ_STAT_CORR, WFQ_STAT_UE, WFQ_STAT_STALE, WFQ_STAT_LVL]⟩

def DRM_CTL_SCRUB_H : Fld := ⟨0x4400, 0, 16, 8, .rw, fun _ => 0x18⟩
def DRM_CTL_PAGE_THR : Fld := ⟨0x4400, 0, 12, 4, .rw, fun _ => 3⟩
def DRM_CTL_SPEED : Fld := ⟨0x4400, 0, 10, 2, .rws, fun _ => 0⟩
def DRM_CTL_AUTO_RANK : Fld := ⟨0x4400, 0, 3, 1, .rw, fun _ => 1⟩
def DRM_CTL_AUTO_RETIRE : Fld := ⟨0x4400, 0, 2, 1, .rw, fun _ => 1⟩
def DRM_CTL_SCRUB_EN : Fld := ⟨0x4400, 0, 1, 1, .rw, fun _ => 1⟩
/-- DRM_CTL (R412). -/
def DRM_CTL : Reg := ⟨0x4400, 0, 1, [DRM_CTL_SCRUB_H, DRM_CTL_PAGE_THR, DRM_CTL_SPEED, DRM_CTL_AUTO_RANK, DRM_CTL_AUTO_RETIRE, DRM_CTL_SCRUB_EN]⟩

def DRM_STAT_SPARE_OK : Fld := ⟨0x4408, 0, 39, 1, .ro, fun _ => 0⟩
def DRM_STAT_SPARE_CH : Fld := ⟨0x4408, 0, 38, 1, .ro, fun _ => 0⟩
def DRM_STAT_SPARE_RANK : Fld := ⟨0x4408, 0, 36, 2, .ro, fun _ => 0⟩
def DRM_STAT_CH_B : Fld := ⟨0x4408, 0, 31, 3, .ro, fun _ => 0⟩
def DRM_STAT_CH_A : Fld := ⟨0x4408, 0, 28, 3, .ro, fun _ => 0⟩
def DRM_STAT_RANK_OUT : Fld := ⟨0x4408, 0, 20, 8, .ro, fun _ => 0⟩
def DRM_STAT_HELD : Fld := ⟨0x4408, 0, 19, 1, .ro, fun _ => 0⟩
def DRM_STAT_MIGRATING : Fld := ⟨0x4408, 0, 18, 1, .ro, fun _ => 0⟩
def DRM_STAT_FILL_BUSY : Fld := ⟨0x4408, 0, 17, 1, .ro, fun _ => 0⟩
def DRM_STAT_MOVE_BUSY : Fld := ⟨0x4408, 0, 16, 1, .ro, fun _ => 0⟩
/-- DRM_STAT (R412). -/
def DRM_STAT : Reg := ⟨0x4408, 0, 1, [DRM_STAT_SPARE_OK, DRM_STAT_SPARE_CH, DRM_STAT_SPARE_RANK, DRM_STAT_CH_B, DRM_STAT_CH_A, DRM_STAT_RANK_OUT, DRM_STAT_HELD, DRM_STAT_MIGRATING, DRM_STAT_FILL_BUSY, DRM_STAT_MOVE_BUSY]⟩

def DRM_CAP_FRAMES : Fld := ⟨0x4420, 0, 0, 19, .ro, fun _ => 0⟩
/-- DRM_CAP (R413). -/
def DRM_CAP : Reg := ⟨0x4420, 0, 1, [DRM_CAP_FRAMES]⟩

def DRM_CNT_CORR : Fld := ⟨0x4428, 0, 24, 24, .rc, fun _ => 0⟩
def DRM_CNT_UE : Fld := ⟨0x4428, 0, 16, 8, .rc, fun _ => 0⟩
def DRM_CNT_TRANSIENT : Fld := ⟨0x4428, 0, 8, 8, .rc, fun _ => 0⟩
def DRM_CNT_PAR_RETRY : Fld := ⟨0x4428, 0, 0, 8, .rc, fun _ => 0⟩
/-- DRM_CNT (R413). -/
def DRM_CNT : Reg := ⟨0x4428, 0, 1, [DRM_CNT_CORR, DRM_CNT_UE, DRM_CNT_TRANSIENT, DRM_CNT_PAR_RETRY]⟩

def DRM_CNT2_BARE_READS : Fld := ⟨0x4430, 0, 24, 24, .rc, fun _ => 0⟩
def DRM_CNT2_UNFILLED_READS : Fld := ⟨0x4430, 0, 12, 12, .rc, fun _ => 0⟩
def DRM_CNT2_POISON_READS : Fld := ⟨0x4430, 0, 0, 12, .rc, fun _ => 0⟩
/-- DRM_CNT2 (R413). -/
def DRM_CNT2 : Reg := ⟨0x4430, 0, 1, [DRM_CNT2_BARE_READS, DRM_CNT2_UNFILLED_READS, DRM_CNT2_POISON_READS]⟩

def DRM_ERR_ADDR_KIND : Fld := ⟨0x4438, 0, 46, 2, .ro, fun _ => 0⟩
def DRM_ERR_ADDR_CH : Fld := ⟨0x4438, 0, 45, 1, .ro, fun _ => 0⟩
def DRM_ERR_ADDR_RANK : Fld := ⟨0x4438, 0, 43, 2, .ro, fun _ => 0⟩
def DRM_ERR_ADDR_ADDR : Fld := ⟨0x4438, 0, 0, 38, .ro, fun _ => 0⟩
/-- DRM_ERR_ADDR (R413). -/
def DRM_ERR_ADDR : Reg := ⟨0x4438, 0, 1, [DRM_ERR_ADDR_KIND, DRM_ERR_ADDR_CH, DRM_ERR_ADDR_RANK, DRM_ERR_ADDR_ADDR]⟩

def DRM_REF_BUF_PEAK : Fld := ⟨0x4440, 0, 40, 8, .rc, fun _ => 0⟩
def DRM_REF_FORCED : Fld := ⟨0x4440, 0, 24, 16, .rc, fun _ => 0⟩
def DRM_REF_POSTPONES : Fld := ⟨0x4440, 0, 8, 16, .rc, fun _ => 0⟩
def DRM_REF_HOT : Fld := ⟨0x4440, 0, 0, 1, .ro, fun _ => 0⟩
/-- DRM_REF (R414). -/
def DRM_REF : Reg := ⟨0x4440, 0, 1, [DRM_REF_BUF_PEAK, DRM_REF_FORCED, DRM_REF_POSTPONES, DRM_REF_HOT]⟩

def DRM_ACT_RANK : Fld := ⟨0x4458, 0, 6, 2, .wo, fun _ => 0⟩
def DRM_ACT_ACTION : Fld := ⟨0x4458, 0, 2, 2, .wo, fun _ => 0⟩
def DRM_ACT_CH : Fld := ⟨0x4458, 0, 0, 1, .wo, fun _ => 0⟩
/-- DRM_ACT (R415). -/
def DRM_ACT : Reg := ⟨0x4458, 0, 1, [DRM_ACT_RANK, DRM_ACT_ACTION, DRM_ACT_CH]⟩

def DRM_MIG_STAT_OP : Fld := ⟨0x4460, 0, 46, 2, .ro, fun _ => 0⟩
def DRM_MIG_STAT_CH : Fld := ⟨0x4460, 0, 45, 1, .ro, fun _ => 0⟩
def DRM_MIG_STAT_RANK : Fld := ⟨0x4460, 0, 43, 2, .ro, fun _ => 0⟩
def DRM_MIG_STAT_REASON : Fld := ⟨0x4460, 0, 39, 4, .ro, fun _ => 0⟩
def DRM_MIG_STAT_REFUSED : Fld := ⟨0x4460, 0, 38, 1, .w1c, fun _ => 0⟩
def DRM_MIG_STAT_DONE : Fld := ⟨0x4460, 0, 19, 19, .ro, fun _ => 0⟩
def DRM_MIG_STAT_TOTAL : Fld := ⟨0x4460, 0, 0, 19, .ro, fun _ => 0⟩
/-- DRM_MIG_STAT (R415). -/
def DRM_MIG_STAT : Reg := ⟨0x4460, 0, 1, [DRM_MIG_STAT_OP, DRM_MIG_STAT_CH, DRM_MIG_STAT_RANK, DRM_MIG_STAT_REASON, DRM_MIG_STAT_REFUSED, DRM_MIG_STAT_DONE, DRM_MIG_STAT_TOTAL]⟩

def DRM_MOVE_Q1 : Fld := ⟨0x4468, 0, 40, 8, .rw, fun _ => 0x43⟩
def DRM_MOVE_Q0 : Fld := ⟨0x4468, 0, 32, 8, .rw, fun _ => 0x42⟩
def DRM_MOVE_REQUESTS : Fld := ⟨0x4468, 0, 16, 16, .rc, fun _ => 0⟩
def DRM_MOVE_REFUSED : Fld := ⟨0x4468, 0, 0, 16, .rc, fun _ => 0⟩
/-- DRM_MOVE (R415). -/
def DRM_MOVE : Reg := ⟨0x4468, 0, 1, [DRM_MOVE_Q1, DRM_MOVE_Q0, DRM_MOVE_REQUESTS, DRM_MOVE_REFUSED]⟩

def DRM_RETIRE_FULL : Fld := ⟨0x4470, 0, 13, 1, .ro, fun _ => 0⟩
def DRM_RETIRE_USED : Fld := ⟨0x4470, 0, 0, 13, .ro, fun _ => 0⟩
/-- DRM_RETIRE (R414). -/
def DRM_RETIRE : Reg := ⟨0x4470, 0, 1, [DRM_RETIRE_FULL, DRM_RETIRE_USED]⟩

def DRM_ORG_RANK_GIB : Fld := ⟨0x4410, 0x8, 40, 8, .ro, fun _ => 0⟩
def DRM_ORG_RANKS : Fld := ⟨0x4410, 0x8, 37, 3, .ro, fun _ => 0⟩
def DRM_ORG_DENSITY : Fld := ⟨0x4410, 0x8, 32, 5, .ro, fun _ => 0⟩
def DRM_ORG_TRFC : Fld := ⟨0x4410, 0x8, 16, 16, .ro, fun _ => 0⟩
/-- DRM_ORG (R412). -/
def DRM_ORG : Reg := ⟨0x4410, 0x8, 2, [DRM_ORG_RANK_GIB, DRM_ORG_RANKS, DRM_ORG_DENSITY, DRM_ORG_TRFC]⟩

def DRM_TRAIN_EYE_R : Fld := ⟨0x4448, 0x8, 40, 8, .ro, fun _ => 0⟩
def DRM_TRAIN_EYE_W : Fld := ⟨0x4448, 0x8, 32, 8, .ro, fun _ => 0⟩
def DRM_TRAIN_DRIFT : Fld := ⟨0x4448, 0x8, 16, 16, .ro, fun _ => 0⟩
def DRM_TRAIN_ADJUSTS : Fld := ⟨0x4448, 0x8, 8, 8, .rc, fun _ => 0⟩
def DRM_TRAIN_TRAIN_ERR : Fld := ⟨0x4448, 0x8, 0, 1, .w1c, fun _ => 0⟩
/-- DRM_TRAIN (R414). -/
def DRM_TRAIN : Reg := ⟨0x4448, 0x8, 2, [DRM_TRAIN_EYE_R, DRM_TRAIN_EYE_W, DRM_TRAIN_DRIFT, DRM_TRAIN_ADJUSTS, DRM_TRAIN_TRAIN_ERR]⟩

def DRM_REGION_LIMIT : Fld := ⟨0x4500, 0x10, 19, 19, .rws, fun _ => 0⟩
def DRM_REGION_BASE : Fld := ⟨0x4500, 0x10, 0, 19, .rws, fun _ => 0⟩
/-- DRM_REGION (R416). -/
def DRM_REGION : Reg := ⟨0x4500, 0x10, 8, [DRM_REGION_LIMIT, DRM_REGION_BASE]⟩

def DRM_REGION_CTL_STATE : Fld := ⟨0x4508, 0x10, 6, 2, .ro, fun _ => 0⟩
def DRM_REGION_CTL_FILL_GO : Fld := ⟨0x4508, 0x10, 3, 1, .wo, fun _ => 0⟩
def DRM_REGION_CTL_KEEP : Fld := ⟨0x4508, 0x10, 2, 1, .rws, fun _ => 0⟩
def DRM_REGION_CTL_FILL : Fld := ⟨0x4508, 0x10, 1, 1, .rws, fun _ => 1⟩
def DRM_REGION_CTL_EN : Fld := ⟨0x4508, 0x10, 0, 1, .rws, fun _ => 0⟩
/-- DRM_REGION_CTL (R416). -/
def DRM_REGION_CTL : Reg := ⟨0x4508, 0x10, 8, [DRM_REGION_CTL_STATE, DRM_REGION_CTL_FILL_GO, DRM_REGION_CTL_KEEP, DRM_REGION_CTL_FILL, DRM_REGION_CTL_EN]⟩

def DRM_RPL_PORT : Fld := ⟨0x4580, 0x10, 44, 4, .rws, fun _ => 0⟩
def DRM_RPL_EN : Fld := ⟨0x4580, 0x10, 43, 1, .rws, fun _ => 0⟩
def DRM_RPL_CELLS : Fld := ⟨0x4580, 0x10, 18, 19, .rws, fun _ => 0⟩
def DRM_RPL_FIRST : Fld := ⟨0x4580, 0x10, 0, 18, .rws, fun _ => 0⟩
/-- DRM_RPL (R416). -/
def DRM_RPL : Reg := ⟨0x4580, 0x10, 4, [DRM_RPL_PORT, DRM_RPL_EN, DRM_RPL_CELLS, DRM_RPL_FIRST]⟩

def DRM_RPL_RING_DEPTH : Fld := ⟨0x4588, 0x10, 26, 21, .rws, fun _ => 0⟩
def DRM_RPL_RING_BASE : Fld := ⟨0x4588, 0x10, 0, 26, .rws, fun _ => 0⟩
/-- DRM_RPL_RING (R416). -/
def DRM_RPL_RING : Reg := ⟨0x4588, 0x10, 4, [DRM_RPL_RING_DEPTH, DRM_RPL_RING_BASE]⟩

def DRM_RPL_STAT_GAPS : Fld := ⟨0x45c0, 0x8, 24, 24, .rc, fun _ => 0⟩
def DRM_RPL_STAT_SLOT_BYTES : Fld := ⟨0x45c0, 0x8, 0, 24, .ro, fun _ => 0⟩
/-- DRM_RPL_STAT (R416). -/
def DRM_RPL_STAT : Reg := ⟨0x45c0, 0x8, 4, [DRM_RPL_STAT_GAPS, DRM_RPL_STAT_SLOT_BYTES]⟩

def SRC_CTL_MISS_M1 : Fld := ⟨0x4800, 0, 32, 4, .rw, fun _ => 2⟩
def SRC_CTL_BUS_DIV : Fld := ⟨0x4800, 0, 24, 8, .rw, fun _ => 5⟩
def SRC_CTL_MON_WIN : Fld := ⟨0x4800, 0, 12, 10, .rw, fun _ => 0x64⟩
def SRC_CTL_PROOF_EN : Fld := ⟨0x4800, 0, 1, 1, .rw, fun _ => 1⟩
def SRC_CTL_PERMIT : Fld := ⟨0x4800, 0, 0, 1, .rw, fun _ => 0⟩
/-- SRC_CTL (R445). -/
def SRC_CTL : Reg := ⟨0x4800, 0, 1, [SRC_CTL_MISS_M1, SRC_CTL_BUS_DIV, SRC_CTL_MON_WIN, SRC_CTL_PROOF_EN, SRC_CTL_PERMIT]⟩

def SRC_STAT_INTLK_SEEN : Fld := ⟨0x4808, 0, 5, 1, .w1c, fun _ => 0⟩
def SRC_STAT_HBEAT_RUN : Fld := ⟨0x4808, 0, 2, 1, .ro, fun _ => 0⟩
def SRC_STAT_SRCEN : Fld := ⟨0x4808, 0, 1, 1, .ro, fun _ => 0⟩
/-- SRC_STAT (R445). -/
def SRC_STAT : Reg := ⟨0x4808, 0, 1, [SRC_STAT_INTLK_SEEN, SRC_STAT_HBEAT_RUN, SRC_STAT_SRCEN]⟩

def SRC_CNT_NAKS : Fld := ⟨0x4810, 0, 32, 16, .rc, fun _ => 0⟩
def SRC_CNT_LO_LATE : Fld := ⟨0x4810, 0, 16, 16, .rc, fun _ => 0⟩
def SRC_CNT_PROOFS : Fld := ⟨0x4810, 0, 0, 16, .rc, fun _ => 0⟩
/-- SRC_CNT (R445). -/
def SRC_CNT : Reg := ⟨0x4810, 0, 1, [SRC_CNT_NAKS, SRC_CNT_LO_LATE, SRC_CNT_PROOFS]⟩

def SRC_LINE_ADDR_LINE : Fld := ⟨0x4818, 0, 1, 7, .rw, fun _ => 0⟩
def SRC_LINE_ADDR_WORD : Fld := ⟨0x4818, 0, 0, 1, .rw, fun _ => 0⟩
/-- SRC_LINE_ADDR (R446). -/
def SRC_LINE_ADDR : Reg := ⟨0x4818, 0, 1, [SRC_LINE_ADDR_LINE, SRC_LINE_ADDR_WORD]⟩

/-- SRC_LINE_DATA (R446). -/
def SRC_LINE_DATA : Reg := ⟨0x4820, 0, 1, []⟩

def SRC_LAUNCH_BLANK : Fld := ⟨0x4900, 0x8, 38, 10, .rw, fun _ => 0xc8⟩
def SRC_LAUNCH_EXTEND : Fld := ⟨0x4900, 0x8, 24, 8, .rw, fun _ => 0⟩
def SRC_LAUNCH_MON_EN : Fld := ⟨0x4900, 0x8, 16, 1, .rw, fun _ => 1⟩
def SRC_LAUNCH_OFFSET : Fld := ⟨0x4900, 0x8, 0, 16, .rw, fun _ => 0⟩
/-- SRC_LAUNCH (R446). -/
def SRC_LAUNCH : Reg := ⟨0x4900, 0x8, 16, [SRC_LAUNCH_BLANK, SRC_LAUNCH_EXTEND, SRC_LAUNCH_MON_EN, SRC_LAUNCH_OFFSET]⟩

def SRC_MON_MISSED : Fld := ⟨0x4980, 0x8, 24, 24, .rc, fun _ => 0⟩
def SRC_MON_SPURIOUS : Fld := ⟨0x4980, 0x8, 16, 8, .rc, fun _ => 0⟩
def SRC_MON_RUN : Fld := ⟨0x4980, 0x8, 0, 5, .ro, fun _ => 0⟩
/-- SRC_MON (R446). -/
def SRC_MON : Reg := ⟨0x4980, 0x8, 16, [SRC_MON_MISSED, SRC_MON_SPURIOUS, SRC_MON_RUN]⟩

def SRC_CUR_FADE : Fld := ⟨0x4a00, 0x10, 25, 23, .rw, fun _ => 0x64⟩
def SRC_CUR_SHAPE : Fld := ⟨0x4a00, 0x10, 24, 1, .rw, fun _ => 0⟩
def SRC_CUR_SET : Fld := ⟨0x4a00, 0x10, 0, 16, .rw, fun _ => 0⟩
/-- SRC_CUR (R447). -/
def SRC_CUR : Reg := ⟨0x4a00, 0x10, 8, [SRC_CUR_FADE, SRC_CUR_SHAPE, SRC_CUR_SET]⟩

def SRC_CUR_MODE_PROOF_I : Fld := ⟨0x4a08, 0x10, 32, 16, .rw, fun _ => 0⟩
def SRC_CUR_MODE_PRE : Fld := ⟨0x4a08, 0x10, 24, 8, .rw, fun _ => 0⟩
def SRC_CUR_MODE_POST : Fld := ⟨0x4a08, 0x10, 16, 8, .rw, fun _ => 0⟩
def SRC_CUR_MODE_GATE_PORT : Fld := ⟨0x4a08, 0x10, 12, 4, .rw, fun _ => 0⟩
def SRC_CUR_MODE_PROOF_EVERY : Fld := ⟨0x4a08, 0x10, 8, 4, .rw, fun _ => 4⟩
def SRC_CUR_MODE_MODE : Fld := ⟨0x4a08, 0x10, 0, 2, .rw, fun _ => 0⟩
/-- SRC_CUR_MODE (R447). -/
def SRC_CUR_MODE : Reg := ⟨0x4a08, 0x10, 8, [SRC_CUR_MODE_PROOF_I, SRC_CUR_MODE_PRE, SRC_CUR_MODE_POST, SRC_CUR_MODE_GATE_PORT, SRC_CUR_MODE_PROOF_EVERY, SRC_CUR_MODE_MODE]⟩

def SRC_CUR_STAT_VCOMP : Fld := ⟨0x4a80, 0x8, 32, 16, .ro, fun _ => 0⟩
def SRC_CUR_STAT_PRESENT : Fld := ⟨0x4a80, 0x8, 16, 16, .ro, fun _ => 0⟩
def SRC_CUR_STAT_PROOF_OFF : Fld := ⟨0x4a80, 0x8, 5, 1, .ro, fun _ => 0⟩
def SRC_CUR_STAT_FADING : Fld := ⟨0x4a80, 0x8, 4, 1, .ro, fun _ => 0⟩
def SRC_CUR_STAT_SHORT : Fld := ⟨0x4a80, 0x8, 3, 1, .w1c, fun _ => 0⟩
def SRC_CUR_STAT_OPEN : Fld := ⟨0x4a80, 0x8, 2, 1, .w1c, fun _ => 0⟩
def SRC_CUR_STAT_STATE : Fld := ⟨0x4a80, 0x8, 0, 2, .ro, fun _ => 0⟩
/-- SRC_CUR_STAT (R447). -/
def SRC_CUR_STAT : Reg := ⟨0x4a80, 0x8, 8, [SRC_CUR_STAT_VCOMP, SRC_CUR_STAT_PRESENT, SRC_CUR_STAT_PROOF_OFF, SRC_CUR_STAT_FADING, SRC_CUR_STAT_SHORT, SRC_CUR_STAT_OPEN, SRC_CUR_STAT_STATE]⟩

def SRC_CS_ACK_CMD : Fld := ⟨0x4b00, 0x8, 40, 8, .rw, fun _ => 0⟩
def SRC_CS_ACK_MASK : Fld := ⟨0x4b00, 0x8, 32, 8, .rw, fun _ => 0⟩
def SRC_CS_ACK_VAL : Fld := ⟨0x4b00, 0x8, 24, 8, .rw, fun _ => 0⟩
def SRC_CS_RETRIES : Fld := ⟨0x4b00, 0x8, 4, 2, .rw, fun _ => 1⟩
def SRC_CS_ACK : Fld := ⟨0x4b00, 0x8, 2, 2, .rw, fun _ => 0⟩
def SRC_CS_SPI_MODE : Fld := ⟨0x4b00, 0x8, 0, 2, .rw, fun _ => 0⟩
/-- SRC_CS (R448). -/
def SRC_CS : Reg := ⟨0x4b00, 0x8, 16, [SRC_CS_ACK_CMD, SRC_CS_ACK_MASK, SRC_CS_ACK_VAL, SRC_CS_RETRIES, SRC_CS_ACK, SRC_CS_SPI_MODE]⟩

def TSU_STAT_SPARE_FOR : Fld := ⟨0x4c00, 0, 32, 5, .ro, fun _ => 0x1f⟩
def TSU_STAT_LINE_OK : Fld := ⟨0x4c00, 0, 0, 29, .ro, fun _ => 0⟩
/-- TSU_STAT (R464). -/
def TSU_STAT : Reg := ⟨0x4c00, 0, 1, [TSU_STAT_SPARE_FOR, TSU_STAT_LINE_OK]⟩

def TSU_CNT_DELIVERED : Fld := ⟨0x4c08, 0, 24, 24, .rc, fun _ => 0⟩
def TSU_CNT_LOST : Fld := ⟨0x4c08, 0, 8, 16, .rc, fun _ => 0⟩
def TSU_CNT_PPS_REJECTS : Fld := ⟨0x4c08, 0, 0, 8, .rc, fun _ => 0⟩
/-- TSU_CNT (R464). -/
def TSU_CNT : Reg := ⟨0x4c08, 0, 1, [TSU_CNT_DELIVERED, TSU_CNT_LOST, TSU_CNT_PPS_REJECTS]⟩

def TSU_MAP_ADDR_LINE : Fld := ⟨0x4c10, 0, 9, 5, .rw, fun _ => 0⟩
def TSU_MAP_ADDR_TAP : Fld := ⟨0x4c10, 0, 0, 9, .rw, fun _ => 0⟩
/-- TSU_MAP_ADDR (R465). -/
def TSU_MAP_ADDR : Reg := ⟨0x4c10, 0, 1, [TSU_MAP_ADDR_LINE, TSU_MAP_ADDR_TAP]⟩

/-- TSU_MAP_DATA (R465). -/
def TSU_MAP_DATA : Reg := ⟨0x4c18, 0, 1, []⟩

def TSU_IN_DELAY : Fld := ⟨0x4d00, 0x8, 32, 16, .rw, fun _ => 0⟩
def TSU_IN_DELIVER : Fld := ⟨0x4d00, 0x8, 3, 1, .rw, fun _ => 0⟩
def TSU_IN_EDGE : Fld := ⟨0x4d00, 0x8, 1, 2, .rw, fun _ => 0⟩
def TSU_IN_EN : Fld := ⟨0x4d00, 0x8, 0, 1, .rw, fun i => if i < 17 then 1 else 0⟩
/-- TSU_IN (R466). -/
def TSU_IN : Reg := ⟨0x4d00, 0x8, 24, [TSU_IN_DELAY, TSU_IN_DELIVER, TSU_IN_EDGE, TSU_IN_EN]⟩

def TSU_IN_CNT_STAMPS : Fld := ⟨0x4e00, 0x8, 24, 24, .rc, fun _ => 0⟩
def TSU_IN_CNT_DEAD : Fld := ⟨0x4e00, 0x8, 16, 8, .rc, fun _ => 0⟩
def TSU_IN_CNT_OVER : Fld := ⟨0x4e00, 0x8, 8, 8, .rc, fun _ => 0⟩
/-- TSU_IN_CNT (R466). -/
def TSU_IN_CNT : Reg := ⟨0x4e00, 0x8, 24, [TSU_IN_CNT_STAMPS, TSU_IN_CNT_DEAD, TSU_IN_CNT_OVER]⟩

def TSU_GATE_INPUTS : Fld := ⟨0x4f00, 0x10, 24, 24, .rw, fun _ => 0⟩
def TSU_GATE_MAX_LEN : Fld := ⟨0x4f00, 0x10, 8, 16, .rw, fun _ => 0⟩
def TSU_GATE_CLOSE_EV : Fld := ⟨0x4f00, 0x10, 3, 1, .rw, fun _ => 0⟩
def TSU_GATE_CONT : Fld := ⟨0x4f00, 0x10, 2, 1, .rw, fun _ => 0⟩
def TSU_GATE_ARM : Fld := ⟨0x4f00, 0x10, 1, 1, .rw, fun _ => 0⟩
/-- TSU_GATE (R467). -/
def TSU_GATE : Reg := ⟨0x4f00, 0x10, 4, [TSU_GATE_INPUTS, TSU_GATE_MAX_LEN, TSU_GATE_CLOSE_EV, TSU_GATE_CONT, TSU_GATE_ARM]⟩

def TSU_GATE_STAT_WINDOWS : Fld := ⟨0x4f08, 0x10, 24, 24, .rc, fun _ => 0⟩
def TSU_GATE_STAT_OVER_WIN : Fld := ⟨0x4f08, 0x10, 16, 8, .rc, fun _ => 0⟩
def TSU_GATE_STAT_TRUNC : Fld := ⟨0x4f08, 0x10, 2, 1, .w1c, fun _ => 0⟩
def TSU_GATE_STAT_OPEN : Fld := ⟨0x4f08, 0x10, 1, 1, .ro, fun _ => 0⟩
/-- TSU_GATE_STAT (R467). -/
def TSU_GATE_STAT : Reg := ⟨0x4f08, 0x10, 4, [TSU_GATE_STAT_WINDOWS, TSU_GATE_STAT_OVER_WIN, TSU_GATE_STAT_TRUNC, TSU_GATE_STAT_OPEN]⟩

def ANC_CTL_CHK_PERIOD : Fld := ⟨0x5000, 0, 36, 12, .rw, fun _ => 0x258⟩
def ANC_CTL_STALE : Fld := ⟨0x5000, 0, 24, 12, .rw, fun _ => 0⟩
def ANC_CTL_LEN_M1 : Fld := ⟨0x5000, 0, 2, 6, .rw, fun _ => 0⟩
def ANC_CTL_EN : Fld := ⟨0x5000, 0, 0, 1, .rw, fun _ => 0⟩
/-- ANC_CTL (R491). -/
def ANC_CTL : Reg := ⟨0x5000, 0, 1, [ANC_CTL_CHK_PERIOD, ANC_CTL_STALE, ANC_CTL_LEN_M1, ANC_CTL_EN]⟩

def ANC_STAT_BROKEN : Fld := ⟨0x5008, 0, 32, 16, .ro, fun _ => 0⟩
def ANC_STAT_ENTRY : Fld := ⟨0x5008, 0, 26, 6, .ro, fun _ => 0⟩
def ANC_STAT_CHECKING : Fld := ⟨0x5008, 0, 25, 1, .ro, fun _ => 0⟩
def ANC_STAT_TABLE : Fld := ⟨0x5008, 0, 23, 2, .ro, fun _ => 0⟩
def ANC_STAT_START_PENDING : Fld := ⟨0x5008, 0, 22, 1, .ro, fun _ => 0⟩
/-- ANC_STAT (R491). -/
def ANC_STAT : Reg := ⟨0x5008, 0, 1, [ANC_STAT_BROKEN, ANC_STAT_ENTRY, ANC_STAT_CHECKING, ANC_STAT_TABLE, ANC_STAT_START_PENDING]⟩

def ANC_CELL_BASE_CELL_BASE : Fld := ⟨0x5010, 0, 0, 25, .rw, fun _ => 0x17fff00⟩
/-- ANC_CELL_BASE (R491). -/
def ANC_CELL_BASE : Reg := ⟨0x5010, 0, 1, [ANC_CELL_BASE_CELL_BASE]⟩

def ANC_TBL_ADDR_ENTRY : Fld := ⟨0x5018, 0, 0, 6, .rw, fun _ => 0⟩
/-- ANC_TBL_ADDR (R492). -/
def ANC_TBL_ADDR : Reg := ⟨0x5018, 0, 1, [ANC_TBL_ADDR_ENTRY]⟩

/-- ANC_TBL_DATA (R492). -/
def ANC_TBL_DATA : Reg := ⟨0x5020, 0, 1, []⟩

def ANC_CNT_CONVERSIONS : Fld := ⟨0x5028, 0, 24, 24, .rc, fun _ => 0⟩
def ANC_CNT_PASSES : Fld := ⟨0x5028, 0, 8, 16, .rc, fun _ => 0⟩
def ANC_CNT_STALE_MARKS : Fld := ⟨0x5028, 0, 0, 8, .rc, fun _ => 0⟩
/-- ANC_CNT (R491). -/
def ANC_CNT : Reg := ⟨0x5028, 0, 1, [ANC_CNT_CONVERSIONS, ANC_CNT_PASSES, ANC_CNT_STALE_MARKS]⟩

def ANC_CH_CFG_AVG_M1 : Fld := ⟨0x5100, 0x20, 42, 6, .rw, fun _ => 0⟩
def ANC_CH_CFG_SETTLE : Fld := ⟨0x5100, 0x20, 36, 6, .rw, fun _ => 4⟩
def ANC_CH_CFG_NOTCH : Fld := ⟨0x5100, 0x20, 34, 2, .rw, fun _ => 1⟩
def ANC_CH_CFG_EXC : Fld := ⟨0x5100, 0x20, 32, 2, .rw, fun _ => 0⟩
def ANC_CH_CFG_ZMAX : Fld := ⟨0x5100, 0x20, 16, 16, .rw, fun _ => 0x2710⟩
def ANC_CH_CFG_ZMIN : Fld := ⟨0x5100, 0x20, 0, 16, .rw, fun _ => 0xa⟩
/-- ANC_CH_CFG (R493). -/
def ANC_CH_CFG : Reg := ⟨0x5100, 0x20, 16, [ANC_CH_CFG_AVG_M1, ANC_CH_CFG_SETTLE, ANC_CH_CFG_NOTCH, ANC_CH_CFG_EXC, ANC_CH_CFG_ZMAX, ANC_CH_CFG_ZMIN]⟩

def ANC_CH_EXC_PHASE : Fld := ⟨0x5108, 0x20, 40, 8, .rw, fun _ => 0⟩
def ANC_CH_EXC_FREQ : Fld := ⟨0x5108, 0x20, 26, 14, .rw, fun _ => 0x3e8⟩
def ANC_CH_EXC_RATIO : Fld := ⟨0x5108, 0x20, 25, 1, .rw, fun _ => 1⟩
def ANC_CH_EXC_CHK_EN : Fld := ⟨0x5108, 0x20, 24, 1, .rw, fun _ => 1⟩
def ANC_CH_EXC_LEVEL : Fld := ⟨0x5108, 0x20, 16, 8, .rw, fun _ => 0x7d⟩
def ANC_CH_EXC_IMIN : Fld := ⟨0x5108, 0x20, 8, 8, .rw, fun _ => 2⟩
def ANC_CH_EXC_IMAX : Fld := ⟨0x5108, 0x20, 0, 8, .rw, fun _ => 0x50⟩
/-- ANC_CH_EXC (R493). -/
def ANC_CH_EXC : Reg := ⟨0x5108, 0x20, 16, [ANC_CH_EXC_PHASE, ANC_CH_EXC_FREQ, ANC_CH_EXC_RATIO, ANC_CH_EXC_CHK_EN, ANC_CH_EXC_LEVEL, ANC_CH_EXC_IMIN, ANC_CH_EXC_IMAX]⟩

def ANC_CH_ENG_ZERO : Fld := ⟨0x5110, 0x20, 24, 24, .rw, fun _ => 0⟩
def ANC_CH_ENG_SCALE : Fld := ⟨0x5110, 0x20, 0, 24, .rw, fun _ => 0⟩
/-- ANC_CH_ENG (R494). -/
def ANC_CH_ENG : Reg := ⟨0x5110, 0x20, 16, [ANC_CH_ENG_ZERO, ANC_CH_ENG_SCALE]⟩

def ANC_CH_STAT_LAST_Z : Fld := ⟨0x5118, 0x20, 32, 16, .ro, fun _ => 0⟩
def ANC_CH_STAT_BREAKS : Fld := ⟨0x5118, 0x20, 24, 8, .rc, fun _ => 0⟩
def ANC_CH_STAT_CHK_FAILS : Fld := ⟨0x5118, 0x20, 16, 8, .rc, fun _ => 0⟩
def ANC_CH_STAT_OPEN : Fld := ⟨0x5118, 0x20, 4, 1, .w1c, fun _ => 0⟩
def ANC_CH_STAT_SHORT : Fld := ⟨0x5118, 0x20, 3, 1, .w1c, fun _ => 0⟩
def ANC_CH_STAT_STATE : Fld := ⟨0x5118, 0x20, 1, 2, .ro, fun _ => 0⟩
/-- ANC_CH_STAT (R494). -/
def ANC_CH_STAT : Reg := ⟨0x5118, 0x20, 16, [ANC_CH_STAT_LAST_Z, ANC_CH_STAT_BREAKS, ANC_CH_STAT_CHK_FAILS, ANC_CH_STAT_OPEN, ANC_CH_STAT_SHORT, ANC_CH_STAT_STATE]⟩

def BOB_SAVE_BASE_BASE : Fld := ⟨0x5400, 0, 12, 26, .rws, fun _ => 0⟩
/-- BOB_SAVE_BASE (R515). -/
def BOB_SAVE_BASE : Reg := ⟨0x5400, 0, 1, [BOB_SAVE_BASE_BASE]⟩

def BOB_SLOT_STAT_SAVED : Fld := ⟨0x5408, 0, 0, 16, .ro, fun _ => 0⟩
/-- BOB_SLOT_STAT (R515). -/
def BOB_SLOT_STAT : Reg := ⟨0x5408, 0, 1, [BOB_SLOT_STAT_SAVED]⟩

def BOB_CTX_CFG_DEST_Q : Fld := ⟨0x5500, 0x40, 40, 8, .rw, fun _ => 0⟩
def BOB_CTX_CFG_SRC_Q : Fld := ⟨0x5500, 0x40, 32, 8, .rw, fun _ => 0⟩
def BOB_CTX_CFG_BLK : Fld := ⟨0x5500, 0x40, 20, 6, .rw, fun _ => 0x3f⟩
def BOB_CTX_CFG_TABLES : Fld := ⟨0x5500, 0x40, 18, 2, .rw, fun _ => 2⟩
def BOB_CTX_CFG_WRAP : Fld := ⟨0x5500, 0x40, 17, 1, .rw, fun _ => 1⟩
def BOB_CTX_CFG_IDLE_FLUSH : Fld := ⟨0x5500, 0x40, 0, 16, .rw, fun _ => 0⟩
/-- BOB_CTX_CFG (R514). -/
def BOB_CTX_CFG : Reg := ⟨0x5500, 0x40, 4, [BOB_CTX_CFG_DEST_Q, BOB_CTX_CFG_SRC_Q, BOB_CTX_CFG_BLK, BOB_CTX_CFG_TABLES, BOB_CTX_CFG_WRAP, BOB_CTX_CFG_IDLE_FLUSH]⟩

def BOB_CTX_SHAPE_FRAME : Fld := ⟨0x5508, 0x40, 26, 2, .rw, fun _ => 0⟩
def BOB_CTX_SHAPE_DELTA : Fld := ⟨0x5508, 0x40, 25, 1, .rw, fun _ => 0⟩
def BOB_CTX_SHAPE_SPLIT : Fld := ⟨0x5508, 0x40, 24, 1, .rw, fun _ => 0⟩
def BOB_CTX_SHAPE_H : Fld := ⟨0x5508, 0x40, 19, 4, .rw, fun _ => 0⟩
def BOB_CTX_SHAPE_W : Fld := ⟨0x5508, 0x40, 0, 19, .rw, fun _ => 0⟩
/-- BOB_CTX_SHAPE (R514). -/
def BOB_CTX_SHAPE : Reg := ⟨0x5508, 0x40, 4, [BOB_CTX_SHAPE_FRAME, BOB_CTX_SHAPE_DELTA, BOB_CTX_SHAPE_SPLIT, BOB_CTX_SHAPE_H, BOB_CTX_SHAPE_W]⟩

def BOB_CTX_HIST_HIST_BASE : Fld := ⟨0x5510, 0x40, 0, 25, .rw, fun _ => 0x1600000⟩
/-- BOB_CTX_HIST (R514). -/
def BOB_CTX_HIST : Reg := ⟨0x5510, 0x40, 4, [BOB_CTX_HIST_HIST_BASE]⟩

def BOB_CTX_CTL_SLOT : Fld := ⟨0x5518, 0x40, 8, 4, .wo, fun _ => 0⟩
def BOB_CTX_CTL_RESTORE : Fld := ⟨0x5518, 0x40, 6, 1, .wo, fun _ => 0⟩
def BOB_CTX_CTL_SAVE : Fld := ⟨0x5518, 0x40, 5, 1, .wo, fun _ => 0⟩
def BOB_CTX_CTL_ABORT : Fld := ⟨0x5518, 0x40, 4, 1, .wo, fun _ => 0⟩
def BOB_CTX_CTL_FLUSH : Fld := ⟨0x5518, 0x40, 3, 1, .wo, fun _ => 0⟩
def BOB_CTX_CTL_FINISH : Fld := ⟨0x5518, 0x40, 2, 1, .wo, fun _ => 0⟩
def BOB_CTX_CTL_PAUSE : Fld := ⟨0x5518, 0x40, 1, 1, .wo, fun _ => 0⟩
def BOB_CTX_CTL_START : Fld := ⟨0x5518, 0x40, 0, 1, .wo, fun _ => 0⟩
/-- BOB_CTX_CTL (R514). -/
def BOB_CTX_CTL : Reg := ⟨0x5518, 0x40, 4, [BOB_CTX_CTL_SLOT, BOB_CTX_CTL_RESTORE, BOB_CTX_CTL_SAVE, BOB_CTX_CTL_ABORT, BOB_CTX_CTL_FLUSH, BOB_CTX_CTL_FINISH, BOB_CTX_CTL_PAUSE, BOB_CTX_CTL_START]⟩

def BOB_CTX_STAT_ADLER : Fld := ⟨0x5520, 0x40, 16, 32, .ro, fun _ => 1⟩
def BOB_CTX_STAT_REASON : Fld := ⟨0x5520, 0x40, 8, 4, .ro, fun _ => 0⟩
def BOB_CTX_STAT_WAIT_OUT : Fld := ⟨0x5520, 0x40, 6, 1, .ro, fun _ => 0⟩
def BOB_CTX_STAT_REFUSED : Fld := ⟨0x5520, 0x40, 5, 1, .w1c, fun _ => 0⟩
def BOB_CTX_STAT_START_PENDING : Fld := ⟨0x5520, 0x40, 4, 1, .ro, fun _ => 0⟩
def BOB_CTX_STAT_STATE : Fld := ⟨0x5520, 0x40, 0, 3, .ro, fun _ => 0⟩
/-- BOB_CTX_STAT (R514). -/
def BOB_CTX_STAT : Reg := ⟨0x5520, 0x40, 4, [BOB_CTX_STAT_ADLER, BOB_CTX_STAT_REASON, BOB_CTX_STAT_WAIT_OUT, BOB_CTX_STAT_REFUSED, BOB_CTX_STAT_START_PENDING, BOB_CTX_STAT_STATE]⟩

def BOB_CTX_CNT_BLOCKS : Fld := ⟨0x5528, 0x40, 24, 24, .rc, fun _ => 0⟩
def BOB_CTX_CNT_FALLBACKS : Fld := ⟨0x5528, 0x40, 8, 16, .rc, fun _ => 0⟩
def BOB_CTX_CNT_ABORTS : Fld := ⟨0x5528, 0x40, 0, 8, .rc, fun _ => 0⟩
/-- BOB_CTX_CNT (R514). -/
def BOB_CTX_CNT : Reg := ⟨0x5528, 0x40, 4, [BOB_CTX_CNT_BLOCKS, BOB_CTX_CNT_FALLBACKS, BOB_CTX_CNT_ABORTS]⟩

def BOB_CTX_IN_IN_BYTES : Fld := ⟨0x5530, 0x40, 0, 48, .ro, fun _ => 0⟩
/-- BOB_CTX_IN (R514). -/
def BOB_CTX_IN : Reg := ⟨0x5530, 0x40, 4, [BOB_CTX_IN_IN_BYTES]⟩

def CAL_CTL_DELTA_T : Fld := ⟨0x5800, 0, 32, 8, .rw, fun _ => 0x32⟩
def CAL_CTL_SAVE_H : Fld := ⟨0x5800, 0, 24, 8, .rw, fun _ => 0x18⟩
def CAL_CTL_CHK_LIM : Fld := ⟨0x5800, 0, 16, 8, .rw, fun _ => 0x20⟩
def CAL_CTL_CHK_S : Fld := ⟨0x5800, 0, 8, 8, .rw, fun _ => 0xa⟩
def CAL_CTL_SAVE : Fld := ⟨0x5800, 0, 1, 1, .wo, fun _ => 0⟩
def CAL_CTL_AUTO_RECAL : Fld := ⟨0x5800, 0, 0, 1, .rw, fun _ => 1⟩
/-- CAL_CTL (R535). -/
def CAL_CTL : Reg := ⟨0x5800, 0, 1, [CAL_CTL_DELTA_T, CAL_CTL_SAVE_H, CAL_CTL_CHK_LIM, CAL_CTL_CHK_S, CAL_CTL_SAVE, CAL_CTL_AUTO_RECAL]⟩

def CAL_STAT_COPY : Fld := ⟨0x5808, 0, 6, 2, .ro, fun _ => 0⟩
def CAL_STAT_FLASH_ERR : Fld := ⟨0x5808, 0, 4, 1, .w1c, fun _ => 0⟩
def CAL_STAT_CALCLK_BAD : Fld := ⟨0x5808, 0, 3, 1, .ro, fun _ => 0⟩
def CAL_STAT_REF_BAD : Fld := ⟨0x5808, 0, 2, 1, .ro, fun _ => 0⟩
/-- CAL_STAT (R535). -/
def CAL_STAT : Reg := ⟨0x5808, 0, 1, [CAL_STAT_COPY, CAL_STAT_FLASH_ERR, CAL_STAT_CALCLK_BAD, CAL_STAT_REF_BAD]⟩

def CAL_REF_MEASURED : Fld := ⟨0x5810, 0, 24, 22, .ro, fun _ => 0⟩
def CAL_REF_REFIN : Fld := ⟨0x5810, 0, 0, 22, .rws, fun _ => 0x2625a0⟩
/-- CAL_REF (R535). -/
def CAL_REF : Reg := ⟨0x5810, 0, 1, [CAL_REF_MEASURED, CAL_REF_REFIN]⟩

def CAL_TOL_TOL_OFS : Fld := ⟨0x5818, 0, 40, 8, .rw, fun _ => 8⟩
def CAL_TOL_TOL_GAIN : Fld := ⟨0x5818, 0, 32, 8, .rw, fun _ => 0x10⟩
def CAL_TOL_TOL_RATIO : Fld := ⟨0x5818, 0, 24, 8, .rw, fun _ => 0x10⟩
def CAL_TOL_TOL_POS : Fld := ⟨0x5818, 0, 16, 8, .rw, fun _ => 4⟩
def CAL_TOL_TOL_ANC : Fld := ⟨0x5818, 0, 8, 8, .rw, fun _ => 0x20⟩
def CAL_TOL_TOL_REPL : Fld := ⟨0x5818, 0, 0, 8, .rw, fun _ => 8⟩
/-- CAL_TOL (R536). -/
def CAL_TOL : Reg := ⟨0x5818, 0, 1, [CAL_TOL_TOL_OFS, CAL_TOL_TOL_GAIN, CAL_TOL_TOL_RATIO, CAL_TOL_TOL_POS, CAL_TOL_TOL_ANC, CAL_TOL_TOL_REPL]⟩

def CAL_REPL_PORT : Fld := ⟨0x5820, 0, 44, 4, .rw, fun _ => 0⟩
def CAL_REPL_LINE : Fld := ⟨0x5820, 0, 41, 3, .rw, fun _ => 0⟩
def CAL_REPL_REPS_M1 : Fld := ⟨0x5820, 0, 32, 9, .rw, fun _ => 0x3f⟩
def CAL_REPL_REFL : Fld := ⟨0x5820, 0, 0, 23, .rw, fun _ => 0⟩
/-- CAL_REPL (R536). -/
def CAL_REPL : Reg := ⟨0x5820, 0, 1, [CAL_REPL_PORT, CAL_REPL_LINE, CAL_REPL_REPS_M1, CAL_REPL_REFL]⟩

def CAL_OBJ_ADDR_KIND : Fld := ⟨0x5828, 0, 8, 4, .rw, fun _ => 0⟩
def CAL_OBJ_ADDR_INDEX : Fld := ⟨0x5828, 0, 0, 8, .rw, fun _ => 0⟩
/-- CAL_OBJ_ADDR (R537). -/
def CAL_OBJ_ADDR : Reg := ⟨0x5828, 0, 1, [CAL_OBJ_ADDR_KIND, CAL_OBJ_ADDR_INDEX]⟩

/-- CAL_OBJ_DATA (R537). -/
def CAL_OBJ_DATA : Reg := ⟨0x5830, 0, 1, []⟩

def CAL_CNT_RUNS : Fld := ⟨0x5838, 0, 32, 16, .rc, fun _ => 0⟩
def CAL_CNT_DISAGREE : Fld := ⟨0x5838, 0, 24, 8, .rc, fun _ => 0⟩
def CAL_CNT_FAILS : Fld := ⟨0x5838, 0, 16, 8, .rc, fun _ => 0⟩
def CAL_CNT_BORROWED : Fld := ⟨0x5838, 0, 8, 8, .rc, fun _ => 0⟩
def CAL_CNT_SAVES : Fld := ⟨0x5838, 0, 0, 8, .rc, fun _ => 0⟩
/-- CAL_CNT (R537). -/
def CAL_CNT : Reg := ⟨0x5838, 0, 1, [CAL_CNT_RUNS, CAL_CNT_DISAGREE, CAL_CNT_FAILS, CAL_CNT_BORROWED, CAL_CNT_SAVES]⟩

def EVT_RAW_RAW : Fld := ⟨0x5c00, 0x8, 0, 64, .w1c, fun _ => 0⟩
/-- EVT_RAW (R359). -/
def EVT_RAW : Reg := ⟨0x5c00, 0x8, 4, [EVT_RAW_RAW]⟩

def EVT_EN_EN : Fld := ⟨0x5c20, 0x8, 0, 64, .rw, fun _ => 0⟩
/-- EVT_EN (R359). -/
def EVT_EN : Reg := ⟨0x5c20, 0x8, 4, [EVT_EN_EN]⟩

def EVT_MAP_VEC0 : Fld := ⟨0x5c40, 0x8, 0, 5, .rw, fun _ => 0⟩
def EVT_MAP_VEC1 : Fld := ⟨0x5c40, 0x8, 8, 5, .rw, fun _ => 0⟩
def EVT_MAP_VEC2 : Fld := ⟨0x5c40, 0x8, 16, 5, .rw, fun _ => 0⟩
def EVT_MAP_VEC3 : Fld := ⟨0x5c40, 0x8, 24, 5, .rw, fun _ => 0⟩
def EVT_MAP_VEC4 : Fld := ⟨0x5c40, 0x8, 32, 5, .rw, fun _ => 0⟩
def EVT_MAP_VEC5 : Fld := ⟨0x5c40, 0x8, 40, 5, .rw, fun _ => 0⟩
def EVT_MAP_VEC6 : Fld := ⟨0x5c40, 0x8, 48, 5, .rw, fun _ => 0⟩
def EVT_MAP_VEC7 : Fld := ⟨0x5c40, 0x8, 56, 5, .rw, fun _ => 0⟩
/-- EVT_MAP (R359). -/
def EVT_MAP : Reg := ⟨0x5c40, 0x8, 32, [EVT_MAP_VEC0, EVT_MAP_VEC1, EVT_MAP_VEC2, EVT_MAP_VEC3, EVT_MAP_VEC4, EVT_MAP_VEC5, EVT_MAP_VEC6, EVT_MAP_VEC7]⟩

/-- EVT_VEC (R359). -/
def EVT_VEC : Reg := ⟨0x5d40, 0, 1, []⟩

def EVT_INTN_INTN_MASK : Fld := ⟨0x5d48, 0, 0, 32, .rw, fun _ => 0⟩
/-- EVT_INTN (R359). -/
def EVT_INTN : Reg := ⟨0x5d48, 0, 1, [EVT_INTN_INTN_MASK]⟩

def EVT_CTL_HOLDOFF : Fld := ⟨0x5d50, 0, 0, 10, .rw, fun _ => 0⟩
/-- EVT_CTL (R359). -/
def EVT_CTL : Reg := ⟨0x5d50, 0, 1, [EVT_CTL_HOLDOFF]⟩

/-- The registers whose names begin SYS_. -/
def regsSys : List Reg :=
  [SYS_ID, SYS_STATE, SYS_CTL, SYS_STRAP, SYS_BRINGUP, SYS_RESET, SYS_PROFILE, SYS_FAULT,
   SYS_CLK_STAT, SYS_ENV, SYS_PICK_PERIOD, SYS_PICK_LIM, SYS_PICK_BASE, SYS_PICK_NUM, SYS_PICK_STAT,
   SYS_PICK_CNT, SYS_TOD_SET, SYS_TIME_HI, SYS_TIME_LO, SYS_DISC_CTL, SYS_DISC_STAT, SYS_DISC_FREQ,
   SYS_LINE_SHED]

/-- The registers whose names begin HST_. -/
def regsHst : List Reg :=
  [HST_CTL, HST_STAT, HST_CMD_BASE, HST_CMD_TAIL, HST_CMD_HEAD, HST_CPL_BASE, HST_CPL_HEAD,
   HST_CPL_TAIL, HST_CNT, HST_MBX_CTL, HST_MBX_CPL0, HST_MBX_CPL1, HST_MBX_CMD]

/-- The registers whose names begin TRD_. -/
def regsTrd : List Reg :=
  [TRD_CTL, TRD_STAT, TRD_DRAFT_ADDR, TRD_DRAFT_DATA, TRD_BEAT_STAT, TRD_BEAT_PICK, TRD_FLAGS,
   TRD_FLAG_SET, TRD_CNT, TRD_BANK_CFG, TRD_PORT]

/-- The registers whose names begin PRT_. -/
def regsPrt : List Reg :=
  [PRT_CTL, PRT_STAT, PRT_IQ_X, PRT_IQ_Y, PRT_SKEW, PRT_GZ_ADDR, PRT_GZ_DATA, PRT_MAP, PRT_CNT]

/-- The registers whose names begin CNV_. -/
def regsCnv : List Reg :=
  [CNV_CORR, CNV_RATIO, CNV_STAT, CNV_GRP_CTL, CNV_GRP_STAT]

/-- The registers whose names begin RED_. -/
def regsRed : List Reg :=
  [RED_LOAD_ADDR, RED_LOAD_DATA, RED_SLOT_CFG, RED_SLOT_CTL, RED_SLOT_STAT, RED_PORT_CFG,
   RED_PORT_STAT, RED_SLOT_INFO]

/-- The registers whose names begin GAU_. -/
def regsGau : List Reg :=
  [GAU_NG, GAU_BRK_CTL, GAU_LINE_ADDR, GAU_LINE_DATA, GAU_SPAN, GAU_SHAPE, GAU_REF, GAU_STAT, GAU_CNT]

/-- The registers whose names begin HDL_. -/
def regsHdl : List Reg :=
  [HDL_CTL, HDL_STAT, HDL_GRID, HDL_PORT_CFG, HDL_ALIGN, HDL_CNT]

/-- The registers whose names begin SPC_. -/
def regsSpc : List Reg :=
  [SPC_CTL, SPC_STAT, SPC_REC_BASE, SPC_COEF_BASE, SPC_LO_ADDR, SPC_LO_DATA, SPC_LINE_ADDR,
   SPC_LINE_SPAN, SPC_LINE_SHAPE, SPC_LINE_STRIPE, SPC_LO_STAT, SPC_CNT]

/-- The registers whose names begin SHT_. -/
def regsSht : List Reg :=
  [SHT_RUN, SHT_PEND, SHT_LOG_ADDR, SHT_LOG_DATA, SHT_IMG_CTL, SHT_IMG_STAT, SHT_SWAP, SHT_SWAP_STAT,
   SHT_CTL, SHT_LCNT, SHT_ENG_STAT, SHT_ENG_DBG]

/-- The registers whose names begin WRP_. -/
def regsWrp : List Reg :=
  [WRP_CTL, WRP_STAT, WRP_CNT, WRP_CNT2, WRP_ERR_ADDR, WRP_FILL_BASE, WRP_FILL_CTL, WRP_INJ_ADDR,
   WRP_INJ_MASK, WRP_BANK_ADDR, WRP_BANK_DATA]

/-- The registers whose names begin WFQ_. -/
def regsWfq : List Reg :=
  [WFQ_POOL_STAT, WFQ_POOL_CTL, WFQ_HPUSH, WFQ_HPOP_SEL, WFQ_HPOP, WFQ_FLUSH, WFQ_CFG, WFQ_STAT]

/-- The registers whose names begin DRM_. -/
def regsDrm : List Reg :=
  [DRM_CTL, DRM_STAT, DRM_CAP, DRM_CNT, DRM_CNT2, DRM_ERR_ADDR, DRM_REF, DRM_ACT, DRM_MIG_STAT,
   DRM_MOVE, DRM_RETIRE, DRM_ORG, DRM_TRAIN, DRM_REGION, DRM_REGION_CTL, DRM_RPL, DRM_RPL_RING,
   DRM_RPL_STAT]

/-- The registers whose names begin SRC_. -/
def regsSrc : List Reg :=
  [SRC_CTL, SRC_STAT, SRC_CNT, SRC_LINE_ADDR, SRC_LINE_DATA, SRC_LAUNCH, SRC_MON, SRC_CUR,
   SRC_CUR_MODE, SRC_CUR_STAT, SRC_CS]

/-- The registers whose names begin TSU_. -/
def regsTsu : List Reg :=
  [TSU_STAT, TSU_CNT, TSU_MAP_ADDR, TSU_MAP_DATA, TSU_IN, TSU_IN_CNT, TSU_GATE, TSU_GATE_STAT]

/-- The registers whose names begin ANC_. -/
def regsAnc : List Reg :=
  [ANC_CTL, ANC_STAT, ANC_CELL_BASE, ANC_TBL_ADDR, ANC_TBL_DATA, ANC_CNT, ANC_CH_CFG, ANC_CH_EXC,
   ANC_CH_ENG, ANC_CH_STAT]

/-- The registers whose names begin BOB_. -/
def regsBob : List Reg :=
  [BOB_SAVE_BASE, BOB_SLOT_STAT, BOB_CTX_CFG, BOB_CTX_SHAPE, BOB_CTX_HIST, BOB_CTX_CTL, BOB_CTX_STAT,
   BOB_CTX_CNT, BOB_CTX_IN]

/-- The registers whose names begin CAL_. -/
def regsCal : List Reg :=
  [CAL_CTL, CAL_STAT, CAL_REF, CAL_TOL, CAL_REPL, CAL_OBJ_ADDR, CAL_OBJ_DATA, CAL_CNT]

/-- The registers whose names begin EVT_. -/
def regsEvt : List Reg :=
  [EVT_RAW, EVT_EN, EVT_MAP, EVT_VEC, EVT_INTN, EVT_CTL]

/-- Every register of BAR0. -/
def regTable : List Reg :=
  regsSys ++ regsHst ++ regsTrd ++ regsPrt ++ regsCnv ++ regsRed ++ regsGau ++ regsHdl ++ regsSpc ++ regsSht ++ regsWrp ++ regsWfq ++ regsDrm ++ regsSrc ++ regsTsu ++ regsAnc ++ regsBob ++ regsCal ++ regsEvt

end Sys2Proof.Machine
end

