-- ==== Sys2Proof/Machine/Smap.lean ====
section
/-!
DEFINITION. Sparse storage: a list of (key, value) pairs in one canonical form, keys strictly rising and no entry equal to
what an unlisted key reads as. Every indexed store of the machine is held this way, so that equal contents are equal data
and the state after reset lists nothing it need not.
-/

set_option autoImplicit false

namespace Sys2Proof.Machine

/-- Sparse storage under number keys. -/
abbrev Smap (α : Type) := List (Nat × α)

/-- The entry of a key, where one is listed. -/
def Smap.find? {α : Type} : Smap α → Nat → Option α
  | [], _ => none
  | (k', v) :: t, k => if k' = k then some v else Smap.find? t k

/-- What a key reads as: its entry, or the value `d` of unlisted keys. -/
def Smap.get {α : Type} (d : α) (m : Smap α) (k : Nat) : α := (m.find? k).getD d

/-- A list without the entries of one key. -/
def Smap.erase {α : Type} : Smap α → Nat → Smap α
  | [], _ => []
  | (k', v) :: t, k => if k' = k then Smap.erase t k else (k', v) :: Smap.erase t k

/-- A new entry put before the first greater key. -/
def Smap.insert {α : Type} : Smap α → Nat → α → Smap α
  | [], k, v => [(k, v)]
  | (k', v') :: t, k, v => if k < k' then (k, v) :: (k', v') :: t else (k', v') :: Smap.insert t k v

/-- Write a key: the value `d` of unlisted keys removes the entry. -/
def Smap.put {α : Type} [DecidableEq α] (d : α) (m : Smap α) (k : Nat) (v : α) : Smap α :=
  if v = d then m.erase k else (m.erase k).insert k v

/-- Keys strictly rising from above a bound. -/
def Smap.rising {α : Type} : Option Nat → Smap α → Bool
  | _, [] => true
  | none, (k, _) :: t => Smap.rising (some k) t
  | some b, (k, _) :: t => decide (b < k) && Smap.rising (some k) t

/-- The canonical form for one value `d` of unlisted keys. -/
def Smap.wf {α : Type} [DecidableEq α] (d : α) (m : Smap α) : Bool :=
  Smap.rising none m && m.all (fun e => decide (e.2 ≠ d))

end Sys2Proof.Machine
end

