-- ==== Sys2Proof/Machine/State.lean ====
section
/-!
DEFINITION. The state of the KY4816 as plain data. The registers' fields are one sparse store (`State.csr`); what the rules
name beside the registers stands in one structure per block below. `State.reset` is the device at the moment its resets are
released: every field of every register at its reset value, nothing listed in any store, no command waiting.
-/

set_option autoImplicit false

namespace Sys2Proof.Machine

/-- Why a run stops with a fault. No meaning of this model ends in a fault: every row has the effect its rules give. -/
inductive Fault where
  /-- Raised by nothing; the type is closed so that a run could be seen never to end in it. Safe. -/
  | none
deriving DecidableEq, Repr

/-- Why a command has no meaning in the model. -/
inductive Refusal where
  /-- Raised by `exec` for a row whose meaning is not written; it names the row's mnemonic. Safe. -/
  | notModelled (mnemonic : String)
deriving DecidableEq, Repr

/-- Who made a request, in the coding of ORIGIN (R375). -/
inductive Origin where
  | pcie | mgmt | draft | engine | device
deriving DecidableEq, Repr

/-! ### Time (chapter 01) -/

/-- The disciplined time counter (R34) and what the PPS discipline keeps between edges (R37 to R40). Raw times are in 1/256 ns;
TAI times are in 1/256 ns at full resolution. -/
structure Tod where
  tU : Rat := 0
  rawU : Nat := 0
  slew : Rat := 0
  armed : Option Nat := none
  lockRun : Nat := 0
  prevPps : Option Nat := none
  ppsFirst : Bool := true
  lastAccept : Nat := 0
  latchedLo : Nat := 0
deriving DecidableEq, Repr

/-! ### Ports and converters (chapter 02) -/

/-- A converter swap in progress (R61): the group slot, the spare and the cycle of the request. -/
structure ConvSwap where
  slot : Nat
  spare : Nat
  at_ : Nat
  byCmd : Bool
deriving DecidableEq, Repr

/-- The ports beside their registers: gain-zone table words in force and staged, under 64 × port + 16 × table + entry (R55, R77);
the gain code at the last sample of each port's previous shed (R57); the swaps of the four groups; the ports
whose next launched phase pick is their first after entering RUNNING or WEAVING (R119); for a converter that a swap displaced, one
more than the port it served (R62); the global slots whose failed converter waits for an automatic swap, in the order of failure
(R65). -/
structure Ports where
  gz : Smap Nat := []
  gzStg : Smap Nat := []
  lastGain : Smap Nat := []
  swaps : Smap (Option ConvSwap) := []
  firstPhase : Smap Bool := []
  displaced : Smap Nat := []
  swapWait : List Nat := []
deriving DecidableEq, Repr

/-! ### Reed (chapter 03) -/

/-- A code as a slot bank holds it (R85): CHIPS − 1, the chip-length code, SHIFT, the replica samples and the chip words, the
words under the load-buffer addresses of R89. -/
structure CodeBank where
  chipsM1 : Nat
  chipLen : Nat
  shift : Nat
  words : Smap Nat
deriving DecidableEq, Repr

/-- One code slot (R85, R92). `gen` counts the banks that have come into force. -/
structure RedSlot where
  inForce : Option CodeBank := none
  staged : Option CodeBank := none
  phase : Nat := 0
  gen : Nat := 0
deriving DecidableEq, Repr

/-- A preparation that runs or waits (R90, R92); `byCal` marks one that a replica calibration issued (R521), `force` one that ran or
waited when the device left WEAVING, so that its bank comes into force at its end (R93). -/
structure Prep where
  slot : Nat
  bank : CodeBank
  deferred : Bool
  started : Nat
  byCal : Bool := false
  force : Bool := false
deriving DecidableEq, Repr

/-- The Reed beside its registers. -/
structure Reed where
  slots : Smap RedSlot := []
  prep : Option Prep := none
  buf : Smap Nat := []
deriving DecidableEq, Repr

/-! ### Gauge (chapter 04) -/

/-- The break locator's state of one line (R131 to R137). While the line learns, `sums` and `counts` hold what the running mean is
made of. `gen` counts the resets. -/
structure LineEnv where
  learned : Bool := false
  learnt : Nat := 0
  sums : Smap Nat := []
  counts : Smap Nat := []
  env : Smap Rat := []
  segs : Nat := 0
  brk : Bool := false
  loss : Bool := false
  brkCell : Nat := 0
  clearRun : Nat := 0
  resetDue : Bool := false
  gen : Nat := 0
deriving DecidableEq, Repr

/-- The gauge beside its registers: the lines' states, the states as they stood at the most recent tick (R143), and one more than the
line of each port's most recent phase pick, now and at that tick (R147), 0 before the first. -/
structure Gauge where
  lines : Smap LineEnv := []
  snap : Smap LineEnv := []
  lastLine : Smap Nat := []
  snapLine : Smap Nat := []
  resetAtRun : Smap Bool := []
deriving DecidableEq, Repr

/-! ### Heddle (chapter 05) -/

/-- A cell result in a port's result FIFO, or, with `lost`, the kept position of a discarded one (R151); the pick's number and its tick,
which tells it from a pick of the same number in another weave. -/
structure CellRes where
  pick : Nat
  tick : Nat
  cell : Nat
  word : Nat
  lost : Bool
deriving DecidableEq, Repr

/-- What of a cell update still has to happen once its queue can accept: the items left to push, the quad, the notice and the
value for the replay windows (R163). -/
structure HdlWait where
  items : List Nat
  quadAt : Nat
  quad : List Nat
  notice : Option Nat
  value : Nat
  pick : Nat
  tick : Nat
  cell : Nat
deriving DecidableEq, Repr

/-- One port of the Heddle. `epoch` counts the port's entries into RUNNING and the device's into WEAVING; `prevEpoch` is that of the
launch that `tPrev`, `cntK` and `cnt` come from, and they hold for no launch of another one (R155). `overrunPick` is the tick of the
last pick that overran, `markHeld` a held pick marker (R166); `cnt` counts the launched phase picks in interval `cntK` (R159). -/
structure HdlPort where
  fifo : List CellRes := []
  fifoLen : Nat := 0
  wait : Option HdlWait := none
  epoch : Nat := 0
  prevEpoch : Nat := 0
  tPrev : Option Nat := none
  restartNext : Bool := false
  drops : Nat := 0
  overrunPick : Option Nat := none
  markHeld : Option Nat := none
  discarded : Nat := 0
  cntK : Option Int := none
  cnt : Nat := 0
deriving DecidableEq, Repr

/-- One run of equally spaced grid points: the index and time of its first point and the spacing, times in 1/256 ns, and the weave
whose grid it belongs to (R156). -/
structure GridSeg where
  k : Int
  t : Int
  step : Nat
  weave : Nat
deriving DecidableEq, Repr

/-- The Heddle beside its registers. -/
structure Heddle where
  ports : Smap HdlPort := []
  grid : List GridSeg := []
  gridK : Nat := 0
deriving DecidableEq, Repr

/-! ### Spectral cells (chapter 06) -/

/-- The key of a stripe in progress (R185), with the content of its LO entry (R195). -/
structure SpcKey where
  line : Nat
  stripe : Nat
  lo : Nat
  lo0 : Nat
  lo1 : Nat
  seg : Nat
  win : Nat
  pshift : Nat
deriving DecidableEq, Repr

/-- One port's staging area (R183 to R188). -/
structure SpcArea where
  state : Nat := 0
  key : Option SpcKey := none
  count : Nat := 0
  cells : Nat := 0
  sweep : Bool := false
  fitted : Bool := false
  nofit : Bool := false
  timeout : Option Nat := none
  pick : Nat := 0
deriving DecidableEq, Repr

/-- One line's spectral geometry and cursor (R180, R181, R197). -/
structure SpcLine where
  firstS : Nat := 0
  cellsS : Nat := 0
  kS : Nat := 4
  accum : Nat := 0x400
  baseS : Nat := 0x400000
  sc : Nat := 0x1000
  curStripe : Nat := 0
  curCount : Nat := 0
deriving DecidableEq, Repr

/-- A flush that runs: the port and how many items of the frame are pushed (R188). -/
structure SpcFlush where
  port : Nat
  items : List Nat
deriving DecidableEq, Repr

/-- The spectral unit beside its registers: LO plan words in force and staged under 2 × entry + word (R178), the cycle of the last
strobe (R179). -/
structure Spectral where
  areas : Smap SpcArea := []
  lines : Smap SpcLine := []
  lo : Smap Nat := []
  loStg : Smap Nat := []
  strobeAt : Option Nat := none
  strobed : Option Nat := none
  flushQ : List Nat := []
  flush : Option SpcFlush := none
deriving DecidableEq, Repr

/-! ### Picks, the draft and the Treadle (chapters 01 and 07) -/

/-- One port's part of a launched pick: all that the rules take as of its tick, and how far the pipeline has come with it. -/
structure PortPick where
  port : Nat
  kind : Nat
  slot : Nat
  bank : CodeBank
  gen : Nat
  line : Nat
  shed : Nat
  launchRaw : Nat
  stamp : Option Nat := none
  windowEnd : Nat
  windowOpen : Bool := true
  gz : List Nat
  gainBefore : Nat
  corr : List (List Nat)
  badX : Option Nat
  badY : Option Nat
  iq : List Nat
  noise : Nat
  brk : List Nat
  redCfg : List Nat
  hdlCfg : List Nat
  period : Nat
  restart : Bool
  forced : Bool
  darkFrom : Option Nat := none
  darkSet : Bool := false
  lineGen : Nat
  gaugeNext : Nat := 0
  satNext : Nat := 0
  satSeen : Bool := false
  zNext : Nat := 0
  segSum : Smap Nat := []
  segCnt : Smap Nat := []
  mags : Smap Nat := []
  breakDone : Bool := false
  hdlDone : Bool := false
  notices : Nat := 0
  noticed : Bool := false
  spcNext : Nat := 0
  spcCells : Nat := 0
  spcFirst : Nat := 0
  spcDone : Bool := false
  spcBegun : Bool := false
  key : Option SpcKey := none
  freeBase : Nat := 0
  r151 : Bool := false
  epoch : Nat := 0
  weave : Nat := 0
deriving DecidableEq, Repr

/-- A pick that has been ticked (R21, R22), its tick in cc. `engines` holds the logical engines whose done is still owed, `hands` those
that ran at its tick, each with the number of its run (R250, R254). -/
structure PickCtx where
  n : Nat
  tick : Nat
  ports : List PortPick
  engines : List Nat
  hands : List (Nat × Nat)
  handlers : Bool := false
  deadline : Option Nat := none
  complete : Option Nat := none
deriving DecidableEq, Repr

/-- A draft scan that runs (R199). -/
structure Scan where
  bank : Nat
  started : Nat
deriving DecidableEq, Repr

/-- The open change set (R219 to R222). -/
structure ChangeSet where
  prepared : Bool := false
  tries : Nat := 0
  triedFailed : Bool := false
  beatPick : Nat
  affected : Nat := 0
  notReady : Nat := 0
deriving DecidableEq, Repr

/-- What is held while a set is prepared (R222, R223): a write of a register field, by its key, reset and value; of a gain-zone or an
LO word; a bank swap; a discard. -/
inductive HeldWrite where
  | fld (key rst v : Nat)
  | gz (key v : Nat)
  | lo (key v : Nat)
  | swap
  | discard
deriving DecidableEq, Repr

/-- The Treadle beside its registers. Times are in core cycles; the anchor `anchorG` and `lastTick` are in sample clocks. `lastSheds` holds
the port and the shed of every launch of the last tick (R27). `carried` holds
the placements of dropped picks (R202); `weave` counts the entries into WEAVING. -/
structure Treadle where
  weave : Nat := 0
  weaving : Bool := false
  closing : Bool := false
  draft : Smap Nat := []
  pc : Nat := 0
  loops : List (Nat × Nat) := []
  flags : Nat := 0
  running : Bool := false
  startDue : Option Nat := none
  pickN : Nat := 0
  insns : Nat := 0
  cost : Nat := 0
  progStart : Nat := 0
  progEnd : Option Nat := none
  firstPick : Bool := false
  noteDropped : Bool := false
  beatTaken : Bool := false
  hostBeat : Bool := false
  places : List (Nat × Nat × Nat) := []
  carried : List (Nat × Nat × Nat) := []
  ppsWait : Option (Nat × Nat) := none
  loNamed : Option Nat := none
  loStarted : Bool := false
  swapStaged : Bool := false
  set : Option ChangeSet := none
  held : List HeldWrite := []
  scans : List Scan := []
  anchorB : Nat := 0
  anchorG : Nat := 0
  lastTick : Option Nat := none
  lastSheds : List (Nat × Nat) := []
  picks : List PickCtx := []
  doneBase : Nat := 0
deriving DecidableEq, Repr

/-! ### Shuttle engines (chapters 08 and 09) -/

/-- A loaded Swirax image, as its header describes it (R257). -/
structure Img where
  id : Nat
  instr : Nat
  tickEn : Bool
  tick : Nat
  handlers : List (Option Nat)
  carryBase : Nat
  carryLen : Nat
deriving DecidableEq, Repr

/-- The handler an engine runs: the tick handler of a pick, or a queue handler (R247). -/
inductive Handler where
  | tick (pick : Nat)
  | queue
deriving DecidableEq, Repr

/-- What an issued instruction waits for (R284, R286, R292). -/
inductive Stall where
  | push (q pri item : Nat)
  | pop (wd q : Nat)
  | fence
  | done
deriving DecidableEq, Repr

/-- An outstanding Warp access of an engine (R244, R284): an ldq into loom words from `loom`, or an stq with the words it read at issue. -/
structure WarpAccess where
  store : Bool
  quad : Nat
  loom : Nat
  words : List Stored
  pc : Nat
deriving DecidableEq, Repr

/-- One physical engine (R240). `v` is listed under 4 × register + lane, `ac` under 4 × accumulator + lane; `st` is the status register
without RD, which is the number of open block repeats, each (first, END), innermost first. Unlisted loom and instruction words are
bare. -/
structure Eng where
  w : Smap Nat := []
  v : Smap Nat := []
  ac : Smap Nat := []
  p : Smap Nat := []
  m : Smap Nat := []
  lc : Smap Nat := []
  st : Nat := 0
  reps : List (Nat × Nat) := []
  loom : Smap Stored := []
  istore : Smap Stored := []
  img : Option Img := none
  pc : Nat := 0
  faultPc : Nat := 0
  handler : Option Handler := none
  stall : Option Stall := none
  acc : List WarpAccess := []
deriving DecidableEq, Repr

/-- A tick handler that is due or running (R250, R251); `released` says that its pick was released while the handler waited. -/
structure TickPend where
  pick : Nat
  at_ : Nat
  started : Bool := false
  beyond : Bool := false
  released : Bool := false
deriving DecidableEq, Repr

/-- A logical engine beside its registers: the entries of SHT_LOG_DATA (R267; PHYS is put together at a read), the configuration in
force since the last tick, its tick handlers, what the next one reports (R248), and the number of its run: how often it was started. -/
structure LogEng where
  entries : Smap Nat := []
  budget : Nat := 0x7A120
  release : Bool := false
  pend : List TickPend := []
  skipped : Nat := 0
  dropped : Nat := 0
  late : Bool := false
  fresh : Bool := false
  run : Nat := 0
deriving DecidableEq, Repr

/-- An engine swap (R259 to R261). `was` is the state of the outgoing engine at the boundary. -/
structure EngSwap where
  log : Nat
  spare : Nat
  out : Nat
  migrate : Bool
  retire : Bool
  carry : Bool := true
  boundary : Bool := false
  copying : Bool := false
  was : Nat := 0
  due : Nat := 0
deriving DecidableEq, Repr

/-- An image load that runs (R257). `spare` says that the engine is a spare. -/
structure EngLoad where
  engine : Nat
  src : Nat
  spare : Bool
deriving DecidableEq, Repr

/-- The engines beside their registers. -/
structure Shuttle where
  eng : Smap Eng := []
  log : Smap LogEng := []
  swap : Option EngSwap := none
  load : Option EngLoad := none
deriving DecidableEq, Repr

/-! ### Warp store and Weft queues (chapter 10) -/

/-- One queue item: its priority, the word as stored in the pool, the pool slot that holds it, its number among the items pushed to its
queue, and whether its link-memory entry is uncorrectable (R297, R313, R319: an upset of the link memory, which no command makes). -/
structure QItem where
  pri : Nat
  word : Stored
  slot : Nat := 0
  seq : Nat := 0
  linkBad : Bool := false
deriving DecidableEq, Repr

/-- One Weft queue (R313, R318): the items in the order in which they are read, the number of items pushed so far, the expiry of a running
stale timer, and the records or notes discarded since the last one was pushed (R369, R373, R375). -/
structure WQueue where
  items : List QItem := []
  seq : Nat := 0
  staleDue : Option Nat := none
  lostRecs : Nat := 0
deriving DecidableEq, Repr

/-- A write-back that waits for a free cycle (R302): the word, the value and, for a word of the pool, the item that held it at the read, as
its queue and number; a later item of the slot has overwritten the word. -/
structure WriteBack where
  word : Nat
  value : Stored
  owner : Option (Nat × Nat) := none
deriving DecidableEq, Repr

/-- A row repair that runs (R305). -/
structure Repair where
  bank : Nat
  row : Nat
  spare : Nat
deriving DecidableEq, Repr

/-- A host fill that runs (R308): its quads, and those already filled. -/
structure Fill where
  first : Nat
  last : Nat
  done : List Nat := []
deriving DecidableEq, Repr

/-- The Warp store. A pool slot that an item occupies holds the item's word; `pool` holds the words of the other slots, and `words` those of
the rest of the store and, from 0x180_0000 on, of the spare rows; an unlisted word is bare. -/
structure Warp where
  words : Smap Stored := []
  pool : Smap Stored := []
  rowMap : Smap Nat := []
  sparesUsed : Smap Nat := []
  bankCorr : Smap Nat := []
  lastRow : Smap Nat := []
  history : List (Nat × Nat) := []
  wbs : List WriteBack := []
  declared : List Nat := []
  repair : Option Repair := none
  noSpareRows : List Nat := []
  fill : Option Fill := none
  scrubNext : Nat := 0
  scrubDue : Nat := 0
deriving DecidableEq, Repr

/-! ### Host interface, events, records and delivery (chapters 11 and 12) -/

/-- Where a fetched command stands (R338, R339). -/
inductive CmdPhase where
  | queued
  | running
  | finished
deriving DecidableEq, Repr

/-- A command in flight (R337, R338). `aux` names the thing the command waits for; the masks hold the units that have come to an outcome (R341, R345). -/
structure Cmd where
  opcode : Nat
  tag : Nat
  stream : Nat
  fence : Bool
  mbx : Bool
  ops : List Nat
  slot : Nat
  phase : CmdPhase
  aux : Nat := 0
  refused : Nat := 0
  got : Nat := 0
  cancelled : Nat := 0
deriving DecidableEq, Repr

/-- A completion that waits to be written (R340). -/
structure Cpl where
  opcode : Nat
  tag : Nat
  stream : Nat
  mbx : Bool
  slot : Nat
  status : Nat
  detail : Nat
  result : Nat
  inFlight : Bool
deriving DecidableEq, Repr

/-- One MSI-X table entry with its vector's hold-off (R349). -/
structure MsixVec where
  addr : Nat := 0
  data : Nat := 0
  ctrl : Nat := 1
  pend : Bool := false
  holdUntil : Option Nat := none
  due : Bool := false
deriving DecidableEq, Repr

/-- The host interface beside its registers. -/
structure HostIf where
  cmds : List Cmd := []
  cplWait : List Cpl := []
  phase : Bool := true
  cplFullRaised : Bool := false
  fetchStopped : Bool := false
  msix : Smap MsixVec := []
  funcMask : Bool := false
  busMaster : Bool := false
  d3hot : Bool := false
  deferredWeave : Option Nat := none
  aer : Nat := 0
deriving DecidableEq, Repr

/-- What the configuration space of the function shows and supports (R6, R331): identity, class code, interrupt pin, the largest payload
and read request in bytes, the non-posted requests that may be out, and the vectors of MSI-X. -/
structure PciConfig where
  vendor : Nat
  device : Nat
  subVendor : Nat
  subDevice : Nat
  revision : Nat
  classCode : Nat
  interruptPin : Nat
  maxPayload : Nat
  maxReadRequest : Nat
  maxOutstanding : Nat
  vectors : Nat
deriving DecidableEq, Repr

/-- A delivery ring bound to a queue (R360 to R368): items written and consumed, the PROD last told to the host, the end of the batch in
progress, the time of the next CONS read and whether one is out. `fresh` says that the qword 0 of the binding is still to be
written, `ending` that an unbind waits for its last writes. -/
structure Ring where
  queue : Nat
  base : Nat
  size : Nat
  index : Nat
  prod : Nat := 0
  cons : Nat := 0
  posted : Nat := 0
  batchAt : Option Nat := none
  pollAt : Option Nat := none
  reading : Bool := false
  badLogged : Bool := false
  stopped : Bool := false
  fresh : Bool := false
  ending : Bool := false
deriving DecidableEq, Repr

/-- What leaves the device: the bus writes, messages and frames a reader outside could see, newest first. A launch gives the port, its
time in 1/256 ns, the length of the LAUNCH gate in sc, and for the CODE outputs the samples of a chip, the number of chips and the chip
words of R89 (R417, R418); LBEAT gives its rise in 1/256 ns and its length in sc (R428), and `lbeatLow` says that it is driven low before
its end (R551); `cells` is what the boundary cells of LAUNCH, CODE_A, CODE_B and SRCEN drive, none where they are high-impedance, and
`idcode` what the test access port shifts out (R571); `gateLow` is a gate under way that is driven low (R419, R437); an on-span of a gated channel gives its
beginning and its end in 1/256 ns (R421). -/
inductive Output where
  | dma (addr : Nat) (bytes : List Byte)
  | dmaRead (addr : Nat)
  | msix (vec addr data : Nat)
  | readData (v : Qword)
  | readBytes (len v : Nat)
  | unsupported
  | miso (v : Qword)
  | busFrame (cs spiMode : Nat) (bytes : List Byte)
  | lbeat (at256 width : Nat)
  | lbeatLow (at256 : Nat)
  | launch (port at256 gate chipLen chips : Nat) (code : List Nat)
  | gateLow (port at256 : Nat)
  | onSpan (channel current : Nat) (from256 to256 : Int)
  | pulse (channel current : Nat)
  | flash (addr : Nat) (bytes : List Nat)
  | idcode (v : BitVec 32)
  | cells (v : Option (BitVec 49))
deriving DecidableEq, Repr

/-! ### External memory (chapter 13) -/

/-- One 1 MiB frame of SDRAM: `base` says what an unlisted burst holds (0 what power-on left, 1 the bare burst, 2 the poison burst). -/
structure Frame where
  base : Nat := 0
  bursts : Smap Burst := []
deriving DecidableEq, Repr

/-- What a module's SPD says (R385). `known` is false for a module outside R384. -/
structure Spd where
  known : Bool
  gib : Nat
  ranks : Nat
  density : Nat
  trfc : Nat
deriving DecidableEq, Repr

/-- One rank's refresh and drift (R390, R392): `due` is when its next refresh falls due, `hot` that its MR4 asks for twice the rate. -/
structure RankRef where
  due : Nat := 0
  owed : Nat := 0
  count : Nat := 0
  applied : Int := 0
  drifted : Bool := false
  parFails : Nat := 0
  hot : Bool := false
deriving DecidableEq, Repr

/-- An operation on the memory (R398, R405, R406): 1 migration, 2 vacate, 3 restore. -/
structure DramOp where
  kind : Nat
  ch : Nat
  rank : Nat
  toSpare : Bool
  byCmd : Bool
deriving DecidableEq, Repr

/-- A page whose copy into a retirement pool runs (R398): the system page and the pool page. -/
structure Retire where
  page : Nat
  pool : Nat
deriving DecidableEq, Repr

/-- A mover request that runs (R402), or a refused one whose reply waits for room. -/
structure Move where
  dir : Bool
  reply : Nat
  tag : Nat
  len : Nat
  addr : Nat
  word : Nat
  refused : Bool := false
deriving DecidableEq, Repr

/-- A value that waits in the elastic buffer of the replay writer (R395). -/
structure RplVal where
  win : Nat
  pick : Nat
  addr : Nat
  value : Nat
deriving DecidableEq, Repr

/-- The SDRAM beside its registers. Frames stand under 65536 × (4 × channel + rank) + frame; `bmap` holds the blocks away from home as
1 + frame (2^32 for a lost block, 2^32 + 1 for one that is mapped nowhere); `remap` the retired pages as 1 + 2048 × channel + pool page.
The home placement (R388) is that of `homeRk` ranks in each channel of `gib` GiB each, without the rank `spare`; `rate` is the data rate of
each channel since its training; `patrolAt` is when the patrol pass begins or began. -/
structure Dram where
  frames : Smap Frame := []
  spd : Smap (Option Spd) := []
  hasSpare : Bool := false
  spare : Nat := 0
  homeRk : Smap Nat := []
  gib : Nat := 0
  rate : Smap Nat := []
  poolRank : Smap Nat := []
  bmap : Smap Nat := []
  remap : Smap Nat := []
  poolUsed : Smap Nat := []
  retiring : List Retire := []
  pageCorr : Smap Nat := []
  wbs : List (Nat × Burst) := []
  ranks : Smap RankRef := []
  op : Option DramOp := none
  rankWait : List Nat := []
  fillKeep : List Nat := []
  patrol : Nat := 0
  patrolAt : Nat := 0
  pollDue : Nat := 0
  turn : Bool := false
  move : Option Move := none
  skip : List Nat := []
  rplLost : Smap (Option Nat) := []
  rplPick : Smap (Option Nat) := []
  rplOut : Smap (Option Nat) := []
  rplBuf : List RplVal := []
deriving DecidableEq, Repr

/-! ### Source drive and lines (chapter 14) -/

/-- A fade that runs (R422): times in µs and core cycles, `step` the next update. -/
structure Fade where
  start : Nat
  target : Nat
  shape : Bool
  tf : Nat
  at_ : Nat
  step : Nat
deriving DecidableEq, Repr

/-- One current channel beside its registers (R421 to R436). `cleared` says that MODE was written 00 since the fault; `on` is the latest
on-span in mode 10, in 1/256 ns; `measured` is the cycle of the last measurement in mode 01. -/
structure Chan where
  fade : Option Fade := none
  lastKind : Nat := 0
  cleared : Bool := false
  launches : Nat := 0
  onEnd : Option Nat := none
  proofAt : Option Nat := none
  on : Option (Int × Int) := none
  measured : Nat := 0
deriving DecidableEq, Repr

/-- The LAUNCH gate and the code of a port's latest launch (R417, R418): its beginning in 1/256 ns, the length of the gate in sc, the
samples of a chip, the number of chips and the chip words. -/
structure Gate where
  at_ : Nat
  len : Nat
  chipLen : Nat
  chips : Nat
  code : List Nat
deriving DecidableEq, Repr

/-- What a bus transfer carries (R427, R429): the entry of the LO plan, a preset or a restore of a port's switch. -/
inductive XferKind where
  | lo (entry : Nat)
  | preset (port : Nat)
  | restore (port : Nat)
deriving DecidableEq, Repr

/-- One transfer on the addressed bus (R424, R425). `attempts` counts those made; `due` is the cycle at which the frame in progress ends,
and `ack`, `mask`, `val` and `retries` are the settings of its chip select that the frame began with (R448). -/
structure Xfer where
  kind : XferKind
  line : Nat
  cs : Nat
  len : Nat
  data : Nat
  attempts : Nat := 0
  status : Bool := false
  due : Nat := 0
  ack : Nat := 0
  mask : Nat := 0
  val : Nat := 0
  retries : Nat := 0
deriving DecidableEq, Repr

/-- The source drive beside its registers: switch-entry words under 2 × line + word (R426), channels, the ports' gates, the bus, the LO
entry whose last transfer failed, what each port's switch last received (0 nothing, else 1 + line), failed restores, the blanking of
ports, the rise of the latest LBEAT in 1/256 ns (R428), and the interlock. -/
structure Source where
  lbeatAt : Option Nat := none
  sw : Smap Nat := []
  chans : Smap Chan := []
  gates : Smap (Option Gate) := []
  loFailed : Option Nat := none
  bus : Option Xfer := none
  loWait : List Xfer := []
  swWait : List Xfer := []
  loDone : Option Nat := none
  loSent : Option Nat := none
  swLast : Smap Nat := []
  swFailed : List Nat := []
  presetNak : List Nat := []
  blankUntil : Smap Nat := []
  blankArm : Smap Bool := []
  blanked : Smap Bool := []
  spurious : Smap Nat := []
  intlkLow : Bool := false
  hbeat : Bool := false
  hbeatAt : Nat := 0
deriving DecidableEq, Repr

/-! ### Timestamp unit (chapter 15) -/

/-- A stamp on its way to its window decision and the queue (R450, R452): times in 1/256 ns and, for the sampling edge, in cc. -/
structure Stamp where
  input : Nat
  raw : Nat
  fall : Bool
  edge : Nat
deriving DecidableEq, Repr

/-- A window of a gate (R455 to R457): an open one has no close yet. `edge` is the core cycle whose edge opened it. The INPUTS mask and
MAX_LEN are those in force at its opening; `sent` and `beyond` count what each input delivered in it and lost to the limit. -/
structure Window where
  open_ : Nat
  edge : Nat
  close : Option Nat := none
  inputs : Nat
  maxLen : Nat
  sent : Smap Nat := []
  beyond : Smap Nat := []
deriving DecidableEq, Repr

/-- The timestamp unit beside its registers. Tap positions stand under 512 × line + tap; `last` holds one more than the raw time of each
line's last stamped edge and `seen` the cycle of its last edge of any kind; `gates` the windows of each gate, newest first; `lost` and `lostFirst` the records of queue 58
discarded since one was accepted and the time words of the first; `lossDue` the gaps whose record is still to be posted
(R458); `overAt` the cycle of the last event 217; `spareNext` the line the spare is to stand in for, 0x1F for none. -/
structure Tsu where
  maps : Smap Nat := []
  stamps : List Stamp := []
  last : Smap Nat := []
  seen : Smap Nat := []
  gates : Smap (List Window) := []
  lost : Nat := 0
  lostFirst : Nat × Nat := (0, 0)
  lossDue : List (Nat × Nat × Nat) := []
  overAt : Option Nat := none
  spareNext : Option Nat := none
deriving DecidableEq, Repr

/-! ### Anchor channels (chapter 16) -/

/-- What the anchor table is doing (R476, R523): nothing, an entry's DELAY, a conversion, an impedance check, or a wait for the anchor
converter's calibration. -/
inductive AncPhase where
  | idle
  | delay
  | convert
  | check
  | calWait
deriving DecidableEq, Repr

/-- The anchor unit beside its registers. `tbl` holds the entry words without CUR_RANGE and `cur` the CUR_RANGE steps (R475). `word` and
`range` are those of the entry in progress, `left` the conversions it still makes, `cfg` the channel settings of the conversion
(R486), `rewritten` says that the table's word of the entry in progress has been written since it started (R486); `checked` is the cycle
of each channel's last check, `broke` names the channels that became BROKEN and were not checked since (R480); `valid` is the cycle of a
channel's last valid conversion. -/
structure Anchor where
  tbl : Smap Nat := []
  cur : Smap Nat := []
  phase : AncPhase := .idle
  since : Nat := 0
  word : Nat := 0
  range : Nat := 0
  left : Nat := 0
  beyond : Bool := false
  maxAbs : Nat := 0
  cfg : List Nat := []
  spoilt : Bool := false
  checkCh : Nat := 0
  wasBroken : Bool := false
  tripped : Bool := false
  rewritten : Bool := false
  checked : Smap Nat := []
  broke : List Nat := []
  valid : Smap Nat := []
  stale : List Nat := []
  startAt : Nat := 0
deriving DecidableEq, Repr

/-! ### Bobbin (chapter 17) -/

/-- One context beside its registers. `pos` counts the items of the frame in progress and `cols` is its c; `chunk` holds shaped words that
wait for their chunk to fill; `block` is the input of the block in progress and `window` the bytes before it, oldest first; `bits`
counts the stream bits the encoder has emitted, `out` holds the buffered bytes oldest first, `part` and `partN` the bits of the
last, unfinished byte. -/
structure BobCtx where
  pos : Nat := 0
  cols : Nat := 1
  chunk : List Nat := []
  block : List Nat := []
  window : List Nat := []
  bits : Nat := 0
  held : List (Nat × Nat) := []
  out : List Nat := []
  part : Nat := 0
  partN : Nat := 0
  closing : Nat := 0
  flush : Bool := false
  lastIn : Nat := 0
  idleDone : Bool := true
  slot : Nat := 0
  finalRec : Option (List Nat) := none
deriving DecidableEq, Repr

/-! ### Calibration (chapter 18) -/

/-- What is known of one object (R524, R527): where its values come from, when and under what conditions they were taken, the outcome of
its last pair with the DISAGREEs in a row, and the values that stand in no register: a converter's aperture trim, stage
selections and bias cell, the selected reference buffer, or the anchor converter's offsets and gains. -/
structure CalRec where
  source : Nat := 0
  borrowed : Bool := false
  time : Nat := 0
  conv : Nat := 0
  eng : Nat := 0
  temp : List Int := [0, 0, 0, 0]
  supply : List Nat := [0, 0, 0, 0, 0]
  last : Nat := 0
  streak : Nat := 0
  vals : List Int := []
deriving DecidableEq, Repr

/-- The result of one run (R518): whether it failed, its selections, its quantities in the order of R519, and a replica. -/
structure CalOut where
  failed : Bool := false
  sel : List Nat := []
  vals : List Int := []
  replica : List (Int × Int) := []
deriving DecidableEq, Repr

/-- A pair in progress (R519): the tolerances it started with, the results so far, and the picks a replica run captures, oldest first.
`since` is when its run started, `boot` says that it is one of bring-up (R526), and `before` holds the corrections of a converter that were
in force before the pair (R62). -/
structure CalPair where
  kind : Nat
  idx : Nat
  byCmd : Bool
  since : Nat
  tol : List Nat := []
  first : Option CalOut := none
  second : Option CalOut := none
  caps : List PortPick := []
  boot : Bool := false
  before : List Nat := []
deriving DecidableEq, Repr

/-- A flash save in progress (R529): the copy written (1 for A, 2 for B), its generation and its bytes. -/
structure CalSaveRun where
  copy : Nat
  seq : Nat
  bytes : List Nat
deriving DecidableEq, Repr

/-- Calibration beside its registers. `queue` holds the queued objects as (kind, index), the first `cmdN` of them by CAL_RUN; records
stand under 256 × kind + index; `hot` marks the objects whose sensor lay beyond the trigger at the last reading, `retry` the
cycle of a repeat after a DISAGREE, `chk` and `chkFail` the in-place checks, `line` the timing line that is being recalibrated through
line 28 (R453). -/
structure Cal where
  queue : List (Nat × Nat) := []
  cmdN : Nat := 0
  pairs : List CalPair := []
  recs : Smap CalRec := []
  hot : Smap Bool := []
  retry : Smap Nat := []
  chk : Smap Nat := []
  chkFail : Smap Nat := []
  seq : Nat := 0
  save : Option CalSaveRun := none
  lastSave : Option Nat := none
  line : Option Nat := none
deriving DecidableEq, Repr

/-! ### Resets, bring-up and environment (chapters 19 and 20) -/

/-- The service unit beside its registers. `inReset` says that a reset is asserted, `sample` that power-on reset or PERST_N is among those,
so that the release samples the straps (R541); `hold` that the bring-up is one under R544; `tap` is the instruction loaded in the test access
port, `cells` what was preloaded for LAUNCH (bits 15 to 0), CODE_A (31 to 16), CODE_B (47 to 32) and SRCEN (48). `temps` are the last readings of the die sensors (0.01 °C) and `supplies` those of the supplies (mV); `hotRun` counts readings at
TEMP_FAULT or more; `supplyOut` and `supplyWarn` are masks of supplies outside their range and their warning band. -/
structure Service where
  inReset : Bool := false
  sample : Bool := false
  hold : Bool := false
  tap : TapInstr := .idcode
  cells : BitVec 49 := 0
  hotRun : Nat := 0
  tempWarned : Bool := false
  temps : List Int := [0, 0, 0, 0]
  supplies : List Nat := [0, 0, 0, 0, 0]
  supplyOut : Nat := 0
  supplyWarn : Nat := 0
deriving DecidableEq, Repr

/-! ### The whole machine -/

/-- The state of the device. `pending` is the queue of commands (first in, first out); `now` is the raw timebase in core cycles
(R33); `free` counts the free values drawn; `csr` holds every register field under `Fld.key`, an unlisted one at its reset
value; `inf` holds, under the same keys, the values in force of staged and latched fields; `out` is what has left the device. -/
structure State where
  pending : List Instr := []
  now : Nat := 0
  free : Nat := 0
  csr : Smap Nat := []
  inf : Smap Nat := []
  out : List Output := []
  tod : Tod := {}
  ports : Ports := {}
  reed : Reed := {}
  gauge : Gauge := {}
  heddle : Heddle := {}
  spc : Spectral := {}
  trd : Treadle := {}
  src : Source := {}
  cal : Cal := {}
  warp : Warp := {}
  queues : Smap WQueue := []
  host : HostIf := {}
  rings : List Ring := []
  sht : Shuttle := {}
  dram : Dram := {}
  tsu : Tsu := {}
  anc : Anchor := {}
  bob : Smap BobCtx := []
  sys : Service := {}
deriving DecidableEq, Repr

/-- The items of the STATE record of the release (R545, R558), at time 0: RESET to BRINGUP. -/
def resetRecord : List Nat := [0x600900120000, 0, 0, 0x300, 0, 0]

/-- The device when power-on reset is released: every field of every store at its reset value (R539 to R541), but for what the
transition from RESET to BRINGUP leaves: event 9 and its STATE record in queue 56 (R545, R558). No command waits. -/
def State.reset : State :=
  { csr := [(EVT_RAW_RAW.key 0, 2 ^ 9)],
    queues := [(56, {
      items := resetRecord.zipIdx.map (fun e =>
        { pri := 8, word := encodeWord e.1, slot := (Config.poolSlot 56 0 + e.2) % 0x200000, seq := e.2 }), seq := 6 })] }

end Sys2Proof.Machine
end

