-- ==== Sys2Proof/Machine/Ops.lean ====
section
/-!
DEFINITION. The named operations over State that every family of commands shares: register fields, free values, time, events
and their messages, Weft queues, the records of chapter 12, and the completion of commands.
-/

set_option autoImplicit false

namespace Sys2Proof.Machine

/-! ### Register fields (R2, R3) -/

/-- The value of a field of instance `i`. -/
def rd (f : Fld) (i : Nat) (s : State) : Nat := s.csr.get (f.rst i) (f.key i)

/-- A field as a bit. -/
def rdB (f : Fld) (i : Nat) (s : State) : Bool := rd f i s % 2 = 1

/-- A field as a two's-complement number of its width. -/
def rdZ (f : Fld) (i : Nat) (s : State) : Int := sx f.width (rd f i s)

/-- The device sets a field of instance `i`, cut to its width. -/
def wr (f : Fld) (i : Nat) (v : Nat) (s : State) : State :=
  { s with csr := s.csr.put (f.rst i) (f.key i) (v % 2 ^ f.width) }

/-- The device sets a flag. -/
def wrB (f : Fld) (i : Nat) (b : Bool) (s : State) : State := wr f i (b2n b) s

/-- The device sets a signed field. -/
def wrZ (f : Fld) (i : Nat) (z : Int) (s : State) : State := wr f i (ux f.width z) s

/-- A counter moves on by `n` and saturates at its all-ones value. -/
def bumpBy (f : Fld) (i n : Nat) (s : State) : State := if n = 0 then s else wr f i (satU f.width (rd f i s + n)) s

/-- A counter counts one and saturates. -/
def bump (f : Fld) (i : Nat) (s : State) : State := bumpBy f i 1 s

/-- The value in force of a field that is staged or latched (R18, R54, R80). -/
def rdI (f : Fld) (i : Nat) (s : State) : Nat := s.inf.get (f.rst i) (f.key i)

/-- A value comes into force. -/
def wrI (f : Fld) (i : Nat) (v : Nat) (s : State) : State :=
  { s with inf := s.inf.put (f.rst i) (f.key i) (v % 2 ^ f.width) }

/-- The written value of a field comes into force. -/
def enforce (f : Fld) (i : Nat) (s : State) : State := wrI f i (rd f i s) s

/-- A field's place in a written or read 64-bit value. -/
def Fld.ofQ (f : Fld) (v : Qword) : Nat := slice v.toNat f.lo f.width

/-- The write of one field by its type: RW and RWS take the value, W1C clears the bits written 1, the others ignore it (R3). -/
def fldWrite (f : Fld) (i : Nat) (v : Qword) (s : State) : State :=
  match f.ty with
  | .rw => wr f i (f.ofQ v) s
  | .rws => wr f i (f.ofQ v) s
  | .w1c => wr f i (rd f i s - Nat.land (rd f i s) (f.ofQ v)) s
  | .ro => s
  | .wo => s
  | .rc => s

/-- The write of every field of a register by its type. -/
def regWrite (r : Reg) (i : Nat) (v : Qword) (s : State) : State :=
  r.fields.foldl (fun s f => fldWrite f i v s) s

/-- What one field shows to a read: WO reads as zero (R3). -/
def fldRead (f : Fld) (i : Nat) (s : State) : Nat :=
  match f.ty with
  | .wo => 0
  | .rw => place (rd f i s) f.lo f.width
  | .ro => place (rd f i s) f.lo f.width
  | .w1c => place (rd f i s) f.lo f.width
  | .rc => place (rd f i s) f.lo f.width
  | .rws => place (rd f i s) f.lo f.width

/-- The fields of a register put together. -/
def regShow (r : Reg) (i : Nat) (s : State) : Nat := sumN (r.fields.map (fun f => fldRead f i s))

/-- A read clears the RC fields of a register (R3). -/
def regClearRc (r : Reg) (i : Nat) (s : State) : State :=
  r.fields.foldl (fun s f => if f.ty = .rc then wr f i 0 s else s) s

/-! ### Free values and time -/

/-- Draw a free value. -/
def draw (s : State) : Nat × State := (Config.free s.free, { s with free := s.free + 1 })

/-- Draw a free value below a bound. -/
def drawBelow (n : Nat) (s : State) : Nat × State := (Config.free s.free % n, { s with free := s.free + 1 })

/-- Draw a free bit. -/
def drawBit (s : State) : Bool × State := (Config.free s.free % 2 = 1, { s with free := s.free + 1 })

/-- Time passes to a core cycle, never backwards. -/
def advanceTo (t : Nat) (s : State) : State := { s with now := maxN s.now t }

/-- One core cycle passes. -/
def idle (s : State) : State := { s with now := s.now + 1 }

/-- Core cycles of one microsecond. -/
def ccUs : Nat := 1000

/-- Core cycles of one millisecond. -/
def ccMs : Nat := 1000000

/-- Core cycles of one second. -/
def ccSec : Nat := 1000000000

/-- Units of 1/256 ns in one second. -/
def secUnits : Nat := 256000000000

/-- The frequency correction in force (R34), from its register (R43). -/
def freqOf (s : State) : Rat := mkRat (rdZ SYS_DISC_FREQ_FREQ 0 s) (2 ^ 48)

/-- TAI at a raw time, both in 1/256 ns, at full resolution (R34). -/
def taiExact (raw : Nat) (s : State) : Rat :=
  s.tod.tU + ((raw : Rat) - (s.tod.rawU : Rat)) * (1 + freqOf s + s.tod.slew)

/-- TAI at a raw time rounded to 1/256 ns, ties away from zero (R34). -/
def taiOf (raw : Nat) (s : State) : Int := ratRound (taiExact raw s)

/-- The high timestamp word of a TAI time (R35). -/
def tsHigh (tai : Int) (synth : Bool) (s : State) : Nat :=
  place (tai / (secUnits : Int)).toNat 8 40 + place (rd SYS_DISC_STAT_VALID 0 s) 7 1
    + place (rd SYS_DISC_STAT_LOCKED 0 s) 6 1 + place (rd SYS_DISC_STAT_HOLDOVER 0 s) 5 1 + place (b2n synth) 4 1

/-- The low timestamp word of a TAI time, without the flags a stamp adds (R35). -/
def tsLow (tai : Int) (src : Nat) : Nat :=
  let u := (tai % (secUnits : Int)).toNat
  place (u / 256) 18 30 + place (u % 256) 10 8 + place src 5 5

/-- SRC of a register snapshot or a device event (R36). -/
def srcInternal : Nat := 0x18

/-- SRC of a computed time (R36). -/
def srcNone : Nat := 0x1F

/-- The timestamp of the present instant (R35, SRC = 11000): high word and low word. -/
def nowStamp (s : State) : Nat × Nat :=
  (tsHigh (taiOf (256 * s.now) s) false s, tsLow (taiOf (256 * s.now) s) srcInternal)

/-- What leaves the device is kept newest first. -/
def emit (o : Output) (s : State) : State := { s with out := o :: s.out }

/-- What the boundary cells of LAUNCH, CODE_A, CODE_B and SRCEN drive, where the instruction loaded makes them drive: the preloaded values,
or nothing; low while INTLK_N is low (R571). -/
def tapPins (s : State) : State :=
  let low := s.src.intlkLow
  match s.sys.tap with
  | .extest => emit (.cells (some (if low then 0 else s.sys.cells))) s
  | .clamp => emit (.cells (some (if low then 0 else s.sys.cells))) s
  | .highz => emit (.cells (if low then some 0 else none)) s
  | .bypass => s
  | .sample => s
  | .idcode => s

/-- While a reset is asserted and the link stays trained, a read returns zero and a write is discarded (R540). -/
def resetAccess (len : Nat) (read : Bool) (s : State) : State :=
  if read && decide (rd HST_STAT_LINK_WIDTH 0 s ≠ 0) then emit (.readBytes len 0) s else s

/-! ### Events, summaries and MSI-X (R348, R349) -/

/-- The vector of a source. -/
def evtVecOf (e : Nat) (s : State) : Nat := rd { EVT_MAP_VEC0 with lo := 8 * (e % 8) } (e / 8) s

/-- The summary of a vector: an enabled source mapped to it has its flag set. -/
def summary (v : Nat) (s : State) : Bool :=
  (List.range 4).any (fun i =>
    let m := Nat.land (rd EVT_RAW_RAW i s) (rd EVT_EN_EN i s)
    m ≠ 0 && (List.range 64).any (fun b => bitOf m b && evtVecOf (64 * i + b) s = v))

/-- The summaries of all 32 vectors. -/
def summaries (s : State) : List Bool := (List.range 32).map (fun v => summary v s)

/-- The MSI-X entry of a vector. -/
def msixOf (v : Nat) (s : State) : MsixVec := s.host.msix.get {} v

/-- An MSI-X entry is replaced. -/
def setMsix (v : Nat) (m : MsixVec) (s : State) : State :=
  { s with host := { s.host with msix := s.host.msix.put {} v m } }

/-- Whether a vector is masked in the table or by Function Mask. -/
def msixMasked (v : Nat) (s : State) : Bool := s.host.funcMask || (msixOf v s).ctrl % 2 = 1

/-- A vector's message falls due: held off, marked pending while masked, or sent (R349). -/
def sendVec (v : Nat) (s : State) : State :=
  let m := msixOf v s
  let held := match m.holdUntil with
    | some t => decide (s.now < t)
    | none => false
  if held then setMsix v { m with due := true } s
  else if msixMasked v s then setMsix v { m with pend := true } s
  else
    let h := rd EVT_CTL_HOLDOFF 0 s
    emit (.msix v m.addr m.data)
      (setMsix v { m with pend := false, due := false, holdUntil := if h = 0 then none else some (s.now + h * ccUs) } s)

/-- Every vector whose summary rose between two states sends. -/
def sendRises (old new : State) : State :=
  (List.range 32).foldl (fun s v => if summary v new && !(summary v old) then sendVec v s else s) new

/-- An event is raised: its flag is set, and its vector sends when that makes its summary rise (R348, R349). -/
def raise (e : Nat) (s : State) : State :=
  let r := rd EVT_RAW_RAW (e / 64) s
  let s' := wr EVT_RAW_RAW (e / 64) (setBitTo r (e % 64) true) s
  if bitOf (rd EVT_EN_EN (e / 64) s) (e % 64) && !(summary (evtVecOf e s) s) then sendVec (evtVecOf e s) s' else s'

/-! ### The Warp store: words, the pool's words, and the accounting of a read (R296 to R304) -/

/-- The number of quads of the store. -/
def warpQuads : Nat := 6291456

/-- The number of words of the store. -/
def warpWords : Nat := 0x1800000

/-- The bank of a quad. -/
def bankOfQuad (q : Nat) : Nat := q % 128

/-- The row of a quad in its bank. -/
def rowOfQuad (q : Nat) : Nat := q / 8192 % 1024

/-- The key of a bank's row. -/
def rowKey (bank row : Nat) : Nat := 768 * bank + row

/-- A queue's contents. -/
def queueOf (q : Nat) (s : State) : WQueue := s.queues.get {} q

/-- A queue's contents are replaced. -/
def setQueue (q : Nat) (w : WQueue) (s : State) : State := { s with queues := s.queues.put {} q w }

/-- The items of the pool. -/
def poolSize : Nat := 0x200000

/-- The first word of the pool (R297). -/
def poolBase : Nat := 0x1400000

/-- Whether a word lies in the pool. -/
def inPool (a : Nat) : Bool := decide (poolBase ≤ a ∧ a < poolBase + poolSize)

/-- The item that occupies a slot of the pool, with its queue. -/
def poolItem (k : Nat) (s : State) : Option (Nat × QItem) :=
  s.queues.findSome? (fun e => (e.2.items.find? (fun it => it.slot = k)).map (fun it => (e.1, it)))

/-- The stored form of a slot's word: its item's, or what the last item left there. -/
def poolStored (k : Nat) (s : State) : Stored :=
  match poolItem k s with
  | some e => e.2.word
  | none => s.warp.pool.get bareWord k

/-- A stored form is put into a slot's word. -/
def poolPut (k : Nat) (v : Stored) (s : State) : State :=
  match poolItem k s with
  | some e =>
    setQueue e.1 { queueOf e.1 s with
      items := (queueOf e.1 s).items.map (fun it => if it.slot = k then { it with word := v } else it) } s
  | none => { s with warp := { s.warp with pool := s.warp.pool.put bareWord k v } }

/-- The item that holds a word, as its queue and number; none outside the pool and in a free slot. -/
def wordOwner (a : Nat) (s : State) : Option (Nat × Nat) :=
  if inPool a then (poolItem (a - poolBase) s).map (fun e => (e.1, e.2.seq)) else none

/-! The requesters (R326). -/

def reqHDL : Nat := 0
def reqSPC : Nat := 1
def reqWFQ : Nat := 2
def reqENG : Nat := 3
def reqBAR2 : Nat := 4
def reqTSL : Nat := 5

/-- A reader that R301 does not name: its bare reads are not counted. `k` is the code that WRP_ERR_ADDR shows for it. -/
def reqOther (k : Nat) : Nat := 8 + k

/-- Whether the bare reads of a requester are counted (R301): all that R326 codes, but the Teasel. -/
def countsBare (req : Nat) : Bool := decide (req < reqTSL)

/-- The accounting of an uncorrectable Warp word (R300, R326). -/
def warpUe (req word : Nat) (s : State) : State :=
  raise 114 (wr WRP_ERR_ADDR_WORD 0 word (wr WRP_ERR_ADDR_REQ 0 (req % 8) (bump WRP_CNT2_UE 0 s)))

/-- The pass time of R304 in cc. -/
def passTime (s : State) : Nat := warpQuads * maxN 1 (rd WRP_CTL_SCRUB_GAP 0 s)

/-- Event 117, once per row (R306). -/
def noSpareNotice (a : Nat) (s : State) : State :=
  let k := rowKey (bankOfQuad (a / 4)) (rowOfQuad (a / 4))
  if k ∈ s.warp.noSpareRows then s
  else raise 117 { s with warp := { s.warp with noSpareRows := s.warp.noSpareRows ++ [k] } }

/-- Spare rows left in a bank. -/
def sparesLeft (bank : Nat) (s : State) : Nat := 8 - s.warp.sparesUsed.get 0 bank

/-- A word is declared weak (R304 to R306): up to 8 declarations wait behind a running repair. -/
def declareWeak (a : Nat) (s : State) : State :=
  let s := bump WRP_CNT2_WEAK 0 (raise 115 s)
  let room := if s.warp.repair.isSome then 8 else 9
  if rdB WRP_CTL_AUTO_REPAIR 0 s && decide (sparesLeft (bankOfQuad (a / 4)) s ≠ 0)
      && decide (s.warp.declared.length < room) then
    { s with warp := { s.warp with declared := s.warp.declared ++ [a] } }
  else noSpareNotice a s

/-- A correction enters the history of the last 256; the word is weak when the history holds a recent one of it (R304). -/
def noteCorrected (a : Nat) (s : State) : State :=
  let weak := s.warp.history.any (fun h => decide (h.1 = a ∧ s.now < h.2 + passTime s))
  let s := { s with warp := { s.warp with history := ((a, s.now) :: s.warp.history).take 256 } }
  if weak then declareWeak a s else s

/-- A write-back is due (R302). -/
def wbDue (a : Nat) (v : Stored) (s : State) : State :=
  { s with warp := { s.warp with
      wbs := s.warp.wbs.filter (fun w => w.word ≠ a) ++ [{ word := a, value := v, owner := wordOwner a s }] } }

/-- A bank's count of corrected reads (R328). -/
def bankCount (b : Nat) (s : State) : State :=
  { s with warp := { s.warp with bankCorr := s.warp.bankCorr.put 0 b (satU 16 (s.warp.bankCorr.get 0 b + 1)) } }

/-- The bank of a word counts a corrected read. -/
def bankCorrected (a : Nat) (s : State) : State := bankCount (bankOfQuad (a / 4)) s

/-- The accounting of one read (R300, R301). -/
def warpCount (req a : Nat) (r : WRead) (s : State) : State :=
  match r with
  | .clean _ => s
  | .corrected _ => bankCorrected a (bump WRP_CNT_CORR 0 s)
  | .bare => if countsBare req then bump WRP_CNT_BARE_READS 0 s else s
  | .bareUpset => bump WRP_CNT2_BARE_FIX 0 (if countsBare req then bump WRP_CNT_BARE_READS 0 s else s)
  | .bad => warpUe req a s

/-- What a read sets in motion: the write-back and the history. -/
def warpFollow (a : Nat) (r : WRead) (s : State) : State :=
  match r with
  | .clean _ => s
  | .corrected d => noteCorrected a (wbDue a (encodeWord d) s)
  | .bare => s
  | .bareUpset => wbDue a bareWord s
  | .bad => s

/-! ### Weft queues (R312 to R321) -/

/-- COUNT of a queue. -/
def qCount (q : Nat) (s : State) : Nat := (queueOf q s).items.length

/-- Free items of the pool. -/
def poolFree (s : State) : Nat := poolSize - sumN (s.queues.map (fun e => e.2.items.length))

/-- Unreserved free items (R314): free items less what every queue may still fill of its reserve. -/
def freeUnres (s : State) : Int :=
  (poolFree s : Int) + (sumN (s.queues.map (fun e => minN (rd WFQ_CFG_RES e.1 s * 512) e.2.items.length)) : Int)
    - ((rd WFQ_POOL_CTL_RES_SUM 0 s * 512 : Nat) : Int)

/-- The room of a queue (R314). -/
def qRoom (q : Nat) (s : State) : Nat :=
  let c := qCount q s
  let cap := rd WFQ_CFG_CAP q s
  let byPool := (((rd WFQ_CFG_RES q s * 512 - c : Nat) : Int) + freeUnres s).toNat
  if cap = 0 then byPool else minN (cap - c) byPool

/-- The event of a queue's level and stale notices (R317, R318). -/
def qEvent (q : Nat) : Nat := 128 + q / 4

/-- A crossing of LEVEL from below, tested on two counts (R317, R366). -/
def levelCross (q before after : Nat) (s : State) : State :=
  let l := rd WFQ_CFG_LEVEL q s
  if l ≠ 0 ∧ before < l ∧ l ≤ after then raise (qEvent q) (wr WFQ_STAT_LVL q 1 s) else s

/-- Event 120 when the unreserved free items fell below LOW (R321). -/
def poolLowCheck (before : Int) (s : State) : State :=
  let low : Int := rd WFQ_POOL_CTL_LOW 0 s
  if low ≤ before ∧ freeUnres s < low then raise 120 s else s

/-- The stale time of a queue in cc, where it has one (R318, R330: 22 to 31 act as 21). -/
def staleCc (q : Nat) (s : State) : Option Nat :=
  let st := rd WFQ_CFG_STALE q s
  if st = 0 then none else some (2 ^ (minN st 21 - 1) * ccUs)

/-- The stale timer's next start (R318). -/
def staleStart (q : Nat) (s : State) : Option Nat := (staleCc q s).map (fun t => s.now + t)

/-- An item takes its place behind every item of its priority or a higher one (R313). -/
def insertItem (it : QItem) : List QItem → List QItem
  | [] => [it]
  | x :: t => if x.pri < it.pri then it :: x :: t else x :: insertItem it t

/-- The slots of the pool that items occupy. -/
def poolSlots (s : State) : List Nat := s.queues.flatMap (fun e => e.2.items.map (·.slot))

/-- The pool slot of the n-th item pushed to a queue: the one the device would give it, or the first free one after that. Which slot an item
gets is free (log entry 1). -/
def poolAlloc (q n : Nat) (s : State) : Nat :=
  let used := poolSlots s
  let k := ((List.range (used.length + 1)).find? (fun k => !(used.contains ((Config.poolSlot q n + k) % poolSize)))).getD 0
  (Config.poolSlot q n + k) % poolSize

/-- The stored form of a word that enters a pool slot: an armed injection into it is applied (R311). -/
def poolStore (slot d : Nat) (s : State) : Stored × State :=
  if rdB WRP_INJ_ADDR_ARM 0 s && decide (rd WRP_INJ_ADDR_WORD 0 s = poolBase + slot) then
    (encodeWord d ^^^ BitVec.ofNat 56 (rd WRP_INJ_MASK_FLIP 0 s), wr WRP_INJ_ADDR_ARM 0 0 s)
  else (encodeWord d, s)

/-- One item enters a queue that has been found to have room. -/
def pushOne (q pri d : Nat) (s : State) : State :=
  let slot := poolAlloc q (queueOf q s).seq s
  let p := poolStore slot d s
  let qu := queueOf q p.2
  setQueue q { qu with
    items := insertItem { pri := pri, word := p.1, slot := slot, seq := qu.seq } qu.items, seq := qu.seq + 1,
    staleDue := if qu.items.isEmpty then staleStart q p.2 else qu.staleDue } p.2

/-- Items enter a queue in one cycle: at one priority, one test of LEVEL and of the pool threshold (R317, R321, R369). -/
def pushItems (q pri : Nat) (ds : List Nat) (s : State) : State :=
  let before := qCount q s
  let fu := freeUnres s
  let s := ds.foldl (fun s d => pushOne q pri d s) s
  poolLowCheck fu (levelCross q before (qCount q s) s)

/-- A whole record for one of the queues 48 to 59 is pushed when the room covers it, else discarded and counted (R369). -/
def pushRecord (q : Nat) (ds : List Nat) (s : State) : State :=
  if ds.length ≤ qRoom q s then
    pushItems q 8 ds (setQueue q { queueOf q s with lostRecs := 0 } s)
  else
    setQueue q { queueOf q s with lostRecs := (queueOf q s).lostRecs + 1 } (bumpBy WFQ_STAT_LOST q ds.length s)

/-- The outcome of a removal: the item with how it read, what stays, the items that left the queue, the uncorrectable ones among them, and how
many were discarded (R319). -/
structure PopResult where
  got : Option (QItem × WRead)
  rest : List QItem
  gone : List QItem
  bad : List QItem
  lost : Nat
deriving DecidableEq, Repr

/-- The first readable item in queue order. An uncorrectable word is discarded and the next item read; an uncorrectable link
discards every item from there on (R319). -/
def popGo : List QItem → List QItem → PopResult
  | [], bad => { got := none, rest := [], gone := bad, bad := bad, lost := bad.length }
  | it :: t, bad =>
    if it.linkBad then { got := none, rest := [], gone := bad ++ it :: t, bad := bad, lost := bad.length + 1 + t.length }
    else if decodeWord it.word = .bad then popGo t (bad ++ [it])
    else { got := some (it, decodeWord it.word), rest := t, gone := bad ++ [it], bad := bad, lost := bad.length }

/-- The accounting of how an item read, and what that sets in motion (R300 to R304, R319). -/
def popAccount (q : Nat) (it : QItem) (r : WRead) (s : State) : State :=
  let a := poolBase + it.slot
  let s := warpFollow a r (warpCount reqWFQ a r s)
  match r with
  | .clean _ => s
  | .corrected _ => bump WFQ_STAT_CORR q s
  | .bare => s
  | .bareUpset => s
  | .bad => s

/-- Pending write-backs when an item leaves its slot: those of a word that the item's push has overwritten since are cancelled (R302); its
own go to the word that it leaves. -/
def wbLeave (q : Nat) (it : QItem) (l : List WriteBack) : List WriteBack :=
  l.filterMap (fun w =>
    if w.word ≠ poolBase + it.slot then some w
    else if w.owner = some (q, it.seq) then some { w with owner := none } else none)

/-- The words of items that left their queue stay in their slots. -/
def poolLeave (q : Nat) (l : List QItem) (s : State) : State :=
  { s with warp := { s.warp with
    pool := l.foldl (fun m it => m.put bareWord it.slot it.word) s.warp.pool,
    wbs := l.foldl (fun w it => wbLeave q it w) s.warp.wbs } }

/-- Repeat an operation. -/
def times {α : Type} (n : Nat) (f : α → α) (a : α) : α :=
  match n with
  | 0 => a
  | k + 1 => times k f (f a)

/-- Remove the item R313 names: its priority and data, or none from an empty queue. Every removal is a read (R318). -/
def popItem (q : Nat) (s : State) : Option (Nat × Nat) × State :=
  let qu := queueOf q s
  if qu.items.isEmpty then (none, s)
  else
    let r := popGo qu.items []
    let s := poolLeave q r.gone (setQueue q { qu with items := r.rest, staleDue := staleStart q s } s)
    let s := r.bad.foldl (fun s it => warpUe reqWFQ (poolBase + it.slot) s) s
    let s := if r.lost = 0 then s else raise 121 (bumpBy WFQ_STAT_UE q r.lost s)
    match r.got with
    | none => (none, s)
    | some (it, w) => (some (it.pri, w.data), popAccount q it w s)

/-! ### Records (R373, R375) -/

/-- An event record of queue 56. -/
def eventRecord (kind ev p pick a b : Nat) (s : State) : State :=
  let (hi, lo) := nowStamp s
  let lost := satU 8 (queueOf 56 s).lostRecs
  pushRecord 56 [place kind 40 8 + place ev 32 8 + place lost 24 8 + place p 0 24, pick % 2 ^ 48, hi, lo,
    a % 2 ^ 48, b % 2 ^ 48] s

/-- The code of ORIGIN. -/
def originCode : Origin → Nat
  | .pcie => 0
  | .mgmt => 1
  | .draft => 2
  | .engine => 3
  | .device => 4

/-- The blocks of R375 that log. -/
def blkSYS : Nat := 0x00
def blkHST : Nat := 0x01
def blkTRD : Nat := 0x02
def blkPRT : Nat := 0x03
def blkCNV : Nat := 0x04
def blkRED : Nat := 0x05
def blkGAU : Nat := 0x06
def blkHDL : Nat := 0x07
def blkSPC : Nat := 0x08
def blkSHT : Nat := 0x09
def blkWRP : Nat := 0x0A
def blkWFQ : Nat := 0x0B
def blkDRM : Nat := 0x0C
def blkSRC : Nat := 0x0D
def blkTSU : Nat := 0x0E
def blkANC : Nat := 0x0F
def blkBOB : Nat := 0x10
def blkCAL : Nat := 0x11
def blkEVT : Nat := 0x12

/-- The block whose registers lie at an offset of BAR0. -/
def blockOf (off : Nat) : Nat :=
  if off < 0x400 then blkSYS else if off < 0x800 then blkHST else if off < 0xC00 then blkTRD
  else if off < 0x1400 then blkPRT else if off < 0x1C00 then blkCNV else if off < 0x2000 then blkRED
  else if off < 0x2400 then blkGAU else if off < 0x2800 then blkHDL else if off < 0x2C00 then blkSPC
  else if off < 0x3000 then blkSHT else if off < 0x3200 then blkWRP else if off < 0x4400 then blkWFQ
  else if off < 0x4800 then blkDRM else if off < 0x4C00 then blkSRC else if off < 0x5000 then blkTSU
  else if off < 0x5400 then blkANC else if off < 0x5800 then blkBOB else if off < 0x5C00 then blkCAL
  else if off < 0x6000 then blkEVT else blkHST

/-- A violation-log entry (R375) and its event 20 (R350). -/
def violate (blk cls : Nat) (org : Origin) (detail a0 a1 : Nat) (s : State) : State :=
  let (hi, lo) := nowStamp s
  let lost := satU 8 (queueOf 57 s).lostRecs
  raise 20 (pushRecord 57 [place blk 40 8 + place cls 32 8 + place lost 24 8 + place (originCode org) 20 4 + place detail 0 16,
    a0 % 2 ^ 48, a1 % 2 ^ 48, rd SYS_PICK_NUM_NUM 0 s, hi, lo] s)

/-- A register write ignored or discarded (class WRITE_IGNORED, R376), eight bytes long. -/
def writeIgnored (org : Origin) (off : Nat) (v : Qword) (s : State) : State :=
  violate (blockOf off) 0x01 org 8 off (v.toNat % 2 ^ 48) s

/-- The fields of a write that a condition locks keep their value, and a change of one writes a WRITE_IGNORED entry (R577). -/
def guardedWrite (org : Origin) (r : Reg) (i : Nat) (locked : List Fld) (v : Qword) (s : State) : State :=
  let bad := locked.any (fun f => decide (f.ofQ v ≠ rd f i s))
  let t := (r.fields.filter (fun f => !(locked.any (fun g => decide (g.lo = f.lo))))).foldl (fun t f => fldWrite f i v t) s
  if bad then writeIgnored org (r.off i) v t else t

/-- A request write refused by its unit (class REFUSED, R376), with the unit's reason. -/
def requestRefused (org : Origin) (off reason : Nat) (v : Qword) (s : State) : State :=
  violate (blockOf off) 0x02 org reason off (v.toNat % 2 ^ 48) s

/-! ### Commands in flight (R338 to R340) -/

/-- The completion of a command. -/
def cplOf (c : Cmd) (status detail result : Nat) : Cpl :=
  { opcode := c.opcode, tag := c.tag, stream := c.stream, mbx := c.mbx, slot := c.slot,
    status := status, detail := detail, result := result, inFlight := true }

/-- Every running command that matches ends with one outcome; its completion then waits to be written. -/
def finishWhere (p : Cmd → Bool) (status detail result : Nat) (s : State) : State :=
  let hit := fun c => decide (c.phase = .running) && p c
  { s with host := { s.host with
      cplWait := s.host.cplWait ++ (s.host.cmds.filter hit).map (fun c => cplOf c status detail result),
      cmds := s.host.cmds.map (fun c => if hit c then { c with phase := .finished } else c) } }

/-- The running commands of one opcode that wait for one thing end. -/
def finishCmd (opcode aux status detail result : Nat) (s : State) : State :=
  finishWhere (fun c => decide (c.opcode = opcode ∧ c.aux = aux)) status detail result s

/-- A running command is changed in place. -/
def mapCmds (f : Cmd → Cmd) (s : State) : State :=
  { s with host := { s.host with cmds := s.host.cmds.map f } }

/-- The units a mask command still waits for. -/
def maskOpen (c : Cmd) : Nat :=
  let done := Nat.lor c.got (Nat.lor c.refused c.cancelled)
  sumN ((List.range 32).map (fun i => if bitOf (c.ops.getD 0 0) i && !(bitOf done i) then 2 ^ i else 0))

/-- The completion of a mask command: the masks of the units whose start was cancelled and refused (R341, R346). -/
def maskCpl (c : Cmd) : Cpl :=
  let start := c.opcode = 0x10 ∨ c.opcode = 0x12
  cplOf c (if start ∧ (c.refused ≠ 0 ∨ c.cancelled ≠ 0) then 1 else 0) 0
    (if c.opcode = 0x10 then c.cancelled * 2 ^ 16 + c.refused else if c.opcode = 0x12 then c.cancelled * 2 ^ 32 + c.refused else 0)

/-- Every running mask command whose units have all come to an outcome ends. -/
def maskFinish (s : State) : State :=
  let hit := fun (c : Cmd) => decide (c.phase = .running ∧ 0x10 ≤ c.opcode ∧ c.opcode ≤ 0x13 ∧ maskOpen c = 0)
  { s with host := { s.host with
      cplWait := s.host.cplWait ++ (s.host.cmds.filter hit).map maskCpl,
      cmds := s.host.cmds.map (fun c => if hit c then { c with phase := .finished } else c) } }

/-- The mask commands of one opcode that name a unit learn its outcome. -/
def noteUnit (opcode i : Nat) (f : Cmd → Cmd) (s : State) : State :=
  maskFinish (mapCmds (fun c => if c.opcode = opcode ∧ c.phase = .running ∧ bitOf (c.ops.getD 0 0) i then f c else c) s)

/-- A unit a mask command names has come where the command wants it. -/
def noteGot (opcode i : Nat) (s : State) : State := noteUnit opcode i (fun c => { c with got := setBitTo c.got i true }) s

/-- Whether a unit has come to its outcome in a mask command. -/
def Cmd.settled (c : Cmd) (i : Nat) : Bool := bitOf c.got i || bitOf c.refused i

/-- A unit's deferred start was cancelled, for every command that still waits for it (R345). -/
def noteCancel (opcode i : Nat) (s : State) : State :=
  noteUnit opcode i (fun c => if c.settled i then c else { c with cancelled := setBitTo c.cancelled i true }) s

/-- A unit did not start, for every command that still waits for it (R341). -/
def noteNotStarted (opcode i : Nat) (s : State) : State :=
  noteUnit opcode i (fun c => if c.settled i then c else { c with refused := setBitTo c.refused i true }) s

/-! ### Picks in flight -/

/-- Every pick is changed in place. -/
def mapPicks (f : PickCtx → PickCtx) (s : State) : State := { s with trd := { s.trd with picks := s.trd.picks.map f } }

/-- Every port's part of every pick is changed in place; the pick's tick in cc is given. -/
def mapParts (f : Nat → PortPick → PortPick) (s : State) : State :=
  mapPicks (fun x => { x with ports := x.ports.map (f x.tick) }) s

/-! ### Device, port and staging conditions -/

/-- The three outcomes of a command, as this model has them. -/
abbrev Res := Host.Outcome State Fault Refusal

/-- The codes of SYS_STATE (R560). -/
def stRESET : Nat := 1
def stBRINGUP : Nat := 2
def stIDLE : Nat := 3
def stWEAVING : Nat := 4
def stHOLD : Nat := 5
def stFAULT : Nat := 6

/-- The device state. -/
def devState (s : State) : Nat := rd SYS_STATE_STATE 0 s

/-- Whether the device is WEAVING. -/
def weaving (s : State) : Bool := devState s = stWEAVING

/-- The codes of PRT_STAT.STATE (R66). -/
def pSTOPPED : Nat := 0
def pRUNNING : Nat := 1
def pCLOSING : Nat := 2
def pFAULTED : Nat := 3
def pGATED : Nat := 4

/-- The state of a port. -/
def portSt (p : Nat) (s : State) : Nat := rd PRT_STAT_STATE p s

/-- Whether a port is STOPPED or GATED, so that its structural settings may be written. -/
def portIdle (p : Nat) (s : State) : Bool := portSt p s = pSTOPPED || portSt p s = pGATED

/-- Whether a port takes part in R125 and R150: RUNNING, CLOSING or FAULTED. -/
def portActive (p : Nat) (s : State) : Bool :=
  portSt p s = pRUNNING || portSt p s = pCLOSING || portSt p s = pFAULTED

/-- The line in force of a port, 0 to 7. -/
def lineOf (p : Nat) (s : State) : Nat := rd TRD_PORT_LINE p s

/-- The staged line of a port. -/
def lineStg (p : Nat) (s : State) : Nat := rd TRD_PORT_LINE_STG p s

/-- The line index of a port's line (R14). -/
def lineIdx (p l : Nat) : Nat := 8 * p + l

/-- The field that holds the shed of a line (R14). -/
def shedFld (j : Nat) : Fld := if j % 2 = 1 then SYS_LINE_SHED_SHED_ODD else SYS_LINE_SHED_SHED_EVEN

/-- A written shed as the device acts on it (R15). -/
def shedActs (v : Nat) : Nat := if v = 0 then 0 else clampN 20480 4998000 v

/-- The shed in force of a line. -/
def shedOf (j : Nat) (s : State) : Nat := shedActs (rdI (shedFld j) (j / 2) s)

/-- The staged shed of a line. -/
def shedStg (j : Nat) (s : State) : Nat := shedActs (rd (shedFld j) (j / 2) s)

/-- A written period as the device acts on it (R19). -/
def periodActs (v : Nat) : Nat := clampN 25000 5000000 v

/-- The period in force. -/
def periodOf (s : State) : Nat := periodActs (rdI SYS_PICK_PERIOD_PERIOD 0 s)

/-- The selvedge floor in force (R20). -/
def selvOf (s : State) : Nat := clampN 2000 500000 (rdI SYS_PICK_LIM_SELV_FLOOR 0 s)

/-- The stretch limit in force (R20). -/
def stretchOf (s : State) : Nat := clampN 1000 500000 (rdI SYS_PICK_LIM_STRETCH_LIM 0 s)

/-- Whether a prepared change set holds staging writes back (R222). -/
def setPrepared (s : State) : Bool :=
  match s.trd.set with
  | some c => c.prepared
  | none => false

/-- A staging write is held behind the prepared set. -/
def holdWrite (h : HeldWrite) (s : State) : State := { s with trd := { s.trd with held := s.trd.held ++ [h] } }

/-- A beat-able field is written: in force at once when not WEAVING, staged when WEAVING, held while a set is prepared
(R18, R218, R222). -/
def stageFld (f : Fld) (i v : Nat) (s : State) : State :=
  if weaving s then
    if setPrepared s then holdWrite (.fld (f.key i) (f.rst i) (v % 2 ^ f.width)) s else wr f i v s
  else enforce f i (wr f i v s)

/-- Every beat-able field of a register is written from a bus value. -/
def stageReg (r : Reg) (i : Nat) (v : Qword) (s : State) : State :=
  r.fields.foldl (fun s f => stageFld f i (f.ofQ v) s) s

/-- A field whose writes come into force at the next tick while WEAVING, at once otherwise (R129, R138). -/
def latchFld (f : Fld) (i v : Nat) (s : State) : State :=
  if weaving s then wr f i v s else enforce f i (wr f i v s)

/-- The group index as acted on (R141). -/
def ngActs (v : Nat) : Nat := clampN 94372 98304 v

end Sys2Proof.Machine
end

