-- ==== Sys2Proof/Machine/CalBase.lean ====
section
/-!
DEFINITION. What every block shares of calibration: the queue of objects, their records, and the application of a record
(R522 to R524).
-/

set_option autoImplicit false

namespace Sys2Proof.Machine

/-- The key of an object's record. -/
def calKey (kind idx : Nat) : Nat := 256 * kind + idx

/-- What a CAL_RUN of an object that waits for its pair holds; a CAL_RUN that has not yet been taken holds 0. -/
def calAux (kind idx : Nat) : Nat := calKey kind idx + 1

/-- An object's record. -/
def calRec (kind idx : Nat) (s : State) : CalRec := s.cal.recs.get {} (calKey kind idx)

/-- An object's record is replaced. -/
def setCalRec (kind idx : Nat) (r : CalRec) (s : State) : State :=
  { s with cal := { s.cal with recs := s.cal.recs.put {} (calKey kind idx) r } }

/-- Whether an object is queued or running. -/
def calHas (kind idx : Nat) (s : State) : Bool :=
  s.cal.queue.any (fun o => decide (o = (kind, idx))) || s.cal.pairs.any (fun c => decide (c.kind = kind ∧ c.idx = idx))

/-- The device queues an object behind those that wait, unless it is queued or running or 128 entries stand in the queue (R523). -/
def calEnqueue (kind idx : Nat) (s : State) : State :=
  if calHas kind idx s || decide (128 ≤ s.cal.queue.length) then s
  else { s with cal := { s.cal with queue := s.cal.queue ++ [(kind, idx)] } }

/-- An object is queued by the device's own doing, which AUTO_RECAL enables (R523). -/
def calAuto (kind idx : Nat) (s : State) : State :=
  if rdB CAL_CTL_AUTO_RECAL 0 s then calEnqueue kind idx s else s

/-- The running CAL_RUN commands of an object end. -/
def calCmdEnd (kind idx status detail result : Nat) (s : State) : State :=
  finishCmd 0x28 (calAux kind idx) status detail result s

/-- The codes of R520. -/
def coPASS : Nat := 1
def coDISAGREE : Nat := 2
def coFAIL : Nat := 3
def coTIMEOUT : Nat := 4
def coABORTED : Nat := 5

/-- A queued object is removed from the queue; a CAL_RUN that queued it ends ABORTED (R530; log entry 50). -/
def calDrop (kind idx : Nat) (s : State) : State :=
  let o := (kind, idx)
  let mine := (s.cal.queue.take s.cal.cmdN).any (fun x => decide (x = o))
  let s := { s with cal := { s.cal with
    queue := s.cal.queue.filter (fun x => !(decide (x = o))), cmdN := if mine then s.cal.cmdN - 1 else s.cal.cmdN } }
  if mine then calCmdEnd kind idx 0x17 0 coABORTED s else s

/-- The group of a converter (R46). -/
def convGroup (j : Nat) : Nat := if j < 64 then j / 16 else j - 64

/-- The object sensor's value in a list of the four sensors' values, in units of 0.0025 °C: the sensor of the group for a converter, the
mean of the four otherwise (R522). -/
def objTemp (kind idx : Nat) (temps : List Int) : Int :=
  if kind = 0 then 4 * temps.getD (convGroup idx) 0
  else temps.getD 0 0 + temps.getD 1 0 + temps.getD 2 0 + temps.getD 3 0

/-- ΔT as acted on, LSB 0.1 °C (R535). -/
def deltaT (s : State) : Nat := clampN 5 200 (rd CAL_CTL_DELTA_T 0 s)

/-- How far the object sensor lies from the record's TEMP, in units of 0.0025 °C. -/
def calDrift (kind idx : Nat) (s : State) : Nat :=
  (objTemp kind idx s.sys.temps - objTemp kind idx (calRec kind idx s).temp).natAbs

/-- A record is applied: it is borrowed when its TEMP lies more than ΔT / 2 away (R524). -/
def calApply (kind idx : Nat) (s : State) : State :=
  let r := calRec kind idx s
  if r.source = 0 then s
  else if 20 * deltaT s < calDrift kind idx s then
    let s := setCalRec kind idx { r with borrowed := true } s
    raise 243 (eventRecord 0x51 243 (place kind 20 4 + place idx 12 8) (rd SYS_PICK_NUM_NUM 0 s)
      (ux 48 (divRound (objTemp kind idx r.temp) 4)) (ux 48 (divRound (objTemp kind idx s.sys.temps) 4))
      (bump CAL_CNT_BORROWED 0 s))
  else s

/-- A record is applied, and its object is queued where the record is borrowed or there is none (R523, R524). -/
def calTake (kind idx : Nat) (s : State) : State :=
  let s := calApply kind idx s
  let r := calRec kind idx s
  if r.borrowed ∨ r.source = 0 then calAuto kind idx s else s

/-- The correction fields of a converter. -/
def corrFlds : List Fld := CNV_CORR.fields ++ CNV_RATIO.fields

/-- A converter's corrections go back to given values (R62). -/
def corrRestore (j : Nat) (vals : List Nat) (s : State) : State :=
  (corrFlds.zip vals).foldl (fun s e => wrI e.1 j e.2 (wr e.1 j e.2 s)) s

/-- A pair in progress. -/
def pairOf (kind idx : Nat) (s : State) : Option CalPair := s.cal.pairs.find? (fun p => decide (p.kind = kind ∧ p.idx = idx))

/-- A pair is no longer in progress. -/
def pairDrop (kind idx : Nat) (s : State) : State :=
  { s with cal := { s.cal with pairs := s.cal.pairs.filter (fun c => !(decide (c.kind = kind ∧ c.idx = idx))) } }

/-- The corrections that were in force before a converter's pair are in force again: no other outcome than PASS changes them (R62,
R520). -/
def pairRestore (c : CalPair) (s : State) : State := if c.kind = 0 then corrRestore c.idx c.before s else s

/-- A converter under calibration returns to its group, or stays GATED (R62, R520). -/
def calConvBack (j : Nat) (s : State) : State :=
  if rd CNV_STAT_STATE j s = 2 then wr CNV_STAT_STATE j 3 s else s

/-- A pair in progress ends ABORTED: the values stay as they were, and those of a converter are applied again; the object is queued again
unless it is GATED or a replica (R62, R520, R523). -/
def calPairAbort (kind idx : Nat) (s : State) : State :=
  match pairOf kind idx s with
  | none => s
  | some c =>
    let s := pairRestore c (pairDrop kind idx s)
    let s := if kind = 1 ∧ c.boot = false then { s with cal := { s.cal with line := none } } else s
    let s := setCalRec kind idx { calRec kind idx s with last := coABORTED } s
    let s := if kind = 1 ∧ rd TSU_STAT_SPARE_FOR 0 s ≠ 0x1F then { s with tsu := { s.tsu with spareNext := some 0x1F } } else s
    let s := if kind = 0 then calApply 0 idx (calConvBack idx s) else s
    let s := calCmdEnd kind idx 0x17 0 coABORTED s
    if kind = 2 ∨ (kind = 0 ∧ rd CNV_STAT_STATE idx s = 0) then s else calAuto kind idx s

/-- Every pair in progress ends ABORTED: the device entered HOLD or FAULT (R520). -/
def calAbortAll (s : State) : State := s.cal.pairs.foldl (fun s c => calPairAbort c.kind c.idx s) s

end Sys2Proof.Machine
end

