-- ==== Sys2Proof/Machine/Replica.lean ====
section
/-!
DEFINITION. The arithmetic of a replica calibration (R521): complex vectors, their inner products and scalings. The rule's square roots
and quotients are real numbers; they are carried to 2^-64 of a unit, far below the 2^-23 the result is rounded to (log entry 70).
-/

set_option autoImplicit false

namespace Sys2Proof.Machine

/-- A complex number in fixed point. -/
abbrev Cx := Int × Int

/-- The product of a number and the conjugate of another. -/
def mulConj (a b : Cx) : Cx := (a.1 * b.1 + a.2 * b.2, a.2 * b.1 - a.1 * b.2)

/-- inner(a, b): the sum of a[m] * conj(b[m]). -/
def innerC (a b : List Cx) : Cx := (a.zip b).foldl (fun z e => (z.1 + (mulConj e.1 e.2).1, z.2 + (mulConj e.1 e.2).2)) (0, 0)

/-- The integer square root of a number below 2^640. -/
def isqrtWide (n : Nat) : Nat := isqrtGo n 320 0

/-- The square of a number's absolute value. -/
def normC (z : Cx) : Nat := (z.1 * z.1 + z.2 * z.2).toNat

/-- unit(z), scaled by 2^64; unit(0) is 1. -/
def unitC (z : Cx) : Cx :=
  let m := isqrtWide (normC z * 2 ^ 128)
  if m = 0 then (2 ^ 64, 0) else (divRound (z.1 * 2 ^ 128) m, divRound (z.2 * 2 ^ 128) m)

/-- A vector times a number. -/
def scaleC (r : List Cx) (u : Cx) : List Cx := r.map (fun x => (x.1 * u.1 - x.2 * u.2, x.1 * u.2 + x.2 * u.1))

/-- The sum of two vectors of one length. -/
def addC (a b : List Cx) : List Cx := (a.zip b).map (fun e => (e.1.1 + e.2.1, e.1.2 + e.2.2))

/-- A vector's components divided by a power of two. -/
def shrinkC (k : Nat) (r : List Cx) : List Cx := r.map (fun x => (divRound x.1 (2 ^ k), divRound x.2 (2 ^ k)))

/-- r * sqrt(0.5 * n / inner(r, r)), scaled by 2^64, whatever the scale of r; a zero vector stays zero. -/
def normalC (n : Nat) (r : List Cx) : List Cx :=
  let i := (innerC r r).1.toNat
  if i = 0 then r
  else shrinkC 192 (scaleC r ((isqrtWide (n * 2 ^ 511 / i) : Nat), 0))

/-- The sum over the counted picks of x[k] * unit(conj(inner(x[k], x[0]))), scaled by 2^64. -/
def alignedSum (xs : List (List Cx)) : List Cx :=
  match xs with
  | [] => []
  | x0 :: _ => xs.foldl (fun acc x =>
      let g := innerC x x0
      addC acc (scaleC x (unitC (g.1, -g.2)))) (x0.map (fun _ => (0, 0)))

/-- The replica of one run from its counted picks' X and Y words, scaled by 2^64 (R521). -/
def runReplica (n : Nat) (xs ys : List (List Cx)) : List Cx :=
  let sx := alignedSum xs
  let sy := alignedSum ys
  let u := unitC (innerC sx sy)
  normalC n (addC (scaleC sx (2 ^ 64, 0)) (scaleC sy u))

/-- Whether two replicas agree: 1 - rho is at most tol * 2^-12 (R519, R521). -/
def replicasAgree (tol : Nat) (a b : List Cx) : Bool :=
  decide ((4096 - tol) ^ 2 * ((innerC a a).1.toNat * (innerC b b).1.toNat) ≤ 4096 ^ 2 * normC (innerC a b))

/-- The mean of the pair, the second aligned to the first, scaled again; scaled by 2^64. -/
def meanReplica (n : Nat) (a b : List Cx) : List Cx :=
  normalC n (addC a (shrinkC 64 (scaleC b (unitC (innerC a b)))))

/-- A replica sample as stored (R88): components rounded half away from zero to 2^-23 and saturated. -/
def replicaWord (x : Cx) : Nat :=
  let f := fun (c : Int) => ux 24 (satS 24 (divRound (c * 2 ^ 23) (2 ^ 64)))
  f x.1 * 2 ^ 24 + f x.2

end Sys2Proof.Machine
end

