-- ==== Sys2Proof/Machine/Rs.lean ====
section
/-!
DEFINITION. The check code of the SDRAM (R396, R397): a Reed-Solomon code over GF(2^8) of 64 data and 16 check symbols that
corrects any error within one device, with the bare and the poison burst.
-/

set_option autoImplicit false

namespace Sys2Proof.Machine

/-! ### GF(2^8) -/

/-- A field element times α. -/
def gfX (a : Nat) : Nat := if a < 128 then 2 * a else Nat.xor (2 * a - 256) 0x1D

/-- The product of two field elements, bit by bit of the second. -/
def gfMulGo : Nat → Nat → Nat → Nat → Nat
  | 0, _, _, acc => acc
  | k + 1, a, b, acc => gfMulGo k (gfX a) (b / 2) (if b % 2 = 1 then Nat.xor acc a else acc)

/-- The product of two field elements. -/
def gfMul (a b : Nat) : Nat := gfMulGo 8 a b 0

/-- A power of a field element. -/
def gfPow (a : Nat) : Nat → Nat
  | 0 => 1
  | k + 1 => gfMul a (gfPow a k)

/-- α to a power. -/
def gfAlpha (k : Nat) : Nat := gfPow 2 (k % 255)

/-- The inverse of a field element: its 254th power. -/
def gfInv (a : Nat) : Nat := gfPow a 254

/-- A polynomial's value, its coefficients from the constant term upwards. -/
def gfEval (p : List Nat) (x : Nat) : Nat := p.foldr (fun c acc => Nat.xor c (gfMul x acc)) 0

/-- The sum of two polynomials. -/
def gfAddP : List Nat → List Nat → List Nat
  | [], q => q
  | p, [] => p
  | a :: p, b :: q => Nat.xor a b :: gfAddP p q

/-- The product of two polynomials. -/
def gfMulP : List Nat → List Nat → List Nat
  | [], _ => []
  | a :: p, q => gfAddP (q.map (gfMul a)) (0 :: gfMulP p q)

/-- The derivative of a polynomial. -/
def gfDeriv (p : List Nat) : List Nat := ((List.range p.length).map (fun i => if i % 2 = 1 then p.getD i 0 else 0)).drop 1

/-! ### The code -/

/-- Symbol `n` of a burst. -/
def sym (b : Burst) (n : Nat) : Nat := slice b.toNat (8 * n) 8

/-- The symbols of a burst. -/
def syms (b : Burst) : List Nat := (List.range 80).map (sym b)

/-- A burst from its symbols. -/
def burstOf (l : List Nat) : Burst := BitVec.ofNat 640 (l.foldr (fun c acc => c % 256 + 256 * acc) 0)

/-- The generator polynomial, roots α^0 to α^15. -/
def genPoly : List Nat := (List.range 16).foldl (fun g i => gfMulP g [gfAlpha i, 1]) [1]

/-- One step of the division by the generator: the next data symbol enters the register, highest coefficient first. -/
def rsStep (reg : List Nat) (d : Nat) : List Nat :=
  let f := Nat.xor d (reg.headD 0)
  let shifted := reg.drop 1 ++ [0]
  gfAddP shifted ((genPoly.dropLast.reverse).map (gfMul f))

/-- The sixteen check symbols of 64 data symbols. Symbol 0 is the highest coefficient of the codeword (log entry 30). -/
def checkSyms (d : List Nat) : List Nat := d.foldl rsStep (List.replicate 16 0)

/-- The syndromes of a burst. -/
def syndromes (b : Burst) : List Nat :=
  (List.range 16).map (fun j => (syms b).foldl (fun acc c => Nat.xor c (gfMul (gfAlpha j) acc)) 0)

/-- The locator of symbol `n`. -/
def locOf (n : Nat) : Nat := gfAlpha (79 - n)

/-- The errors within device `k` that have the given syndromes, where there are such, as (symbol, value) pairs. -/
def deviceError (syn : List Nat) (k : Nat) : Option (List (Nat × Nat)) :=
  let ns := (List.range 8).map (fun u => 8 * k + u)
  let gamma := ns.foldl (fun g n => gfMulP g [1, locOf n]) [1]
  let omega := (gfMulP syn gamma).take 16
  if (omega.drop 8).all (fun c => c = 0) then
    some (ns.map (fun n =>
      let xi := gfInv (locOf n)
      (n, gfMul (locOf n) (gfMul (gfEval (omega.take 8) xi) (gfInv (gfEval (gfDeriv gamma) xi))))))
  else none

/-- The error of one device with the given syndromes, where there is one. -/
def singleError (syn : List Nat) : Option (List (Nat × Nat)) := (List.range 10).findSome? (deviceError syn)

/-- A burst without an error. -/
def fixBurst (b : Burst) (e : List (Nat × Nat)) : Burst :=
  burstOf ((List.range 80).map (fun n => (e.find? (fun x => x.1 = n)).elim (sym b n) (fun x => Nat.xor (sym b n) x.2)))

/-! ### Data and the special bursts (R396, R397) -/

/-- Data byte `i` of a burst travels in beat i / 4 on two devices: the symbols' nibbles put together. -/
def dataByte (b : Burst) (i : Nat) : Nat :=
  let t := i / 4
  let nib := fun k => slice (sym b (8 * k + t / 2)) (4 * (t % 2)) 4
  nib (2 * (i % 4)) + 16 * nib (2 * (i % 4) + 1)

/-- The 64 data bytes of a burst. -/
def dataBytes (b : Burst) : List Nat := (List.range 64).map (dataByte b)

/-- The data symbols of 64 bytes. -/
def dataSyms (d : List Nat) : List Nat :=
  (List.range 64).map (fun n =>
    let k := n / 8
    let u := n % 8
    let nib := fun t => slice (d.getD (4 * t + k / 2) 0) (4 * (k % 2)) 4
    nib (2 * u) + 16 * nib (2 * u + 1))

/-- The codeword of 64 data bytes. -/
def encodeBurst (d : List Nat) : Burst := burstOf (dataSyms d ++ checkSyms (dataSyms d))

/-- The bare burst. -/
def bareBurst : Burst := burstOf (List.replicate 64 0 ++ List.replicate 16 0xFF)

/-- The poison burst. -/
def poisonBurst : Burst := burstOf (List.replicate 64 0 ++ (List.range 16).map (fun i => if i % 2 = 0 then 0xFF else 0))

/-- What power-on leaves in a burst: contents under no row of R397 but the last two (log entry 31). -/
def coldBurst : Burst := burstOf (List.replicate 64 0 ++ (List.range 16).map (fun i => 17 * i + 3))

/-- How a stored burst reads (R397). -/
inductive BRead where
  | clean
  | corrected (b : Burst)
  | bare
  | bareUpset
  | poison
  | other
deriving DecidableEq, Repr

/-- The syndromes of the difference of two bursts, given those of each. -/
def synDiff (a b : List Nat) : List Nat := gfAddP a b

/-- The decoding of a stored burst, first matching row of R397. -/
def decodeBurst (b : Burst) : BRead :=
  let s := syndromes b
  if s.all (fun c => c = 0) then .clean
  else match singleError s with
    | some e => .corrected (fixBurst b e)
    | none =>
      let sb := synDiff s (syndromes bareBurst)
      let sp := synDiff s (syndromes poisonBurst)
      if sb.all (fun c => c = 0) then .bare
      else if (singleError sb).isSome then .bareUpset
      else if sp.all (fun c => c = 0) ∨ (singleError sp).isSome then .poison
      else .other

end Sys2Proof.Machine
end

