-- ==== Sys2Proof/Machine/BobBase.lean ====
section
/-!
DEFINITION. What other blocks need of the Bobbin: its contexts' states and the abort of a stream (R496, R508).
-/

set_option autoImplicit false

namespace Sys2Proof.Machine

/-- The codes of a context's STATE (R514). -/
def bIDLE : Nat := 0
def bRUNNING : Nat := 1
def bCLOSING : Nat := 2
def bPAUSED : Nat := 3
def bSAVING : Nat := 4
def bRESTORING : Nat := 5

/-- The state of a context. -/
def bobSt (x : Nat) (s : State) : Nat := rd BOB_CTX_STAT_STATE x s

/-- A context beside its registers. -/
def bobOf (x : Nat) (s : State) : BobCtx := s.bob.get {} x

/-- A context is replaced. -/
def setBob (x : Nat) (c : BobCtx) (s : State) : State := { s with bob := s.bob.put {} x c }

/-- A stream is aborted: what has not been delivered is discarded and the context becomes IDLE (R508). -/
def bobAbort (x reason : Nat) (s : State) : State :=
  let s := wr BOB_CTX_STAT_STATE x bIDLE (wr BOB_CTX_STAT_REASON x reason (wr BOB_CTX_STAT_START_PENDING x 0
    (wr BOB_CTX_STAT_WAIT_OUT x 0 (setBob x {} s))))
  raise 237 (bump BOB_CTX_CNT_ABORTS x s)

/-- A queue became bound to a ring or an engine: a context that reads it and is not IDLE aborts (R496). -/
def bobBound (q : Nat) (s : State) : State :=
  (List.range 4).foldl (fun s x =>
    if bobSt x s ≠ bIDLE ∧ rd BOB_CTX_CFG_SRC_Q x s = q then bobAbort x 6 s else s) s

end Sys2Proof.Machine
end

