-- ==== Sys2Proof/Machine/Reed.lean ====
section
/-!
DEFINITION. The Reed's code slots (chapter 03): the load buffer, preparing a slot's staged bank, and when a bank comes into
force. Compression itself is in Machine/Cells.lean.
-/

set_option autoImplicit false

namespace Sys2Proof.Machine

/-- A code slot. -/
def slotOf (k : Nat) (s : State) : RedSlot := s.reed.slots.get {} k

/-- A code slot is replaced. -/
def setSlot (k : Nat) (x : RedSlot) (s : State) : State :=
  { s with reed := { s.reed with slots := s.reed.slots.put {} k x } }

/-- The chip length in samples of its code (R109). -/
def chipLenOf (b : CodeBank) : Nat := 2 ^ b.chipLen

/-- The code length in samples (R86). -/
def nCodeOf (b : CodeBank) : Nat := (b.chipsM1 + 1) * chipLenOf b

/-- The phase code of chip `i` (R87, R89). -/
def chipAt (b : CodeBank) (i : Nat) : Nat := slice (b.words.get 0 (8192 + i / 24)) (2 * (i % 24)) 2

/-- Replica sample `m` as I and Q (R88). -/
def replicaAt (b : CodeBank) (m : Nat) : Int × Int :=
  let w := b.words.get 0 m
  (sx 24 (w / 2 ^ 24), sx 24 w)

/-- Whether a slot's code is plain: all chips of one phase and at most 64 samples (R177). -/
def plainBank (b : CodeBank) : Bool :=
  (List.range (b.chipsM1 + 1)).all (fun i => chipAt b i = chipAt b 0) && decide (nCodeOf b ≤ 64)

/-- A line's spectral geometry and cursor. -/
def spcLine (j : Nat) (s : State) : SpcLine := s.spc.lines.get {} j

/-- The segment length of a SEG_LEN code as acted on (R101, R112). -/
def segLen (c : Nat) : Nat := if c = 0 then 16 else if c = 1 then 32 else 64

/-- The cells of a line's stripe (R180). -/
def stripeCells (x : SpcLine) (stripe : Nat) : Nat := minN x.sc (x.cellsS - x.sc * stripe)

/-- The last shed sample that the Reed's work on a port's part of a pick needs: SHED − 1 in a phase pick, the last one of the stripe's last
segment in a spectral pick (R96, R101). -/
def reedLast (x : PortPick) (s : State) : Nat :=
  if x.kind = 1 then x.shed - 1
  else match x.key with
    | some k =>
      let l := spcLine k.line s
      minN (x.shed - 1) (l.firstS + (l.sc * k.stripe + stripeCells l k.stripe - 1) * l.kS + segLen (x.redCfg.getD 0 0) - 1)
    | none => 0

/-- The cycle at which the Reed's work on a port's part of a pick is complete: its last output leaves 20,480 sc after the converter
output of its last sample (R99), the latest moment that R104 allows for a spectral cell; the tick is given. -/
def reedEnd (x : PortPick) (tick : Nat) (s : State) : Nat := tick + 2 * (23 + reedLast x s + 20480)

/-- The cycle at which the last pick launched with the bank before a slot's present one has finished its Reed work (R92). -/
def oldBankEnd (k : Nat) (s : State) : Nat :=
  maxL (s.trd.picks.flatMap (fun n => (n.ports.filter (fun x => decide (x.slot = k ∧ x.gen + 1 = (slotOf k s).gen))).map
    (fun x => reedEnd x n.tick s)))

/-- Whether a slot's staged bank still holds the bank of the last beat while a pick launched with it has Reed work (R92). -/
def oldBankBusy (k : Nat) (s : State) : Bool := (slotOf k s).staged.isNone && decide (s.now < oldBankEnd k s)

/-- The code that a PREPARE takes: RED_SLOT_CFG and the words of the load buffer the code uses (R89, R90). -/
def bankFromBuffer (s : State) : CodeBank :=
  let b : CodeBank :=
    { chipsM1 := rd RED_SLOT_CFG_CHIPS_M1 0 s, chipLen := rd RED_SLOT_CFG_CHIP_LEN 0 s,
      shift := rd RED_SLOT_CFG_SHIFT 0 s, words := s.reed.buf }
  let n := nCodeOf b
  { b with words := b.words.filter (fun e => decide (e.1 < n) || decide (8192 ≤ e.1 ∧ e.1 ≤ 8192 + b.chipsM1 / 24)) }

/-- Whether a prepared change set holds the Reed's settings, so that a preparation would make it unready (R221). -/
def reedFrozen (s : State) : Bool :=
  match s.trd.set with
  | some c => c.prepared && bitOf c.affected 2
  | none => false

/-- A request to prepare a slot (R90 to R92); the answer says whether it was refused. -/
def redPrepare (k : Nat) (s : State) : State × Bool :=
  let b := bankFromBuffer s
  if s.reed.prep.isSome ∨ 8192 < nCodeOf b ∨ reedFrozen s then (wr RED_SLOT_STAT_REFUSED 0 1 s, true)
  else
    let d := oldBankBusy k s
    let s := setSlot k { slotOf k s with phase := if d then 3 else 1 } s
    let s := { s with reed := { s.reed with prep := some { slot := k, bank := b, deferred := d, started := s.now } } }
    (wr RED_SLOT_STAT_BUSY 0 1 (wr RED_SLOT_STAT_BUSY_SLOT 0 k s), false)

/-- The write of RED_SLOT_CTL (R110). -/
def redSlotCtlWrite (org : Origin) (v : Qword) (s : State) : State :=
  if bitOf v.toNat 8 then
    let (s', refused) := redPrepare (RED_SLOT_CTL_SLOT.ofQ v) s
    if refused then requestRefused org (RED_SLOT_CTL.off 0) 0 v s' else s'
  else s

/-- A slot's staged bank comes into force. -/
def slotEnforce (k : Nat) (s : State) : State :=
  let x := slotOf k s
  match x.staged with
  | some b => setSlot k { x with inForce := some b, staged := none, phase := 0, gen := x.gen + 1 } s
  | none => s

/-- Every PREPARED bank comes into force: a commit, or the device leaving WEAVING (R93). -/
def reedCommitBanks (s : State) : State :=
  (List.range 64).foldl (fun s k => if (slotOf k s).phase = 2 then slotEnforce k s else s) s

/-- The device leaves WEAVING: every PREPARED bank comes into force, and one whose preparation runs or waits does so when that ends
(R93, R224). -/
def reedLeave (s : State) : State :=
  let s := reedCommitBanks s
  { s with reed := { s.reed with prep := s.reed.prep.map (fun p => { p with force := true }) } }

/-- A preparation ends (R90, R93): the bank is PREPARED, and in force at once when not WEAVING or when the device has left WEAVING since
the preparation began. RED_SLOT_STAT.BUSY_SLOT keeps the slot of the last preparation: R110 gives it no value while none runs or waits
(DESIGN CHOICE, log entry 92). -/
def prepareEnd (s : State) : State :=
  match s.reed.prep with
  | none => s
  | some p =>
    if p.deferred then s
    else
      let s := setSlot p.slot { slotOf p.slot s with staged := some p.bank, phase := 2 } s
      let s := wr RED_SLOT_STAT_BUSY 0 0 { s with reed := { s.reed with prep := none } }
      let s := if weaving s && !p.force then s else slotEnforce p.slot s
      finishCmd 0x18 p.slot 0 0 0 s

/-- A deferred preparation starts once the old bank's Reed work is complete (R92). -/
def prepareDeferredStart (s : State) : State :=
  match s.reed.prep with
  | none => s
  | some p =>
    if p.deferred then
      let s := advanceTo (oldBankEnd p.slot s) s
      setSlot p.slot { slotOf p.slot s with phase := 1 }
        { s with reed := { s.reed with prep := some { p with deferred := false, started := s.now } } }
    else s

/-- Whether the Reed holds a staged value (R218): a staged bank, or a RED_PORT_CFG that differs from the one in force. -/
def reedAffected (s : State) : Bool :=
  s.reed.slots.any (fun e => e.2.phase ≠ 0)
    || (List.range 16).any (fun p => RED_PORT_CFG.fields.any (fun f => rd f p s ≠ rdI f p s))

/-- The Reed's readiness (R94). -/
def reedReady (s : State) : Bool := s.reed.slots.all (fun e => e.2.phase ≠ 1 && e.2.phase ≠ 3)

/-- The Reed's part of a commit (R93, R105). -/
def reedCommit (s : State) : State :=
  (List.range 16).foldl (fun s p => RED_PORT_CFG.fields.foldl (fun s f => enforce f p s) s) (reedCommitBanks s)

/-- RED_SLOT_INFO as it reads (R111). -/
def redSlotInfo (k : Nat) (s : State) : Nat :=
  let x := slotOf k s
  place x.phase 2 2 + match x.inForce with
    | some b => place b.shift 36 4 + place b.chipLen 32 2 + place b.chipsM1 16 11 + 1
    | none => 0

/-- The address after an access to the load buffer (R108). After 16,383, for which R108 gives no successor, it is 0 (DESIGN CHOICE, log
entry 92). -/
def loadNext (a : Nat) : Nat := if a = 8277 then 0 else (a + 1) % 16384

/-- Whether a replica run keeps the load buffer and RED_SLOT_CFG: from its first captured pick until its preparation ends (R521). -/
def replicaHolds (s : State) : Bool :=
  s.cal.pairs.any (fun c => decide (c.kind = 2) && (!c.caps.isEmpty || c.first.isSome))
    || (match s.reed.prep with
      | some p => p.byCal
      | none => false)

/-- The write of RED_SLOT_CFG (R521). -/
def redSlotCfgWrite (org : Origin) (v : Qword) (s : State) : State :=
  if replicaHolds s then writeIgnored org (RED_SLOT_CFG.off 0) v s else regWrite RED_SLOT_CFG 0 v s

/-- An access to RED_LOAD_DATA advances the address (R108, R578). -/
def redLoadAdvance (s : State) : State := wr RED_LOAD_ADDR_ADDR 0 (loadNext (rd RED_LOAD_ADDR_ADDR 0 s)) s

/-- An access to RED_LOAD_DATA (R91, R108). -/
def redLoadData (org : Origin) (w : Option Qword) (s : State) : State :=
  let a := rd RED_LOAD_ADDR_ADDR 0 s
  redLoadAdvance <| match w with
    | none => s
    | some v =>
      if s.reed.prep.isSome ∨ 8278 ≤ a ∨ replicaHolds s = true then writeIgnored org (RED_LOAD_DATA.off 0) v s
      else { s with reed := { s.reed with buf := s.reed.buf.put 0 a (v.toNat % 2 ^ 48) } }

/-- What RED_LOAD_DATA shows. -/
def redLoadShow (s : State) : Nat :=
  let a := rd RED_LOAD_ADDR_ADDR 0 s
  if 8278 ≤ a then 0 else s.reed.buf.get 0 a

/-- RED_LOAD_DATA_ACCESS. -/
def execRedLoadDataAccess (w : Option Qword) (s : State) : Res :=
  if s.sys.inReset then .next (resetAccess 8 w.isNone s) else
  match w with
  | none => .next (emit (.readData (BitVec.ofNat 64 (redLoadShow s))) (redLoadData .pcie none s))
  | some v => .next (redLoadData .pcie (some v) s)

/-- PREPARE: a RED_SLOT_CTL write with PREPARE = 1. -/
def execPrepare (v : Qword) (s : State) : Res :=
  if s.sys.inReset then .next s else
  .next (redSlotCtlWrite .pcie (v ||| 0x100#64) s)

/-- PREPARE_DEFERRED_START. -/
def execPrepareDeferredStart (s : State) : Res := .next (prepareDeferredStart s)

/-- PREPARE_END. -/
def execPrepareEnd (s : State) : Res := .next (prepareEnd s)

end Sys2Proof.Machine
end

