-- ==== Sys2Proof/Machine/Warp.lean ====
section
/-!
DEFINITION. The Warp store and the Teasel (chapter 10): word reads and writes with their accounting, write-backs, weak words,
row repair, host fills and scrubbing.
-/

set_option autoImplicit false

namespace Sys2Proof.Machine

/-! ### Organisation (R296, R297) -/

/-- Where word `k` of the 256 words of a row stands: quad by quad, in the row itself. -/
def rowWord (bank row k : Nat) : Nat := 4 * (8192 * row + 128 * (k / 4) + bank) + k % 4

/-- Where word `k` of a spare row stands. -/
def spareWord (bank spare k : Nat) : Nat := warpWords + 256 * (8 * bank + spare) + k

/-- Where a word of the store stands: in its row, or in the spare row its row is mapped onto (R305). -/
def warpPlace (a : Nat) (s : State) : Nat :=
  let q := a / 4
  match s.warp.rowMap.get 0 (rowKey (bankOfQuad q) (rowOfQuad q)) with
  | 0 => a
  | k + 1 => spareWord (bankOfQuad q) k (4 * (q / 128 % 64) + a % 4)

/-- The stored form of a word: for a word of the pool that of the item which occupies its slot (R297). -/
def warpStored (a : Nat) (s : State) : Stored :=
  if inPool a then poolStored (a - poolBase) s else s.warp.words.get bareWord (warpPlace a s)

/-- A stored form is put in place, without any accounting. -/
def warpPut (a : Nat) (v : Stored) (s : State) : State :=
  if inPool a then poolPut (a - poolBase) v s
  else { s with warp := { s.warp with words := s.warp.words.put bareWord (warpPlace a s) v } }

/-! ### Writes (R299, R302, R311) -/

/-- Whether a running fill has still to reach a quad. -/
def fillOwes (q : Nat) (s : State) : Bool :=
  match s.warp.fill with
  | some f => decide (f.first ≤ q ∧ q ≤ f.last) && !(f.done.contains q)
  | none => false

/-- A word is stored with an armed injection applied to it, which clears ARM (R311). -/
def injectPut (a : Nat) (v : Stored) (s : State) : State :=
  if rdB WRP_INJ_ADDR_ARM 0 s && decide (rd WRP_INJ_ADDR_WORD 0 s = a) then
    warpPut a (v ^^^ BitVec.ofNat 56 (rd WRP_INJ_MASK_FLIP 0 s)) (wr WRP_INJ_ADDR_ARM 0 0 s)
  else warpPut a v s

/-- One quad is filled bare by the running fill; an armed injection is applied (R311). -/
def fillQuad (q : Nat) (s : State) : State :=
  let s := [0, 1, 2, 3].foldl (fun s i => injectPut (4 * q + i) bareWord s) s
  { s with warp := { s.warp with
    fill := s.warp.fill.map (fun f => { f with done := q :: f.done }),
    wbs := s.warp.wbs.filter (fun w => w.word / 4 ≠ q) } }

/-- Whether a running repair copies the row of a quad. -/
def repairing (q : Nat) (s : State) : Bool :=
  match s.warp.repair with
  | some r => decide (r.bank = bankOfQuad q ∧ r.row = rowOfQuad q)
  | none => false

/-- An access to a quad that a running fill has not been seen to reach: whether it comes before or after the fill is free. The fill waits
while the quad's row is being copied (R322). -/
def fillTouch (q : Nat) (s : State) : State :=
  if fillOwes q s && !(repairing q s) then
    let (b, s) := drawBit s
    if b then fillQuad q s else s
  else s

/-- A word takes a stored form: an armed injection is applied (R311) and a pending write-back is cancelled (R302). -/
def warpTake (a : Nat) (v : Stored) (s : State) : State :=
  injectPut a v { s with warp := { s.warp with wbs := s.warp.wbs.filter (fun w => w.word ≠ a) } }

/-- A requester stores a word as given. -/
def warpStore (a : Nat) (v : Stored) (s : State) : State := warpTake a v (fillTouch (a / 4) s)

/-- A requester stores a quad as one access. -/
def warpStoreQuad (q : Nat) (vs : List Stored) (s : State) : State :=
  (List.range 4).foldl (fun s i => warpTake (4 * q + i) (vs.getD i bareWord) s) (fillTouch q s)

/-- A requester writes a word (R299). -/
def warpWrite (a d : Nat) (s : State) : State := warpStore a (encodeWord d) s

/-! ### Reads (R300 to R304) -/

/-- A word is read, with its accounting and what that sets in motion. -/
def warpFetch (req a : Nat) (s : State) : WRead × State :=
  let r := decodeWord (warpStored a s)
  (r, warpFollow a r (warpCount req a r s))

/-- A requester reads a word. -/
def warpRead (req a : Nat) (s : State) : WRead × State := warpFetch req a (fillTouch (a / 4) s)

/-- A requester reads a quad as one access: its four results. -/
def warpReadQuad (req q : Nat) (s : State) : List WRead × State :=
  let (r0, s) := warpFetch req (4 * q) (fillTouch q s)
  let (r1, s) := warpFetch req (4 * q + 1) s
  let (r2, s) := warpFetch req (4 * q + 2) s
  let (r3, s) := warpFetch req (4 * q + 3) s
  ([r0, r1, r2, r3], s)

/-! ### Write-backs, repair, fills and scrubbing -/

/-- The oldest pending write-back is made (R302), unless another item has been written to its pool slot since, or a running fill has
reached its quad. -/
def warpWriteBack (s : State) : State :=
  match s.warp.wbs with
  | [] => s
  | w :: t =>
    if wordOwner w.word s = w.owner then
      let s := fillTouch (w.word / 4) s
      if s.warp.wbs.contains w then warpTake w.word w.value s else s
    else { s with warp := { s.warp with wbs := t } }

/-- The first declaration that can be repaired starts its repair (R305). -/
def repairStart (s : State) : State :=
  match s.warp.repair, s.warp.declared with
  | some _, _ => s
  | none, [] => s
  | none, a :: t =>
    let bank := bankOfQuad (a / 4)
    let s := { s with warp := { s.warp with declared := t } }
    if rdB WRP_CTL_AUTO_REPAIR 0 s && decide (sparesLeft bank s ≠ 0) then
      wr WRP_STAT_REPAIR_BUSY 0 1 { s with warp := { s.warp with
        repair := some { bank := bank, row := rowOfQuad (a / 4), spare := s.warp.sparesUsed.get 0 bank } } }
    else noSpareNotice a s

/-- One word of a repair's copy, corrected on the way; an uncorrectable word is copied as stored. -/
def repairCopy (r : Repair) (k : Nat) (s : State) : State :=
  let a := rowWord r.bank r.row k
  let v := warpStored a s
  let d := decodeWord v
  let out := match d with
    | .clean _ => v
    | .corrected x => encodeWord x
    | .bare => v
    | .bareUpset => bareWord
    | .bad => v
  let s := warpCount reqTSL a d s
  if inPool a then poolPut (a - poolBase) out s
  else { s with warp := { s.warp with words := s.warp.words.put bareWord (spareWord r.bank r.spare k) out } }

/-- A repair's copy ends: the row is mapped onto the spare row (R305). Pending write-backs of the row fall away, for the copy took the
corrected words. -/
def repairDone (s : State) : State :=
  match s.warp.repair with
  | none => s
  | some r =>
    let s := (List.range 256).foldl (fun s k => repairCopy r k s) s
    let s := { s with warp := { s.warp with
      repair := none,
      wbs := s.warp.wbs.filter (fun w => rowKey (bankOfQuad (w.word / 4)) (rowOfQuad (w.word / 4)) ≠ rowKey r.bank r.row),
      rowMap := s.warp.rowMap.put 0 (rowKey r.bank r.row) (r.spare + 1),
      sparesUsed := s.warp.sparesUsed.put 0 r.bank (r.spare + 1),
      lastRow := s.warp.lastRow.put 0 r.bank r.row } }
    raise 116 (bump WRP_CNT2_REPAIRS 0 (wr WRP_STAT_REPAIR_BUSY 0 0 s))

/-- Whether two ranges of words, given by first and last, meet. -/
def meets (a b c d : Nat) : Bool := decide (a ≤ d ∧ c ≤ b)

/-- Whether bring-up fills the store: STEP shows it (R307, R542). -/
def storeFilling (s : State) : Bool := decide (devState s = stBRINGUP ∧ rd SYS_BRINGUP_STEP 0 s = 4)

/-- Whether a fill of quads must be refused (R308). -/
def fillRefused (first last : Nat) (s : State) : Bool :=
  let a := 4 * first
  let b := 4 * last + 3
  decide (last < first) || decide (warpQuads ≤ last) || s.warp.fill.isSome || storeFilling s || meets a b 0x1400000 0x15FFFFF
    || (List.range 16).any (fun p =>
      (portActive p s && decide (rd GAU_SPAN_CELLS p s ≠ 0)
        && meets first last (rd GAU_SHAPE_BASE p s) (rd GAU_SHAPE_BASE p s + rd GAU_SPAN_CELLS p s - 1))
      || (decide ((s.spc.areas.get {} p).state ≠ 0)
        && (meets a b (0x1000000 + 56 * 4096 * p) (0x1000000 + 56 * 4096 * (p + 1) - 1)
          || meets a b (0x1380000 + 8 * 4096 * p) (0x1380000 + 8 * 4096 * (p + 1) - 1))))

/-- A request to fill quads; the answer says whether it was refused (R308). -/
def fillRequest (first last : Nat) (s : State) : State × Bool :=
  if fillRefused first last s then (wr WRP_STAT_FILL_REFUSED 0 1 s, true)
  else (wr WRP_STAT_FILL_BUSY 0 1 { s with warp := { s.warp with fill := some { first := first, last := last } } }, false)

/-- The write of WRP_FILL_CTL. -/
def fillCtlWrite (org : Origin) (v : Qword) (s : State) : State :=
  if bitOf v.toNat 0 then
    let (s', refused) := fillRequest (rd WRP_FILL_BASE_FIRST_Q 0 s) (rd WRP_FILL_BASE_LAST_Q 0 s) s
    if refused then requestRefused org (WRP_FILL_CTL.off 0) 0 v s' else s'
  else s

/-- The word of the store that a stored place holds now: the inverse of `warpPlace`, where there is one. -/
def warpUnplace (x : Nat) (s : State) : Option Nat :=
  if x < warpWords then (if warpPlace x s = x then some x else none)
  else
    let y := x - warpWords
    let bank := y / 256 / 8
    let spare := y / 256 % 8
    ((List.find? (fun (e : Nat × Nat) => decide (e.1 / 768 = bank ∧ e.2 = spare + 1)) s.warp.rowMap)).map
      (fun e => rowWord bank (e.1 % 768) (y % 256))

/-- The host fill ends (R308): every quad of it not yet filled is bare. It waits while a row in its range is being copied (R322). -/
def fillDone (s : State) : State :=
  match s.warp.fill with
  | none => s
  | some f =>
    let inFill := fun a => decide (f.first ≤ a / 4 ∧ a / 4 ≤ f.last) && !(f.done.contains (a / 4))
    let busy := match s.warp.repair with
      | some r => (List.range 64).any (fun i => inFill (rowWord r.bank r.row (4 * i)))
      | none => false
    if busy then s
    else
      let keep := fun (e : Nat × Stored) => match warpUnplace e.1 s with
        | some a => !(inFill a)
        | none => true
      let s := { s with warp := { s.warp with
        words := s.warp.words.filter keep, wbs := s.warp.wbs.filter (fun w => !(inFill w.word)), fill := none } }
      let w := rd WRP_INJ_ADDR_WORD 0 s
      let s := if rdB WRP_INJ_ADDR_ARM 0 s && inFill w then
          warpPut w (bareWord ^^^ BitVec.ofNat 56 (rd WRP_INJ_MASK_FLIP 0 s)) (wr WRP_INJ_ADDR_ARM 0 0 s)
        else s
      finishCmd 0x1C 0 0 0 0 (raise 119 (wr WRP_STAT_FILL_DONE 0 1 (wr WRP_STAT_FILL_BUSY 0 0 s)))

/-- The quads a scrub pass reads after the store's own: those of the spare rows in use, as quads of the rows they stand for. -/
def spareQuads (s : State) : Nat := 64 * s.warp.rowMap.length

/-- The quad of a step of the scrub pass. -/
def scrubQuad (i : Nat) (s : State) : Nat :=
  if i < warpQuads then i
  else match s.warp.rowMap[(i - warpQuads) / 64]? with
    | some e => rowWord (e.1 / 768) (e.1 % 768) (4 * ((i - warpQuads) % 64)) / 4
    | none => 0

/-- One scrub read, SCRUB_GAP cc after the one before (R309). -/
def scrubRead (s : State) : State :=
  if rdB WRP_CTL_SCRUB_EN 0 s then
    let s := advanceTo s.warp.scrubDue s
    let i := s.warp.scrubNext
    let s := (warpReadQuad reqTSL (scrubQuad i s) s).2
    let s := { s with warp := { s.warp with
      scrubDue := s.now + maxN 1 (rd WRP_CTL_SCRUB_GAP 0 s), scrubNext := i + 1 } }
    if warpQuads + spareQuads s ≤ i + 1 then
      raise 118 (wr WRP_STAT_PASSES 0 (rd WRP_STAT_PASSES 0 s + 1) { s with warp := { s.warp with scrubNext := 0 } })
    else s
  else s

/-! ### The commands of this part -/

/-- SCRUB_READ. -/
def execScrubRead (s : State) : Res := .next (scrubRead s)

/-- WARP_WRITE_BACK. -/
def execWarpWriteBack (s : State) : Res := .next (warpWriteBack s)

/-- ROW_REPAIR_START. -/
def execRowRepairStart (s : State) : Res := .next (repairStart s)

/-- ROW_REPAIR_DONE. -/
def execRowRepairDone (s : State) : Res := .next (repairDone s)

/-- WRP_FILL_GO: a WRP_FILL_CTL write with GO = 1. -/
def execWrpFillGo (v : Qword) (s : State) : Res :=
  if s.sys.inReset then .next s else
  .next (fillCtlWrite .pcie (v ||| 1#64) s)

/-- WRP_FILL_DONE. -/
def execWrpFillDone (s : State) : Res := .next (fillDone s)

end Sys2Proof.Machine
end

