-- ==== Sys2Proof/Machine/Shuttle.lean ====
section
/-!
DEFINITION. Shuttle engines (chapter 08): states and run control, tick handlers and budgets, dispatch, the loading of images,
swaps, and the bindings and windows of a logical engine. The instructions are in Machine/Chronov.lean.
-/

set_option autoImplicit false

namespace Sys2Proof.Machine

/-! ### Access -/

/-- The codes of ENG_STATE (R253). -/
def eSPARE_EMPTY : Nat := 0
def eLOADING : Nat := 1
def eSPARE_LOADED : Nat := 2
def eSTOPPED : Nat := 3
def eRUNNING : Nat := 4
def eCLOSING : Nat := 5
def eFAULTED : Nat := 6
def eFAILED : Nat := 7
def eGATED : Nat := 8
def eSWAPPING : Nat := 9

/-- A physical engine. -/
def engOf (e : Nat) (s : State) : Eng := s.sht.eng.get {} e

/-- A physical engine is replaced. -/
def setEng (e : Nat) (x : Eng) (s : State) : State := { s with sht := { s.sht with eng := s.sht.eng.put {} e x } }

/-- A physical engine is replaced by a function of it. -/
def onEng (e : Nat) (f : Eng → Eng) (s : State) : State := setEng e (f (engOf e s)) s

/-- A logical engine. -/
def logEngOf (l : Nat) (s : State) : LogEng := s.sht.log.get {} l

/-- A logical engine is replaced by a function of it. -/
def onLog (l : Nat) (f : LogEng → LogEng) (s : State) : State :=
  { s with sht := { s.sht with log := s.sht.log.put {} l (f (logEngOf l s)) } }

/-- The state code of a physical engine. -/
def engSt (e : Nat) (s : State) : Nat := rd SHT_ENG_STAT_ENG_STATE e s

/-- A physical engine takes a state. -/
def setEngSt (e st : Nat) (s : State) : State := wr SHT_ENG_STAT_ENG_STATE e st s

/-- The physical engine serving a logical engine. -/
def physOf (l : Nat) (s : State) : Nat :=
  ((List.range 34).find? (fun e => decide (rd SHT_ENG_STAT_SERVES e s = 1 ∧ rd SHT_ENG_STAT_LOG e s = l))).getD l

/-- The logical engine a physical engine serves, where it serves one. -/
def servedBy (e : Nat) (s : State) : Option Nat :=
  if rd SHT_ENG_STAT_SERVES e s = 1 then some (rd SHT_ENG_STAT_LOG e s) else none

/-- Event 80 + e (R264). -/
def engEvent (e : Nat) (s : State) : State := raise (80 + e) s

/-- What an entry of SHT_LOG_DATA holds when nothing was written (R267). -/
def logEntryRst (k : Nat) : Nat := if k = 10 then 0x7A120 * 2 ^ 24 else 0

/-- An entry of a logical engine: bindings 0 to 7, windows 8 and 9, configuration 10. -/
def logEntry (l k : Nat) (s : State) : Nat := (logEngOf l s).entries.get (logEntryRst k) k

/-- PSYNC of a logical engine. -/
def psync (l : Nat) (s : State) : Bool := bitOf (logEntry l 10 s) 0

/-- Whether an enabled binding of some logical engine names a queue. -/
def engineBound (q : Nat) (s : State) : Bool :=
  (List.range 32).any (fun l => (List.range 8).any (fun k =>
    bitOf (logEntry l k s) 15 && decide (logEntry l k s % 256 = q)))

/-- Whether a queue is bound to a delivery ring. -/
def ringBound (q : Nat) (s : State) : Bool := s.rings.any (fun r => decide (r.queue = q))

/-- Whether the image of a physical engine has a tick handler. -/
def hasTick (e : Nat) (s : State) : Bool :=
  match (engOf e s).img with
  | some i => i.tickEn
  | none => false

/-! ### What a pick waits for (R250 to R252) -/

/-- A pick is done for a logical engine. -/
def pickDoneFor (l n : Nat) (s : State) : State :=
  mapPicks (fun x => if x.n = n then { x with engines := x.engines.filter (· ≠ l) } else x) s

/-- A logical engine holds no pick any more: its pending tick handlers are discarded and marked done (R252). -/
def dropTicks (l : Nat) (s : State) : State :=
  mapPicks (fun x => { x with engines := x.engines.filter (· ≠ l) })
    (onLog l (fun g => { g with pend := [] }) s)

/-- The physical engine whose image will run a logical engine's next tick handler: the spare once a swap copies. -/
def tickEngine (l : Nat) (s : State) : Nat :=
  match s.sht.swap with
  | some w => if w.log = l ∧ w.copying then (if w.migrate then w.out else w.spare) else physOf l s
  | none => physOf l s

/-- Whether a logical engine runs, or will run again at the takeover of its swap (R254, R260). -/
def logRuns (l : Nat) (s : State) : Bool :=
  engSt (physOf l s) s = eRUNNING || (match s.sht.swap with
    | some w => decide (w.log = l ∧ w.was = eRUNNING) && w.copying
    | none => false)

/-- Whether a logical engine runs an image with a tick handler (R250). -/
def ticked (l : Nat) (s : State) : Bool := logRuns l s && hasTick (tickEngine l s) s

/-- At a tick: every running logical engine may get a tick handler for the pick, the pick waits for each pick-synchronous one with a tick
handler, and the budgets written come into force (R250, R267). -/
def engineTick (s : State) : List (Nat × Nat) × List Nat × State :=
  let runs := (List.range 32).filter (fun l => logRuns l s)
  let hands := runs.map (fun l => (l, (logEngOf l s).run))
  let owed := runs.filter (fun l => ticked l s && psync l s)
  let s := (s.sht.log.map (·.1)).foldl (fun s l =>
    onLog l (fun g => { g with budget := logEntry l 10 s / 2 ^ 24, release := bitOf (logEntry l 10 s) 1 }) s) s
  (hands, owed, s)

/-- Whether the gauge, Heddle and staging work of a port's part of a pick is complete (R21). -/
def portWorkDone (x : PortPick) (s : State) : Bool :=
  if x.kind = 1 then decide (rd GAU_SPAN_CELLS x.port s ≤ x.gaugeNext) && x.breakDone && x.hdlDone else x.spcDone

/-- Whether that work of every port of a pick is complete. -/
def pickWorkDone (x : PickCtx) (s : State) : Bool := x.ports.all (fun y => portWorkDone y s)

/-- The cycle before which the work of a pick is not complete: its tick, and the Reed's end for every port with a phase pick (R21). The
staging of a spectral pick waits for the Reed itself. -/
def pickWorkEnd (x : PickCtx) (s : State) : Nat :=
  maxL (x.tick :: (x.ports.filter (fun y => y.kind = 1)).map (fun y => reedEnd y x.tick s))

/-- A tick handler becomes pending for a logical engine at a cycle; of three that wait, the oldest is discarded (R251). The handler after
a discarded one whose pick had been released sees LATE too. -/
def pendTick (at_ n l : Nat) (s : State) : State :=
  let s := onLog l (fun g => { g with pend := g.pend ++ [{ pick := n, at_ := at_ }] }) s
  let waiting := (logEngOf l s).pend.filter (fun t => !t.started)
  match waiting with
  | t :: _ :: _ :: _ =>
    pickDoneFor l t.pick (bump SHT_LCNT_SKIPPED l
      (onLog l (fun g => { g with
        pend := g.pend.filter (fun x => x.pick ≠ t.pick), skipped := g.skipped + 1, late := g.late || t.released }) s))
  | _ => s

/-- Whether a logical engine that ran at a pick's tick gets the pick's tick handler: it runs an image with one, and has not been started
since (R250, R254). -/
def handOn (h : Nat × Nat) (s : State) : Bool := ticked h.1 s && decide ((logEngOf h.1 s).run = h.2)

/-- A pick gives its tick handlers, at the cycle its work was complete (R250). -/
def giveHandlers (at_ : Nat) (x : PickCtx) (s : State) : State :=
  x.hands.foldl (fun s h => if handOn h s then pendTick at_ x.n h.1 s else s)
    (mapPicks (fun y => if y.n = x.n then { y with handlers := true } else y) s)

/-- The picks whose work is complete give their tick handlers, oldest first. `tick` names the pick whose last unit has reported now, if
one has; the work of another was complete at the Reed's end. -/
def giveDue (tick : Option Nat) : List PickCtx → State → State
  | [], s => s
  | x :: t, s =>
    if x.handlers then giveDue tick t s
    else if pickWorkDone x s && decide (pickWorkEnd x s ≤ s.now) then
      giveDue tick t (giveHandlers (if tick = some x.tick then s.now else pickWorkEnd x s) x s)
    else s

/-- The tick handlers that are due become pending (R250). -/
def tickHandlersDue (tick : Option Nat) (s : State) : State := giveDue tick s.trd.picks s

/-- The oldest pick that has given no tick handlers gives them at its Reed's end, where every other unit has reported. -/
def tickHandlerRow (s : State) : State :=
  match s.trd.picks.find? (fun x => !x.handlers) with
  | none => s
  | some x => if pickWorkDone x s then tickHandlersDue none (advanceTo (pickWorkEnd x s) s) else s

/-- The budget of a pick-synchronous engine's oldest unfinished pick runs out (R251). A release while the handler of that very pick
still waits is kept with it, so that the handler after it is the one that sees LATE. -/
def budgetExpiry (l : Nat) (s : State) : State :=
  match (logEngOf l s).pend.find? (fun t => !t.beyond) with
  | none => s
  | some t =>
    if psync l s then
      let g := logEngOf l s
      let s := advanceTo (t.at_ + g.budget) s
      let s := onLog l (fun g => { g with
        pend := g.pend.map (fun x => if x.pick = t.pick then { x with beyond := true, released := g.release } else x),
        late := g.late || (g.release && t.started) }) s
      let s := engEvent (physOf l s) (bump SHT_LCNT_OVERRUNS l s)
      if g.release then pickDoneFor l t.pick s else s
    else s

/-- A dropped pick is counted for every logical engine's next tick handler (R248). -/
def engineDrop (s : State) : State :=
  (List.range 32).foldl (fun s l =>
    if logRuns l s then onLog l (fun g => { g with dropped := g.dropped + 1 }) s else s) s

/-! ### Swaps: cancellation (R261) -/

/-- The completion of an ENGINE_SWAP. -/
def swapFinish (status detail result : Nat) (s : State) : State := finishCmd 0x1A 0 status detail result s

/-- A waiting swap is cancelled, and both engines' events are raised (R261, R264). -/
def swapCancel (s : State) : State :=
  match s.sht.swap with
  | none => s
  | some w =>
    if w.copying then s
    else
      let s := wr SHT_SWAP_STAT_CANCELLED 0 1 (wr SHT_SWAP_STAT_WAITING 0 0 { s with sht := { s.sht with swap := none } })
      swapFinish 2 0 w.out (engEvent w.spare (engEvent w.out s))

/-- A waiting swap of an outgoing engine is cancelled. -/
def swapCancelOf (e : Nat) (s : State) : State :=
  match s.sht.swap with
  | some w => if w.out = e then swapCancel s else s
  | none => s

/-- Whether a waiting swap has this outgoing engine. -/
def swapWaits (e : Nat) (s : State) : Bool :=
  match s.sht.swap with
  | some w => decide (w.out = e) && !w.copying
  | none => false

/-! ### Swaps: refusal and boundary (R259, R260) -/

/-- The refusal reason of a swap request, 0 when it is accepted (R259). -/
def engSwapReason (l sp mode : Nat) (s : State) : Nat :=
  let st := engSt sp s
  let e := physOf l s
  if 34 ≤ sp ∨ !(st = eSPARE_EMPTY ∨ st = eSPARE_LOADED) ∨ rd SHT_ENG_STAT_SERVES sp s = 1 ∨ (mode = 0 ∧ st ≠ eSPARE_LOADED) then 1
  else if s.sht.swap.isSome then 2
  else if engSt e s = eGATED ∨ engSt e s = eLOADING then 3
  else if 2 ≤ mode then 4
  else if mode = 0 ∧ psync l s ∧ !(hasTick sp s) then 5 else 0

/-- A refused swap request: REFUSED, REASON and the events of both engines (R259, R264). -/
def engSwapRefused (l sp r : Nat) (s : State) : State :=
  let s := engEvent (physOf l s) (wr SHT_SWAP_STAT_REASON 0 r (wr SHT_SWAP_STAT_REFUSED 0 1 s))
  if sp < 34 then engEvent sp s else s

/-- The boundary, where it has come: the outgoing engine is SWAPPING and the copy runs; the takeover follows 16 cc after it (R260). -/
def swapBoundary (s : State) : State :=
  match s.sht.swap with
  | none => s
  | some w =>
    if w.boundary && !w.copying then
      let len := match (engOf w.spare s).img with
        | some i => i.carryLen
        | none => 0
      let cc := if w.migrate then 32832 else if w.carry then (len + 1) / 2 else 0
      let was := if w.was = eRUNNING then eRUNNING else engSt w.out s
      let s := setEngSt w.out eSWAPPING (wr SHT_SWAP_STAT_COPYING 0 1 (wr SHT_SWAP_STAT_WAITING 0 0 s))
      { s with sht := { s.sht with swap := some { w with copying := true, was := was, due := s.now + cc + 16 } } }
    else s

/-- An accepted swap waits for its boundary; for an engine that is STOPPED or FAULTED the request itself is it (R260). -/
def engSwapAccept (x : EngSwap) (s : State) : State :=
  let s := wr SHT_SWAP_STAT_LOG 0 x.log (wr SHT_SWAP_STAT_OUTGOING 0 x.out (wr SHT_SWAP_STAT_WAITING 0 1 s))
  let st := engSt x.out s
  swapBoundary { s with sht := { s.sht with swap := some { x with boundary := decide (st = eSTOPPED ∨ st = eFAULTED) } } }

/-! ### Faults (R255, R294) -/

/-- The loaded spare that replaces a faulted engine on its own: the lowest-numbered one with the engine's image (R255). -/
def autoSpare (e : Nat) (s : State) : Option Nat :=
  (List.range 34).find? (fun x => decide (engSt x s = eSPARE_LOADED
    ∧ rd SHT_ENG_STAT_IMAGE_ID x s = rd SHT_ENG_STAT_IMAGE_ID e s))

/-- The automatic replacement of a faulted engine: without carry, with RETIRE = 1, under R259 and R260; refused, it is the device's own
refused request (R255, R376). -/
def autoSwap (e l p : Nat) (s : State) : State :=
  let r := engSwapReason l p 0 s
  if r = 0 then engSwapAccept { log := l, spare := p, out := e, migrate := false, retire := true, carry := false, was := eRUNNING } s
  else requestRefused .device (SHT_SWAP.off 0) r (BitVec.ofNat 64 (place l 16 5 + 0xC00 + place p 0 6)) (engSwapRefused l p r s)

/-- An engine faults (R255): it stops, its fault is recorded and counted, its event raised, its ticks released, a waiting swap of it
cancelled; a hardware fault starts an automatic replacement. -/
def engineFault (e code pc : Nat) (s : State) : State :=
  let s := onEng e (fun x => { x with faultPc := pc, handler := none, stall := none }) (wr SHT_ENG_STAT_FAULT e code s)
  let s := engEvent e (setEngSt e eFAULTED s)
  match servedBy e s with
  | none => s
  | some l =>
    let s := swapCancelOf e (dropTicks l (bump SHT_LCNT_FAULTS l s))
    if rdB SHT_CTL_AUTO_SPARE 0 s ∧ (code = 5 ∨ code = 15) then
      match autoSpare e s with
      | none => s
      | some p => autoSwap e l p s
    else s

/-- A fault whose instruction was issued before the engine left its program: of an engine that still serves in a state of R254 it is a
fault like any other; elsewhere it is recorded, counted and raised, and the state stands. -/
def lateFault (e code pc : Nat) (s : State) : State :=
  let st := engSt e s
  if st = eRUNNING ∨ st = eCLOSING ∨ st = eSTOPPED ∨ st = eFAULTED then engineFault e code pc s
  else if st = eFAILED ∨ st = eGATED then s
  else
    let s := engEvent e (onEng e (fun x => { x with faultPc := pc }) (wr SHT_ENG_STAT_FAULT e code s))
    match servedBy e s with
    | none => s
    | some l => bump SHT_LCNT_FAULTS l s

/-! ### Run control (R254) -/

/-- The registers of an engine are set to zero; loom memory stands. -/
def clearRegs (x : Eng) : Eng :=
  { x with w := [], v := [], ac := [], p := [], m := [], lc := [], st := 0, reps := [], pc := 0, handler := none, stall := none }

/-- An engine becomes RUNNING with zero registers. -/
def engineRun (e l : Nat) (s : State) : State :=
  let s := onEng e clearRegs (setEngSt e eRUNNING s)
  let s := if rd SHT_ENG_STAT_FAULT e s = 15 then s else wr SHT_ENG_STAT_FAULT e 0 s
  noteGot 0x12 l (onLog l (fun g => { g with pend := [], skipped := 0, dropped := 0, late := false, fresh := true, run := g.run + 1 }) s)

/-- RUN of a logical engine is shown. -/
def setRun (l : Nat) (b : Bool) (s : State) : State := wr SHT_RUN_RUN 0 (setBitTo (rd SHT_RUN_RUN 0 s) l b) s

/-- START_PENDING of a logical engine. -/
def startPending (l : Nat) (s : State) : Bool := bitOf (rd SHT_PEND_START_PENDING 0 s) l

/-- START_PENDING of a logical engine is set or cleared. -/
def setPending (l : Nat) (b : Bool) (s : State) : State :=
  wr SHT_PEND_START_PENDING 0 (setBitTo (rd SHT_PEND_START_PENDING 0 s) l b) s

/-- A CLOSING engine has finished its handler: STOPPED, or RUNNING when a start is pending. -/
def engineStopped (e l : Nat) (s : State) : State :=
  let s := noteGot 0x13 l (setEngSt e eSTOPPED s)
  if startPending l s then engineRun e l (setPending l false s) else s

/-- A RUN = 1 write for one logical engine; the answer says whether it was ignored (R254). -/
def engineStart (l : Nat) (s : State) : State × Bool :=
  let e := physOf l s
  let bad := decide (rd SHT_ENG_STAT_IMAGE_ID e s = 0) || (psync l s && !(hasTick e s)) || decide (engSt e s = eGATED)
  if bad then (s, true)
  else if engSt e s = eRUNNING ∨ engSt e s = eFAULTED ∨ engSt e s = eSWAPPING then (setRun l true s, false)
  else if engSt e s = eCLOSING then (setRun l true (setPending l true s), false)
  else if engSt e s = eSTOPPED then (engineRun e l (setRun l true s), false)
  else (setRun l true s, false)

/-- Whether an engine told to stop is STOPPED at once: no handler runs, or it stalls in a push or pop, which it abandons (R254, R288). -/
def stopsNow (x : Eng) : Bool :=
  match x.stall with
  | some (.push _ _ _) => true
  | some (.pop _ _) => true
  | some .fence => false
  | some .done => false
  | none => x.handler.isNone

/-- A RUN = 0 write for one logical engine: a pending start is cancelled, a waiting swap is cancelled (R262), and the engine is CLOSING,
and STOPPED at once where it can be (R254, R288). -/
def engineStop (l : Nat) (s : State) : State :=
  let e := physOf l s
  let s := setRun l false s
  let st := engSt e s
  let s := if startPending l s ∨ st = eSWAPPING then noteCancel 0x12 l (setPending l false s) else s
  if st = eRUNNING ∨ st = eFAULTED ∨ st = eCLOSING then
    let s := dropTicks l (swapCancelOf e (setEngSt e eCLOSING s))
    if stopsNow (engOf e s) then engineStopped e l (onEng e (fun x => { x with handler := none, stall := none, reps := [] }) s) else s
  else s

/-- The write of SHT_RUN: every logical engine's bit acts. -/
def shtRunWrite (org : Origin) (v : Qword) (s : State) : State :=
  (List.range 32).foldl (fun s l =>
    if bitOf v.toNat l then
      let (s', ignored) := engineStart l s
      if ignored then writeIgnored org (SHT_RUN.off 0) v s' else s'
    else engineStop l s) s

/-- What an engine without its contents keeps: the record of its last fault (R239, R271). -/
def emptied (x : Eng) : Eng := { faultPc := x.faultPc }

/-- Every engine is brought in line with the Frugal profile: S8 to S31 lose their contents (R256). -/
def gateEngines (frugal : Bool) (s : State) : State :=
  (List.range 32).foldl (fun s l =>
    let e := physOf l s
    if l < 8 then s
    else if frugal ∧ engSt e s = eSTOPPED then wr SHT_ENG_STAT_IMAGE_ID e 0 (onEng e emptied (setEngSt e eGATED s))
    else if !frugal ∧ engSt e s = eGATED then setEngSt e eSTOPPED s else s) s

/-! ### Dispatch (R247 to R249) -/

/-- A scalar register is written. -/
def Eng.setW (x : Eng) (r d : Nat) : Eng := { x with w := x.w.put 0 r (d % 2 ^ 48) }

/-- A handler begins at an address with w0 to w2 set (R248). -/
def enterHandler (e : Nat) (h : Handler) (pc w0 w1 : Nat) (s : State) : State :=
  let pick := rd SYS_PICK_NUM_NUM 0 s
  onEng e (fun x => ((({ x with handler := some h, pc := pc }).setW 0 w0).setW 1 w1).setW 2 pick) s

/-- Whether a logical engine waits in a pop of a queue. -/
def popWaits (l q : Nat) (s : State) : Bool :=
  match (engOf (physOf l s) s).stall with
  | some (.pop _ n) => decide (n = q)
  | some (.push _ _ _) => false
  | some .fence => false
  | some .done => false
  | none => false

/-- Whether a logical engine is idle in dispatch with no tick handler to enter, and an enabled binding of it takes from a queue. -/
def dispatchWaits (l q : Nat) (s : State) : Bool :=
  let e := physOf l s
  match (engOf e s).img with
  | none => false
  | some img =>
    engSt e s = eRUNNING && (engOf e s).handler.isNone && !(swapWaits e s && s.sht.swap.any (·.boundary))
      && !((logEngOf l s).pend.any (fun t => !t.started && img.tickEn))
      && (List.range 8).any (fun k =>
        bitOf (logEntry l k s) 15 && logEntry l k s % 256 = q && (img.handlers.getD (slice (logEntry l k s) 12 3) none).isSome)

/-- Whether the first item of a queue falls to a logical engine: one is held, and no lower-numbered logical engine waits for it in a pop
or in dispatch. Those take first (R247, R286). -/
def queueTurn (l q : Nat) (s : State) : Bool :=
  decide (0 < qCount q s) && (List.range l).all (fun k => !(popWaits k q s) && !(dispatchWaits k q s))

/-- The first due queue binding of a logical engine, as queue and handler address. A binding whose handler the image lacks is never
due. -/
def dueBinding (l : Nat) (img : Img) (s : State) : Option (Nat × Nat) :=
  (List.range 8).findSome? (fun k =>
    let b := logEntry l k s
    if bitOf b 15 && queueTurn l (b % 256) s then
      (img.handlers.getD (slice b 12 3) none).map (fun a => (b % 256, a))
    else none)

/-- An engine in dispatch enters the first due handler (R247). -/
def dispatch (e : Nat) (s : State) : State :=
  let x := engOf e s
  match servedBy e s, x.img with
  | some l, some img =>
    if engSt e s = eRUNNING ∧ x.handler.isNone ∧ !(swapWaits e s && (s.sht.swap.any (·.boundary))) then
      let g := logEngOf l s
      match g.pend.find? (fun t => !t.started && img.tickEn) with
      | some t =>
        let w1 := place (satU 16 g.skipped) 32 16 + place (b2n g.late) 31 1 + place (b2n g.fresh) 30 1 + satU 16 g.dropped
        enterHandler e (.tick t.pick) img.tick t.pick w1
          (onLog l (fun g => { g with
            pend := g.pend.map (fun y => if y.pick = t.pick then { y with started := true } else y),
            skipped := 0, dropped := 0, late := t.released, fresh := false }) s)
      | none =>
        match dueBinding l img s with
        | none => s
        | some (q, a) =>
          let r := popItem q s
          match r.1 with
          | none => r.2
          | some (pri, d) => enterHandler e .queue a d (pri * 256 + q) r.2
    else s
  | some _, none => s
  | none, _ => s

/-- A done retires: the handler ends with every repeat level closed; the engine stops, or stands at the boundary of its swap, or waits
in dispatch again (R249, R254, R260, R292). For an engine whose swap was asked for while it was CLOSING, the done that ends the stop is
the boundary too. -/
def retireDone (e : Nat) (s : State) : State :=
  let h := (engOf e s).handler
  let s := onEng e (fun x => { x with handler := none, stall := none, reps := [] }) s
  match servedBy e s with
  | none => s
  | some l =>
    let s := match h with
      | some (.tick n) => pickDoneFor l n (onLog l (fun g => { g with pend := g.pend.filter (fun t => t.pick ≠ n) }) s)
      | some .queue => s
      | none => s
    let s := if engSt e s = eCLOSING then engineStopped e l s else s
    if swapWaits e s && !(psync l s && !(logEngOf l s).pend.isEmpty) then
      { s with sht := { s.sht with swap := s.sht.swap.map (fun w => { w with boundary := true }) } }
    else s

/-! ### Images (R257, R258) -/

/-- One step of the CRC-32, bit by bit. -/
def crcBit (c : Nat) : Nat := if c % 2 = 1 then Nat.xor (c / 2) 0xEDB88320 else c / 2

/-- One byte enters the CRC-32. -/
def crcByte (c b : Nat) : Nat := times 8 crcBit (Nat.xor c (b % 256))

/-- The bytes of a 48-bit word, least significant first. -/
def wordBytes (w : Nat) : List Nat := (List.range 6).map (fun i => slice w (8 * i) 8)

/-- The CRC-32 of IEEE 802.3 over bytes. -/
def crc32 (l : List Nat) : Nat := Nat.xor (l.foldl crcByte 0xFFFFFFFF) 0xFFFFFFFF

/-- A container word as stored: nothing beyond the store. -/
def imgStored (src k : Nat) (s : State) : Option Stored :=
  if src + k < warpWords then some (warpStored (src + k) s) else none

/-- A container word's data. -/
def imgWord (src k : Nat) (s : State) : Nat :=
  match imgStored src k s with
  | some w => (decodeWord w).data
  | none => 0

/-- Whether a container word reads bare or uncorrectable. -/
def imgBadWord (src k : Nat) (s : State) : Bool :=
  match imgStored src k s with
  | none => true
  | some w => match decodeWord w with
    | .clean _ => false
    | .corrected _ => false
    | .bare => true
    | .bareUpset => true
    | .bad => true

/-- The segments of a container from an offset: (offset of the header, first loom word, length). -/
def imgSegs (src : Nat) (s : State) : Nat → Nat → List (Nat × Nat × Nat)
  | 0, _ => []
  | n + 1, k =>
    let h := imgWord src k s
    (k, h % 2 ^ 16, slice h 31 17) :: imgSegs src s n (k + 1 + slice h 31 17)

/-- The header of a container as an image. -/
def imgHeader (src : Nat) (s : State) : Img :=
  let w := fun k => imgWord src k s
  { id := slice (w 1) 32 16, instr := slice (w 1) 16 16, tickEn := bitOf (w 4) 33, tick := slice (w 4) 34 14,
    handlers := (List.range 8).map (fun i =>
      let x := w (5 + i / 2)
      if i % 2 = 0 then (if bitOf x 33 then some (slice x 34 14) else none)
      else (if bitOf x 9 then some (slice x 10 14) else none)),
    carryBase := slice (w 3) 32 16, carryLen := slice (w 3) 15 17 }

/-- Whether some segment overlaps one that comes before it, or is misplaced: the header of the first such. -/
def segBad : List (Nat × Nat × Nat) → List (Nat × Nat × Nat) → Option Nat
  | _, [] => none
  | seen, (k, a, n) :: t =>
    if n = 0 ∨ 65536 < a + n ∨ seen.any (fun x => decide (a < x.2.1 + x.2.2 ∧ x.2.1 < a + n)) then some k
    else segBad ((k, a, n) :: seen) t

/-- The first failing check of a container, as its code and the offset of the word concerned (R258). -/
def imgCheck (src : Nat) (s : State) : Option (Nat × Nat) :=
  let w := fun k => imgWord src k s
  let i := imgHeader src s
  let nseg := slice (w 1) 8 8
  let segs := imgSegs src s nseg (9 + i.instr)
  let len := slice (w 2) 24 24
  let sum := 9 + i.instr + sumN (segs.map (fun x => 1 + x.2.2))
  let hdrBad := (List.range 4).find? (fun j =>
    decide (slice (w (5 + j)) 24 9 ≠ 0 ∨ w (5 + j) % 2 ^ 9 ≠ 0))
  let segRsv := segs.find? (fun x => decide (slice (w x.1) 16 15 ≠ 0))
  if slice (w 0) 24 24 ≠ 0x535758 ∨ slice (w 0) 16 8 ≠ 1 then some (1, 0)
  else if slice (w 0) 8 8 ≠ rd SYS_ID_STEP_MAJOR 0 s then some (2, 0)
  else if w 0 % 256 ≠ 0 then some (3, 0)
  else if i.id = 0 ∨ i.instr = 0 ∨ 16384 < i.instr ∨ 64 < nseg ∨ w 1 % 256 ≠ 0 then some (3, 1)
  else if w 2 % 2 ^ 24 ≠ 0 then some (3, 2)
  else if w 3 % 2 ^ 15 ≠ 0 then some (3, 3)
  else if bitOf (w 4) 32 then some (3, 4)
  else if hdrBad.isSome then some (3, 5 + hdrBad.getD 0)
  else if segRsv.isSome then some (3, (segRsv.getD (0, 0, 0)).1)
  else if src < 0x1600000 ∨ warpWords < src + len ∨ len ≠ sum then some (4, 2)
  else if i.tickEn ∧ i.instr ≤ i.tick then some (5, 4)
  else match (List.range 8).find? (fun j => (i.handlers.getD j none).any (fun a => decide (i.instr ≤ a))) with
    | some j => some (5, 5 + j / 2)
    | none => match segBad [] segs with
      | some k => some (6, k)
      | none =>
        if 65536 < i.carryBase + i.carryLen then some (6, 3)
        else
          let bytes := (List.range len).flatMap (fun k => wordBytes (if k = 4 then w 4 / 2 ^ 32 * 2 ^ 32 else w k))
          if crc32 bytes ≠ w 4 % 2 ^ 32 then some (7, 4)
          else ((List.range len).find? (fun k => imgBadWord src k s)).map (fun k => (8, k))

/-- The contents a passed container gives an engine: every word not loaded is bare (R257). -/
def imgContents (src : Nat) (s : State) : Eng :=
  let i := imgHeader src s
  let segs := imgSegs src s (slice (imgWord src 1 s) 8 8) (9 + i.instr)
  { istore := (List.range i.instr).map (fun k => (k, encodeWord (imgWord src (9 + k) s))),
    loom := segs.foldl (fun m x => (List.range x.2.2).foldl (fun m k =>
      m.put bareWord (x.2.1 + k) (encodeWord (imgWord src (x.1 + 1 + k) s))) m) [],
    img := some i }

/-- A request to load an image; the answer says whether it was refused (R257). -/
def imgRequest (e src : Nat) (s : State) : State × Bool :=
  let st := engSt e s
  let named := s.sht.swap.any (fun w => decide (w.out = e ∨ w.spare = e))
  if 34 ≤ e ∨ s.sht.load.isSome ∨ named ∨ !(st = eSPARE_EMPTY ∨ st = eSPARE_LOADED ∨ st = eSTOPPED) then
    (wr SHT_IMG_STAT_REFUSED 0 1 s, true)
  else
    (wr SHT_IMG_STAT_BUSY 0 1 (wr SHT_IMG_STAT_ENGINE 0 e (setEngSt e eLOADING
      { s with sht := { s.sht with load := some { engine := e, src := src, spare := st ≠ eSTOPPED } } })), false)

/-- The write of SHT_IMG_CTL. -/
def imgCtlWrite (org : Origin) (v : Qword) (s : State) : State :=
  if bitOf v.toNat 41 then
    let (s', refused) := imgRequest (SHT_IMG_CTL_ENGINE.ofQ v) (SHT_IMG_CTL_SRC.ofQ v) s
    if refused then requestRefused org (SHT_IMG_CTL.off 0) 0 v s' else s'
  else s

/-- How many words of a container a load reads: its header, and the whole of one no longer than the largest. -/
def imgReadLen (src : Nat) (s : State) : Nat :=
  let len := slice (imgWord src 2 s) 24 24
  min (if len ≤ 81993 then max 9 len else 9) (warpWords - src)

/-- The quads that words belong to are touched as every access touches them (R321). -/
def touchWords (src n : Nat) (s : State) : State :=
  (List.range (n / 4 + 2)).foldl (fun s i => if src / 4 + i ≤ (src + n - 1) / 4 then fillTouch (src / 4 + i) s else s) s

/-- The accounting of one container word (R300): an image load is not among the bare reads that R301 counts. -/
def imgAccount (a : Nat) (s : State) : State := (warpFetch (reqOther reqENG) a s).2

/-- The reads of a load: every container word is read and accounted. -/
def imgRead (src : Nat) (s : State) : State :=
  (List.range (imgReadLen src s)).foldl (fun s k => imgAccount (src + k) s) s

/-- The store as a load of the container at a word has seen it, where a running fill owes some of its words. -/
def imgSeen (src : Nat) (s : State) : State :=
  let s := touchWords src 9 s
  touchWords src (imgReadLen src s) s

/-- A running load ends: the result of the checks stands (R257, R258). -/
def imgLoadEnd (s : State) : State :=
  match s.sht.load with
  | none => s
  | some ld =>
    let s := imgSeen ld.src s
    let r := imgCheck ld.src s
    let x := imgContents ld.src s
    let s := imgRead ld.src s
    let s := { s with sht := { s.sht with load := none } }
    let s := match r with
      | none =>
        wr SHT_ENG_STAT_IMAGE_ID ld.engine (x.img.elim 0 (·.id)) (setEngSt ld.engine (if ld.spare then eSPARE_LOADED else eSTOPPED)
          (onEng ld.engine (fun y => { y with istore := x.istore, loom := x.loom, img := x.img }) s))
      | some _ =>
        wr SHT_ENG_STAT_IMAGE_ID ld.engine 0 (setEngSt ld.engine (if ld.spare then eSPARE_EMPTY else eSTOPPED)
          (onEng ld.engine (fun y => { y with img := none }) s))
    let err := (r.getD (0, 0)).1
    let at_ := (r.getD (0, 0)).2
    let s := wr SHT_IMG_STAT_BUSY 0 0 (wr SHT_IMG_STAT_ERR 0 err (wr SHT_IMG_STAT_ERR_WORD 0 at_ s))
    finishCmd 0x19 ld.engine (if err = 0 then 0 else 0x16) err at_ (engEvent ld.engine s)

/-! ### Swaps (R259, R260) -/

/-- A swap request in the layout of SHT_SWAP: the state and the reason of a refusal, 0 for none. -/
def engSwapRequest (v : Qword) (s : State) : State × Nat :=
  let l := SHT_SWAP_LOG.ofQ v
  let sp := SHT_SWAP_SPARE.ofQ v
  let r := engSwapReason l sp (SHT_SWAP_MODE.ofQ v) s
  let e := physOf l s
  if r ≠ 0 then (engSwapRefused l sp r s, r)
  else
    let x : EngSwap := { log := l, spare := sp, out := e, migrate := SHT_SWAP_MODE.ofQ v = 1, retire := SHT_SWAP_RETIRE.ofQ v = 1 }
    (engSwapAccept x s, 0)

/-- The write of SHT_SWAP: CANCEL, then REQ (R259, R261, R263). -/
def shtSwapWrite (org : Origin) (v : Qword) (s : State) : State :=
  let s := if bitOf v.toNat 12 then
      if rdB SHT_SWAP_STAT_WAITING 0 s then swapCancel s else writeIgnored org (SHT_SWAP.off 0) v s
    else s
  if bitOf v.toNat 11 then
    let (s', r) := engSwapRequest v s
    if r = 0 then s' else requestRefused org (SHT_SWAP.off 0) r v s'
  else s

/-- The loom words a replacement carries from the outgoing engine. -/
def carryLoom (i : Img) (src dst : Smap Stored) : Smap Stored :=
  (List.range i.carryLen).foldl (fun m k => m.put bareWord (i.carryBase + k) (src.get bareWord (i.carryBase + k))) dst

/-- A RUN written while a swap copied acts at the takeover: a start that is ignored there leaves RUN at 0, with a log entry (R254). A
start command that waited for the engine has it RUNNING, or refused. -/
def runAtTakeover (l : Nat) (s : State) : State :=
  let run := bitOf (rd SHT_RUN_RUN 0 s) l
  let st := engSt (physOf l s) s
  if (st = eRUNNING ∨ st = eFAULTED) ∧ run = false then engineStop l s
  else if st = eRUNNING then noteGot 0x12 l s
  else if st = eSTOPPED ∧ run = true then
    let (s', ignored) := engineStart l s
    if ignored then
      noteNotStarted 0x12 l (setRun l false (writeIgnored .device (SHT_RUN.off 0) (BitVec.ofNat 64 (rd SHT_RUN_RUN 0 s)) s'))
    else s'
  else if st = eSTOPPED then noteGot 0x13 l s
  else if run then noteNotStarted 0x12 l s else s

/-- The takeover: the spare serves the logical engine in the state it had at the boundary (R260). Fault records stay with the physical
engines (R239); tick handlers that wait for an image without one are over. -/
def swapTakeover (s : State) : State :=
  match s.sht.swap with
  | none => s
  | some w =>
    if w.copying then
      let s := advanceTo w.due s
      let old := engOf w.out s
      let sp := engOf w.spare s
      let new := if w.migrate then { old with acc := [], faultPc := sp.faultPc }
        else clearRegs (match sp.img with
          | some i => if w.carry then { sp with loom := carryLoom i old.loom sp.loom } else sp
          | none => sp)
      let s := setEng w.spare new s
      let s := wr SHT_ENG_STAT_IMAGE_ID w.spare (new.img.elim 0 (·.id)) s
      let s := wr SHT_ENG_STAT_SERVES w.spare 1 (wr SHT_ENG_STAT_LOG w.spare w.log (setEngSt w.spare w.was s))
      let s := wr SHT_ENG_STAT_SERVES w.out 0 (wr SHT_ENG_STAT_LOG w.out 0 s)
      let s := setEngSt w.out (if w.retire then eFAILED else if old.img.isSome then eSPARE_LOADED else eSPARE_EMPTY) s
      let s := onLog w.log (fun g => { g with fresh := true }) { s with sht := { s.sht with swap := none } }
      let s := if hasTick w.spare s then s else dropTicks w.log s
      let s := bump SHT_SWAP_STAT_SWAPS 0 (wr SHT_SWAP_STAT_DONE 0 1 (wr SHT_SWAP_STAT_COPYING 0 0 s))
      swapFinish 0 0 w.out (runAtTakeover w.log (engEvent w.spare (engEvent w.out s)))
    else s

/-! ### Bindings, windows and configuration (R263, R267) -/

/-- What an entry keeps of a written value. -/
def logMask (k : Nat) (v : Qword) : Nat :=
  let n := v.toNat
  if k < 8 then slice n 12 4 * 2 ^ 12 + n % 256
  else if k < 10 then place (slice n 47 1) 47 1 + n % 2 ^ 46
  else slice n 24 24 * 2 ^ 24 + n % 4

/-- What SHT_LOG_DATA shows of the entry the address names. -/
def logDataShow (s : State) : Nat :=
  let l := rd SHT_LOG_ADDR_LOG 0 s
  let k := rd SHT_LOG_ADDR_ENTRY 0 s
  if 10 < k then 0
  else if k = 10 then logEntry l 10 s + place (physOf l s) 16 6
  else logEntry l k s

/-- Every access to SHT_LOG_DATA advances ENTRY (R267, R578). -/
def logAdvance (s : State) : State :=
  let k := rd SHT_LOG_ADDR_ENTRY 0 s
  wr SHT_LOG_ADDR_ENTRY 0 (if k = 10 then 0 else (k + 1) % 16) s

/-- An access to SHT_LOG_DATA. -/
def logData (org : Origin) (w : Option Qword) (s : State) : State :=
  let l := rd SHT_LOG_ADDR_LOG 0 s
  let k := rd SHT_LOG_ADDR_ENTRY 0 s
  logAdvance <| match w with
    | none => if 10 < k then violate blkSHT 0x0F org 0 0 0 s else s
    | some v =>
      let ign := writeIgnored org (SHT_LOG_DATA.off 0) v s
      let stopped := decide (engSt (physOf l s) s = eSTOPPED)
      let put := fun x => onLog l (fun g => { g with entries := g.entries.put (logEntryRst k) k x })
      let x := logMask k v
      if 10 < k then ign
      else if k = 10 then
        if stopped ∨ x % 2 = logEntry l 10 s % 2 then put x s
        else put (x / 2 * 2 + logEntry l 10 s % 2) ign
      else if !stopped then ign
      else if k < 8 ∧ bitOf x 15 ∧ ringBound (x % 256) s then ign
      else if k < 8 ∧ bitOf x 15 then bobBound (x % 256) (put x s)
      else put x s

/-! ### The commands of this chapter -/

/-- HANDLER_DISPATCH. -/
def execHandlerDispatch (e : Fin 34) (s : State) : Res := .next (dispatch e s)

/-- TICK_HANDLER_PENDING. -/
def execTickHandlerPending (s : State) : Res := .next (tickHandlerRow s)

/-- PBUDGET_EXPIRY. -/
def execPbudgetExpiry (l : Fin 32) (s : State) : Res := .next (budgetExpiry l s)

/-- ENGINE_RUN_START: a SHT_RUN write that sets the bit of one logical engine over the present value. -/
def execEngineRunStart (l : Fin 32) (s : State) : Res :=
  if s.sys.inReset then .next s else
  let (s', ignored) := engineStart l s
  .next (if ignored then writeIgnored .pcie (SHT_RUN.off 0) (BitVec.ofNat 64 (setBitTo (rd SHT_RUN_RUN 0 s) l true)) s' else s')

/-- ENGINE_RUN_STOP: a SHT_RUN write that clears the bit of one logical engine. -/
def execEngineRunStop (l : Fin 32) (s : State) : Res :=
  if s.sys.inReset then .next s else
  .next (engineStop l s)

/-- IMG_LOAD: a SHT_IMG_CTL write with LOAD = 1. -/
def execImgLoad (v : Qword) (s : State) : Res :=
  if s.sys.inReset then .next s else
  .next (imgCtlWrite .pcie (v ||| 0x20000000000#64) s)

/-- IMG_LOAD_END. -/
def execImgLoadEnd (s : State) : Res := .next (imgLoadEnd s)

/-- ENGINE_SWAP_REQUEST: a SHT_SWAP write with REQ = 1. -/
def execEngineSwapRequest (v : Qword) (s : State) : Res :=
  if s.sys.inReset then .next s else
  .next (shtSwapWrite .pcie (v ||| 0x800#64) s)

/-- SWAP_CANCEL: a SHT_SWAP write with CANCEL = 1 alone. -/
def execSwapCancel (s : State) : Res :=
  if s.sys.inReset then .next s else
  .next (shtSwapWrite .pcie 0x1000#64 s)

/-- SWAP_BOUNDARY. -/
def execSwapBoundary (s : State) : Res := .next (swapBoundary s)

/-- SWAP_TAKEOVER. -/
def execSwapTakeover (s : State) : Res := .next (swapTakeover s)

/-- SHT_LOG_DATA_ACCESS. -/
def execShtLogDataAccess (w : Option Qword) (s : State) : Res :=
  if s.sys.inReset then .next (resetAccess 8 w.isNone s) else
  match w with
  | none => .next (emit (.readData (BitVec.ofNat 64 (logDataShow s))) (logData .pcie none s))
  | some v => .next (logData .pcie (some v) s)

/-- DONE_RETIRE: a done that waits retires when no access is outstanding. -/
def execDoneRetire (e : Fin 34) (s : State) : Res :=
  if (engOf e s).stall = some .done ∧ (engOf e s).acc = [] then .next (retireDone e s) else .next s

/-- ENGINE_SELF_CHECK_FAIL: a running or closing engine faults with code 1111 (R255). -/
def execEngineSelfCheckFail (e : Fin 34) (s : State) : Res :=
  if engSt e s = eRUNNING ∨ engSt e s = eCLOSING then .next (engineFault e 15 (engOf e s).pc s) else .next s

end Sys2Proof.Machine
end

