-- ==== Sys2Proof/Machine/Gauge.lean ====
section
/-!
DEFINITION. Gauge geometry and the break locator (chapter 04): the checks of a port's geometry, distances, the envelopes of
lines, fibre-end marking, breaks and losses. The cell computation is in Machine/Cells.lean.
-/

set_option autoImplicit false

namespace Sys2Proof.Machine

/-! ### Geometry (R125 to R129) -/

/-- The largest shed in force of a port's installed lines, 0 when none is installed. -/
def portMaxShed (p : Nat) (s : State) : Nat := maxL ((List.range 8).map (fun l => shedOf (lineIdx p l) s))

/-- The first failing check of a port's geometry, 0 when it is valid (R125). -/
def geomErr (p : Nat) (s : State) : Nat :=
  let cells := rd GAU_SPAN_CELLS p s
  let k := rd GAU_SHAPE_K p s
  let w := rd GAU_SHAPE_W p s
  let g := rd GAU_SHAPE_G p s
  let base := rd GAU_SHAPE_BASE p s
  if !(1 ≤ cells ∧ cells ≤ 262144 ∧ 1 ≤ k ∧ k ≤ 64 ∧ 1 ≤ w ∧ w ≤ 64 ∧ 1 ≤ g ∧ g ≤ 255) then 1
  else if base % 8 ≠ 0 ∨ 4194304 < base + cells then 2
  else if (List.range 16).any (fun q => q ≠ p && portActive q s
      && decide (base < rd GAU_SHAPE_BASE q s + rd GAU_SPAN_CELLS q s ∧ rd GAU_SHAPE_BASE q s < base + cells)) then 3
  else if portMaxShed p s = 0 then 4
  else if portMaxShed p s ≤ rd GAU_SPAN_FIRST p s + (cells - 1) * k + w - 1 + g then 5
  else 0

/-- The distance of R129 for a position in half samples from the start of the shed, in mm. -/
def distanceMm (half origin ng : Nat) : Int :=
  divRound (((half : Int) - 2 * (origin : Int)) * 299792458 * 65536 * 1000) (2 * 2 * ng * 500000000)

/-- The distance of a phase cell (R129), under the group index in force. -/
def cellDistance (p j : Nat) (s : State) : Int :=
  distanceMm (2 * (rd GAU_SPAN_FIRST p s + j * rd GAU_SHAPE_K p s) + (rd GAU_SHAPE_W p s + rd GAU_SHAPE_G p s - 1))
    (rd GAU_REF_ORIGIN p s) (ngActs (rdI GAU_NG_N_G 0 s))

/-- The write of GAU_SPAN or GAU_SHAPE (R126): the whole register, only while the port is STOPPED or GATED. -/
def gauStructWrite (org : Origin) (r : Reg) (p : Nat) (v : Qword) (s : State) : State :=
  if portIdle p s then
    let old := [rd GAU_SPAN_CELLS p s, rd GAU_SPAN_FIRST p s, rd GAU_SHAPE_K p s, rd GAU_SHAPE_W p s, rd GAU_SHAPE_G p s]
    let s := regWrite r p v s
    if old = [rd GAU_SPAN_CELLS p s, rd GAU_SPAN_FIRST p s, rd GAU_SHAPE_K p s, rd GAU_SHAPE_W p s, rd GAU_SHAPE_G p s] then s
    else { s with gauge := { s.gauge with resetAtRun := s.gauge.resetAtRun.put false p true } }
  else writeIgnored org (r.off p) v s

/-- The write of GAU_REF (R126, R146, R577). -/
def gauRefWrite (org : Origin) (p : Nat) (v : Qword) (s : State) : State :=
  let o := rd GAU_REF_ORIGIN p s
  let s' := latchFld GAU_REF_NOISE_LOG p (GAU_REF_NOISE_LOG.ofQ v) s
  if GAU_REF_ORIGIN.ofQ v = o then s'
  else if portIdle p s then wr GAU_REF_ORIGIN p (GAU_REF_ORIGIN.ofQ v) s'
  else writeIgnored org (GAU_REF.off p) v s'

/-- The write of GAU_BRK_CTL: in force at the next tick while WEAVING, at once otherwise (R138). -/
def gauLatchWrite (r : Reg) (v : Qword) (s : State) : State :=
  r.fields.foldl (fun s f => latchFld f 0 (f.ofQ v) s) s

/-! ### Line states (R131 to R137) -/

/-- The locator's state of a line. -/
def lineEnv (j : Nat) (s : State) : LineEnv := s.gauge.lines.get {} j

/-- A line's state is replaced. -/
def setLineEnv (j : Nat) (e : LineEnv) (s : State) : State :=
  { s with gauge := { s.gauge with lines := s.gauge.lines.put {} j e } }

/-- The envelope of a segment: the running mean while the line learns, the kept value afterwards (R131). A segment without a value has
none. -/
def envOf (e : LineEnv) (m : Nat) : Option Rat :=
  if e.learned then e.env.find? m
  else if e.counts.get 0 m = 0 then none else some (mkRat (e.sums.get 0 m : Nat) (e.counts.get 0 m))

/-- Whether a segment is lit (R132). -/
def litSeg (e : LineEnv) (noise margin m : Nat) : Bool :=
  match envOf e m with
  | some v => decide (((noise + margin : Nat) : Rat) ≤ v)
  | none => false

/-- The lit segments of a line, ascending. -/
def litSegs (e : LineEnv) (noise margin : Nat) : List Nat := (List.range e.segs).filter (fun m => litSeg e noise margin m)

/-- END_SEG of a line, where it has a lit segment (R132). -/
def endSeg (e : LineEnv) (noise margin : Nat) : Option Nat := (litSegs e noise margin).getLast?

/-- The first cell that the locator marks dark: beyond a standing break, or beyond END_SEG of a LEARNED line (R132, R134). -/
def darkOf (e : LineEnv) (noise margin : Nat) : Option Nat :=
  let b := if e.brk then some (e.brkCell + 1) else none
  let f := if e.learned then (endSeg e noise margin).map (fun m => 512 * (m + 1)) else none
  match b, f with
  | some x, some y => some (minN x y)
  | some x, none => some x
  | none, y => y

/-- The dark marking of a line's picks in flight is settled before the line's states reset: a reset acts on the next pick (R137). -/
def freezeDark (j : Nat) (s : State) : State :=
  mapParts (fun _ x => if lineIdx x.port x.line = j ∧ !x.darkSet then
    { x with darkSet := true, darkFrom := darkOf (lineEnv j s) x.noise (x.brk.getD 1 0) } else x) s

/-- A reset of a line's envelope and its BREAK, LOSS and LEARNED states (R137); the cell of the last break stays (R143). -/
def envResetNow (j : Nat) (s : State) : State :=
  setLineEnv j { gen := (lineEnv j s).gen + 1, brkCell := (lineEnv j s).brkCell } (freezeDark j s)

/-- What a line's registers show (R143): with the noise reference and margin in force. -/
def lineShow (j : Nat) (e : LineEnv) (s : State) : Nat :=
  let es := endSeg e (rdI GAU_REF_NOISE_LOG (j / 8) s) (rdI GAU_BRK_CTL_LIT_MARGIN 0 s)
  place e.brkCell 24 19 + place (es.getD 0) 12 9 + place (b2n (e.learned && es.isNone)) 4 1
    + place (b2n e.loss) 2 1 + place (b2n e.brk) 1 1 + place (b2n e.learned) 0 1

/-- The state of a line as a read sees it: of the most recent tick while WEAVING, the present one otherwise (R143). -/
def lineSeen (j : Nat) (s : State) : LineEnv := if weaving s then s.gauge.snap.get {} j else lineEnv j s

/-- GAU_LINE_DATA as it reads. -/
def gauLineData (s : State) : Nat := lineShow (rd GAU_LINE_ADDR_LINE 0 s) (lineSeen (rd GAU_LINE_ADDR_LINE 0 s) s) s

/-- The part of GAU_STAT that is no register field (R147). A port that has had no phase pick shows its reset values. GEOM_OK judges the
geometry of the moment of the read, as its row says, and GEOM_ERR stands as last set; only the line's state follows the timing of R143
(DEDUCED, log entry 93). -/
def gauStatShow (p : Nat) (s : State) : Nat :=
  let n := (if weaving s then s.gauge.snapLine else s.gauge.lastLine).get 0 p
  let e := lineSeen (n - 1) s
  (if n = 0 then 0 else
    place e.brkCell 24 19 + place (n - 1) 10 7 + place (b2n e.loss) 3 1 + place (b2n e.brk) 2 1 + place (b2n (!e.learned)) 1 1)
    + place (b2n (geomErr p s = 0)) 0 1

/-- The write of GAU_LINE_DATA: ENV_RESET at once, or at the next tick while WEAVING (R137). -/
def gauLineWrite (v : Qword) (s : State) : State :=
  let j := rd GAU_LINE_ADDR_LINE 0 s
  if bitOf v.toNat 3 then
    if weaving s then setLineEnv j { lineEnv j s with resetDue := true } s else envResetNow j s
  else s

/-- Due resets are made, and written GAU_BRK_CTL and NOISE_LOG values come into force: at a tick (R137, R138), and when the device leaves
WEAVING, so that a read then shows every write (R143). -/
def gaugeSettle (s : State) : State :=
  let s := (s.gauge.lines.map (·.1)).foldl (fun s j => if (lineEnv j s).resetDue then envResetNow j s else s) s
  (List.range 16).foldl (fun s p => enforce GAU_REF_NOISE_LOG p s) (GAU_BRK_CTL.fields.foldl (fun s f => enforce f 0 s) s)

/-- The states that a read sees while WEAVING (R143, R147): those of the tick, or of the entry into WEAVING before the first tick. -/
def gaugeSnap (s : State) : State := { s with gauge := { s.gauge with snap := s.gauge.lines, snapLine := s.gauge.lastLine } }

/-- At a tick: due resets, the latched settings, and the states a read sees (R129, R137, R138, R143). The states are taken before the
tick's own launches: LINE names the port's phase pick before the one launched at the tick (DESIGN CHOICE, log entry 93). -/
def gaugeTick (s : State) : State := gaugeSnap (enforce GAU_NG_N_G 0 (gaugeSettle s))

/-- A port that enters RUNNING after its geometry changed has its lines' states reset (R126). -/
def gaugeRun (p : Nat) (s : State) : State :=
  if s.gauge.resetAtRun.get false p then
    let s := (List.range 8).foldl (fun s l => envResetNow (lineIdx p l) s) s
    { s with gauge := { s.gauge with resetAtRun := s.gauge.resetAtRun.put false p false } }
  else s

/-! ### The locator's decision (R130 to R136) -/

/-- P_m of a segment in a pick, where it has a counted cell (R130). -/
def segMean (x : PortPick) (m : Nat) : Option Nat :=
  if x.segCnt.get 0 m = 0 then none else some (x.segSum.get 0 m / x.segCnt.get 0 m)

/-- Whether a segment is dropped in a pick (R133). -/
def segDropped (x : PortPick) (e : LineEnv) (drop margin m : Nat) : Bool :=
  match segMean x m, envOf e m with
  | some pm, some v => decide (((pm + drop : Nat) : Rat) < v ∧ pm < x.noise + margin)
  | some _, none => false
  | none, _ => false

/-- A rational quotient by a power of two, truncated towards zero. -/
def ratTrunc (q : Rat) (sh : Nat) : Int := q.num.tdiv (q.den * 2 ^ sh : Nat)

/-- The envelope's update in a pick without a standing break or loss (R131). An envelope value is held as an exact fraction, the running
mean uncut; only the step is truncated (DESIGN CHOICE, log entry 93). -/
def envUpdate (x : PortPick) (e : LineEnv) (drop tc : Nat) : LineEnv :=
  { e with env := (List.range e.segs).foldl (fun m i =>
      match segMean x i, e.env.find? i with
      | some pm, some v =>
        let d := (pm : Rat) - v
        if -(drop : Rat) ≤ d ∧ d ≤ (drop : Rat) then (m.erase i).insert i (v + (ratTrunc d tc : Rat)) else m
      | some _, none => m
      | none, _ => m) e.env }

/-- One learning pick of a line (R131). A segment without a counted cell in every learning pick has no envelope value: it is never lit, and
no later pick gives it one (DESIGN CHOICE, log entry 93). -/
def envLearn (x : PortPick) (e : LineEnv) (segs learn : Nat) : LineEnv :=
  let e := (List.range segs).foldl (fun e i =>
    match segMean x i with
    | some pm => { e with sums := e.sums.put 0 i (e.sums.get 0 i + pm), counts := e.counts.put 0 i (e.counts.get 0 i + 1) }
    | none => e) { e with segs := segs, learnt := e.learnt + 1 }
  if maxN learn 1 ≤ e.learnt then
    { e with learned := true,
             env := (List.range segs).filterMap (fun i => (envOf { e with learned := false } i).map (fun v => (i, v))) }
  else e

/-- The break cell of R133 between the segments h and m0: the highest cell found, or the fallback. -/
def breakCell (x : PortPick) (h m0 cells margin : Nat) : Nat :=
  let top := minN (512 * m0 + 511) (cells - 1)
  let found := x.mags.filter (fun e => decide (512 * h ≤ e.1 ∧ e.1 ≤ top ∧ x.noise + margin ≤ e.2))
  match found.getLast? with
  | some e => e.1
  | none => 512 * h + 511

/-- The locator's decision for a launched phase pick `n` of a port (R131 to R136). -/
def breakDecide (x : PortPick) (n : Nat) (s : State) : State :=
  let p := x.port
  let j := lineIdx p x.line
  let e := lineEnv j s
  if e.gen ≠ x.lineGen then s
  else
    let drop := x.brk.getD 0 0
    let margin := x.brk.getD 1 0
    let clear := maxN (x.brk.getD 2 0) 1
    let tc := x.brk.getD 3 0
    let segs := (rd GAU_SPAN_CELLS p s + 511) / 512
    if !e.learned then setLineEnv j (envLearn x e segs (x.brk.getD 4 0)) s
    else
      let lit := litSegs e x.noise margin
      let dropped := lit.filter (fun m => segDropped x e drop margin m)
      let up := lit.filter (fun m => !(segDropped x e drop margin m))
      if e.brk then
        if dropped.isEmpty then
          if clear ≤ e.clearRun + 1 then
            let s := setLineEnv j { e with brk := false, clearRun := 0 } s
            raise 249 (eventRecord 0x04 249 (place j 17 7) n 0 0 s)
          else setLineEnv j { e with clearRun := e.clearRun + 1 } s
        else setLineEnv j { e with clearRun := 0 } s
      else if e.loss then
        if dropped.isEmpty then
          let s := setLineEnv j { e with loss := false } s
          raise 249 (eventRecord 0x04 249 (place j 17 7 + 1) n 0 0 s)
        else s
      else if dropped.isEmpty then setLineEnv j (envUpdate x e drop tc) s
      else if up.isEmpty then
        let s := bump GAU_CNT_LOSSES p (setLineEnv j { e with loss := true } s)
        raise 248 (eventRecord 0x03 248 (place j 17 7) n 0 0 s)
      else
        let m0 := dropped.headD 0
        let h := up.getLastD 0
        if h < m0 then
          let b := breakCell x h m0 (rd GAU_SPAN_CELLS p s) margin
          let s := bump GAU_CNT_BREAKS p (setLineEnv j { e with brk := true, brkCell := b, clearRun := 0 } s)
          raise 248 (eventRecord 0x02 248 (place j 17 7) n (place b 25 19 + place (rd GAU_SHAPE_BASE p s + b) 0 25)
            (ux 48 (cellDistance p b s)) s)
        else bump GAU_CNT_SCATTER p (setLineEnv j (envUpdate x e drop tc) s)

/-- ENV_RESET: a GAU_LINE_DATA write with ENV_RESET = 1. -/
def execEnvReset (v : Qword) (s : State) : Res := .next (gauLineWrite (v ||| 8#64) s)

end Sys2Proof.Machine
end

