-- ==== Sys2Proof/Machine/Source.lean ====
section
/-!
DEFINITION. Source drive and lines (chapter 14): permission, current channels and fades, the addressed bus with its presets,
restores and LO transfers, blanking, and the launch monitor's missing-stamp count.
-/

set_option autoImplicit false

namespace Sys2Proof.Machine

/-! ### Current channels -/

/-- A channel's state beside its registers. -/
def chanOf (c : Nat) (s : State) : Chan := s.src.chans.get {} c

/-- A channel's state is replaced. -/
def setChan (c : Nat) (x : Chan) (s : State) : State :=
  { s with src := { s.src with chans := s.src.chans.put {} c x } }

/-- The mode a channel acts in: the reserved code acts as off (R421). -/
def chanMode (c : Nat) (s : State) : Nat :=
  if rd SRC_CUR_MODE_MODE c s = 3 then 0 else rd SRC_CUR_MODE_MODE c s

/-- The setpoint in force (R447). -/
def setpointOf (c : Nat) (s : State) : Nat := minN 60000 (rdI SRC_CUR_SET c s)

/-- The fade time in force, in µs (R422, R447). -/
def fadeUs (c : Nat) (s : State) : Nat := clampN 1 6000000 (rdI SRC_CUR_FADE c s) * 10

/-- A channel in state FAULT. -/
def chanFault (c : Nat) (s : State) : Bool := rd SRC_CUR_STAT_STATE c s = 2

/-- The greatest n whose half-step lies at or below the exponential curve: `a · (b/a)^(t/tf)` rounded half away (R422), by trial of
`k` bits from the top. -/
def expoGo (a b t tf : Nat) : Nat → Nat → Nat
  | 0, r => r
  | k + 1, r =>
    let n := r + 2 ^ k
    expoGo a b t tf k (if (2 * n - 1) ^ tf * a ^ t ≤ (2 * a) ^ tf * b ^ t then n else r)

/-- PRESENT at t µs of a fade (R422). -/
def fadeValue (f : Fade) (t : Nat) : Nat :=
  if t = f.tf then f.target
  else if t = 0 then (if f.shape then maxN f.start 1 else f.start)
  else if f.shape then expoGo (maxN f.start 1) (maxN f.target 1) t f.tf 16 0
  else (divRound ((f.start * f.tf : Nat) + ((f.target : Int) - (f.start : Int)) * (t : Int)) f.tf).toNat

/-- A fade to the setpoint in force begins from the present setting, with the update of t = 0 (R422). -/
def startFade (c : Nat) (s : State) : State :=
  let f : Fade := {
    start := rd SRC_CUR_STAT_PRESENT c s, target := setpointOf c s, shape := rdI SRC_CUR_SHAPE c s = 1, tf := fadeUs c s,
    at_ := s.now, step := 1 }
  wr SRC_CUR_STAT_PRESENT c (fadeValue f 0) (wr SRC_CUR_STAT_FADING c 1 (setChan c { chanOf c s with fade := some f } s))

/-- One update of a running fade, and its end (R422). -/
def fadeStep (c : Nat) (s : State) : State :=
  match (chanOf c s).fade with
  | none => s
  | some f =>
    let s := wr SRC_CUR_STAT_PRESENT c (fadeValue f f.step) (advanceTo (f.at_ + f.step * ccUs) s)
    if f.step < f.tf then setChan c { chanOf c s with fade := some { f with step := f.step + 1 } } s
    else raise 212 (wr SRC_CUR_STAT_FADING c 0 (setChan c { chanOf c s with fade := none } s))

/-- A channel drops to 0 mA at once, which ends any fade, an on-span, and what was still to be measured or driven (R421, R435 to
R437). -/
def chanZero (c : Nat) (s : State) : State :=
  wr SRC_CUR_STAT_FADING c 0 (wr SRC_CUR_STAT_PRESENT c 0
    (setChan c { chanOf c s with fade := none, onEnd := none, proofAt := none, on := none } s))

/-- The write of SRC_CUR (R423): at once when not WEAVING, staged otherwise. A channel that is faulted or forced off only takes the
setpoint. -/
def srcCurWrite (c : Nat) (v : Qword) (s : State) : State :=
  let w := weaving s
  let s := stageReg SRC_CUR c v s
  if w then s else if rd SRC_CUR_STAT_STATE c s = 2 ∨ rd SRC_CUR_STAT_STATE c s = 3 then s else startFade c s

/-- A channel faults (R436). -/
def chanFaultNow (c : Nat) (short : Bool) (vcomp : Nat) (s : State) : State :=
  let present := rd SRC_CUR_STAT_PRESENT c s
  let s := setChan c { chanOf c s with cleared := false } (chanZero c s)
  let s := raise 211 (wr SRC_CUR_STAT_STATE c 2 s)
  eventRecord 0x22 211 (place (b2n short) 3 1 + place c 0 3) (rd SYS_PICK_NUM_NUM 0 s) vcomp present s

/-- One finding of a measurement: 1 open, 2 short, 0 neither (R434). -/
def chanFinding (vcomp current driven : Nat) : Nat :=
  if vcomp < 300 then 2 else if 4500 ≤ vcomp ∧ 10 * current < 9 * driven then 1 else 0

/-- A measurement is taken: two consecutive findings of one kind fault the channel (R434, R436). -/
def chanMeasure (c vcomp current driven : Nat) (s : State) : State :=
  let k := chanFinding vcomp current driven
  let last := (chanOf c s).lastKind
  let s := wr SRC_CUR_STAT_VCOMP c vcomp s
  let s := setChan c { chanOf c s with lastKind := if k = last then 0 else k } s
  if k ≠ 0 ∧ k = last then
    chanFaultNow c (decide (k = 2)) vcomp (if k = 2 then wr SRC_CUR_STAT_SHORT c 1 s else wr SRC_CUR_STAT_OPEN c 1 s)
  else s

/-! ### Permission (R437, R438) -/

/-- Whether sources are permitted by the three conditions of R437. -/
def permitNow (s : State) : Bool :=
  !s.src.intlkLow && rdB SRC_CTL_PERMIT 0 s && (devState s = stIDLE || devState s = stWEAVING)

/-- Whether sources stand permitted: SRCEN is high exactly then. -/
def permitted (s : State) : Bool := rdB SRC_STAT_SRCEN 0 s

/-- The LAUNCH and CODE outputs are driven low: a gate that is not yet over ends (R9, R419, R437). -/
def gatesLow (s : State) : State :=
  let s := (List.range 16).foldl (fun s p => match s.src.gates.get none p with
    | some g => if 256 * s.now < g.at_ + 512 * g.len then emit (.gateLow p (256 * s.now)) s else s
    | none => s) s
  { s with src := { s.src with gates := [] } }

/-- Permission is lost: LAUNCH, CODE, SRCEN and HBEAT low, every channel in use to 0 mA, every port blanked. -/
def permitLost (s : State) : State :=
  let s := gatesLow (wr SRC_STAT_HBEAT_RUN 0 0 (wr SRC_STAT_SRCEN 0 0 s))
  let s := { s with src := { s.src with
    hbeat := false,
    blanked := (List.range 16).foldl (fun m p => m.put false p true) s.src.blanked } }
  (List.range 8).foldl (fun s c =>
    if chanMode c s = 0 ∨ chanFault c s then s else wr SRC_CUR_STAT_STATE c 3 (chanZero c s)) s

/-- Permission returns: event 210 and its record, each channel in use fades from 0 to its setpoint, every port's blanking starts at
the next tick (R431, R437). -/
def permitBack (s : State) : State :=
  let s := wr SRC_STAT_HBEAT_RUN 0 1 (wr SRC_STAT_SRCEN 0 1 s)
  let s := { s with src := { s.src with
    hbeatAt := s.now,
    blankArm := (List.range 16).foldl (fun m p => m.put false p true) s.src.blankArm,
    blanked := (List.range 16).foldl (fun m p => m.put false p true) s.src.blanked } }
  let s := eventRecord 0x23 210 0 (rd SYS_PICK_NUM_NUM 0 s) 0 0 (raise 210 s)
  (List.range 8).foldl (fun s c =>
    if chanMode c s = 0 ∨ chanFault c s then s
    else startFade c (wr SRC_CUR_STAT_STATE c 1 (wr SRC_CUR_STAT_PRESENT c 0 s))) s

/-- Permission is brought in line with its conditions. -/
def refreshPermit (s : State) : State :=
  if permitted s && !(permitNow s) then permitLost s
  else if !(permitted s) && permitNow s then permitBack s else s

/-- The write of SRC_CTL (R437, R441, R577): PERMIT cannot be set while INTLK_N is low; with PROOF_EN = 0 no proof is needed (R435). -/
def srcCtlWrite (org : Origin) (v : Qword) (s : State) : State :=
  let was := rd SRC_CTL_PERMIT 0 s
  let s' := regWrite SRC_CTL 0 v s
  let s' := if rdB SRC_CTL_PROOF_EN 0 s' then s' else (List.range 8).foldl (fun s c => wr SRC_CUR_STAT_PROOF_OFF c 0 s) s'
  if s.src.intlkLow ∧ was = 0 ∧ rdB SRC_CTL_PERMIT 0 s' then
    writeIgnored org (SRC_CTL.off 0) v (wr SRC_CTL_PERMIT 0 0 s')
  else refreshPermit s'

/-- A channel after its mode was written: off, on, or forced off, which drives 0 mA (R421). -/
def modeState (c : Nat) (s : State) : State :=
  let s := wr SRC_CUR_STAT_PROOF_OFF c 0 (setChan c { chanOf c s with onEnd := none, proofAt := none, on := none } s)
  if chanMode c s = 0 then wr SRC_CUR_STAT_STATE c 0 s
  else if permitted s then wr SRC_CUR_STAT_STATE c 1 s
  else wr SRC_CUR_STAT_STATE c 3 (chanZero c s)

/-- The write of SRC_CUR_MODE: MODE only while PRESENT is 0 (R421, R577); leaving FAULT takes MODE 00 and a further write (R436). -/
def srcCurModeWrite (org : Origin) (c : Nat) (v : Qword) (s : State) : State :=
  let was := rd SRC_CUR_MODE_MODE c s
  let new := SRC_CUR_MODE_MODE.ofQ v
  let s' := regWrite SRC_CUR_MODE c v s
  if new = was then s'
  else if rd SRC_CUR_STAT_PRESENT c s ≠ 0 then
    writeIgnored org (SRC_CUR_MODE.off c) v (wr SRC_CUR_MODE_MODE c was s')
  else if chanFault c s then
    if new = 0 then setChan c { chanOf c s' with cleared := true } s'
    else if (chanOf c s').cleared then modeState c (setChan c { chanOf c s' with cleared := false } s') else s'
  else modeState c s'

/-- The write of SRC_LAUNCH (R420): OFFSET and EXTEND only while the port is STOPPED or GATED. RUN stays 0 while MON_EN is 0 (R432). -/
def srcLaunchWrite (org : Origin) (p : Nat) (v : Qword) (s : State) : State :=
  let t := guardedWrite org SRC_LAUNCH p (if portIdle p s then [] else [SRC_LAUNCH_OFFSET, SRC_LAUNCH_EXTEND]) v s
  if rdB SRC_LAUNCH_MON_EN p t then t else wr SRC_MON_RUN p 0 t

/-! ### The addressed bus (R424 to R429) -/

/-- The bytes a transfer sends: LEN from DATA[47:40] downward; 7 acts as 6 (R178). -/
def xferBytes (x : Xfer) : List Byte :=
  (List.range (minN x.len 6)).map (fun i => BitVec.ofNat 8 (x.data / 2 ^ (40 - 8 * i)))

/-- ACK of a chip select as acted on (R425). -/
def ackOf (cs : Nat) (s : State) : Nat := if rd SRC_CS_ACK cs s = 3 then 0 else rd SRC_CS_ACK cs s

/-- BUS_DIV as acted on (R445). -/
def busDiv (s : State) : Nat := clampN 5 40 (rd SRC_CTL_BUS_DIV 0 s)

/-- The core cycles of a frame of `b` bytes: 8 × b + 4 SCK periods of 2 × BUS_DIV sc (R424). -/
def frameCc (b : Nat) (s : State) : Nat := (8 * b + 4) * (4 * busDiv s)

/-- The frame of a transfer's present attempt goes out under the settings its chip select has at its beginning (R448): the status frame
sends ACK_CMD, an echo frame one extra byte. -/
def sendFrame (x : Xfer) (s : State) : State :=
  let bytes := if x.status then [BitVec.ofNat 8 (rd SRC_CS_ACK_CMD x.cs s), 0#8]
    else if ackOf x.cs s = 1 then xferBytes x ++ [0#8] else xferBytes x
  let x := { x with
    due := s.now + frameCc bytes.length s, ack := ackOf x.cs s, mask := rd SRC_CS_ACK_MASK x.cs s,
    val := rd SRC_CS_ACK_VAL x.cs s, retries := rd SRC_CS_RETRIES x.cs s }
  emit (.busFrame x.cs (rd SRC_CS_SPI_MODE x.cs s) bytes) { s with src := { s.src with bus := some x } }

/-- What an acknowledged transfer leaves behind. -/
def xferDone (x : Xfer) (s : State) : State :=
  match x.kind with
  | .lo e => { s with src := { s.src with loDone := some e } }
  | .preset _ => s
  | .restore p => { s with src := { s.src with swLast := s.src.swLast.put 0 p 0, swFailed := s.src.swFailed.filter (· ≠ p) } }

/-- What a transfer that has begun means for its port's switch. -/
def xferBegun (x : Xfer) (s : State) : State :=
  match x.kind with
  | .lo _ => s
  | .preset p => { s with src := { s.src with swLast := s.src.swLast.put 0 p (1 + x.line % 8) } }
  | .restore _ => s

/-- What a failed transfer leaves behind (R425, R427, R429). -/
def xferFailed (x : Xfer) (s : State) : State :=
  let isLo := match x.kind with
    | .lo _ => true
    | .preset _ => false
    | .restore _ => false
  let isRestore := match x.kind with
    | .lo _ => false
    | .preset _ => false
    | .restore _ => true
  let s := raise 213 (bump SRC_CNT_NAKS 0 s)
  let s := eventRecord 0x21 213 (place x.cs 20 4 + place (b2n isLo) 19 1 + place (b2n isRestore) 18 1 + place x.line 0 7)
    (rd SYS_PICK_NUM_NUM 0 s) x.data x.attempts s
  match x.kind with
  | .lo e => { s with src := { s.src with loSent := none, loFailed := some e } }
  | .preset p => { s with src := { s.src with presetNak := s.src.presetNak ++ [p] } }
  | .restore p => { s with src := { s.src with swFailed := s.src.swFailed.filter (· ≠ p) ++ [p] } }

/-- Whether the addressed bus may run a frame: ABUS_CS_N is high in every state but IDLE and WEAVING (R551), and from the cause of a fault
on. -/
def busOn (s : State) : Bool := (devState s = stIDLE || devState s = stWEAVING) && rd SYS_FAULT_ACTIVE 0 s = 0

/-- The next waiting transfer starts on an idle bus that may run: LO transfers first. A transfer without bytes is complete at once. -/
def busNext (n : Nat) (s : State) : State :=
  match n with
  | 0 => s
  | n + 1 =>
    if s.src.bus.isSome || !(busOn s) then s
    else match s.src.loWait, s.src.swWait with
      | x :: t, _ =>
        let s := { s with src := { s.src with loWait := t } }
        if x.len = 0 then busNext n (xferDone x s) else sendFrame x s
      | [], x :: t =>
        let s := xferBegun x { s with src := { s.src with swWait := t } }
        if x.len = 0 then busNext n (xferDone x s) else sendFrame x s
      | [], [] => s

/-- The bus is given its next work. -/
def busKick (s : State) : State := busNext (s.src.loWait.length + s.src.swWait.length + 1) s

/-- LBEAT is high for 32 sc (R428). -/
def lbeatLen : Nat := 32

/-- The bus stops (R551): ABUS_CS_N goes high, and the transfer whose frame it cuts waits, ahead of the others of its kind, to be sent again
(DESIGN CHOICE, log entry 110). LBEAT goes low. -/
def busCut (s : State) : State :=
  let s := match s.src.bus with
    | none => s
    | some x =>
      let y := { x with status := false }
      match x.kind with
      | .lo _ => { s with src := { s.src with bus := none, loWait := y :: s.src.loWait } }
      | .preset _ => { s with src := { s.src with bus := none, swWait := y :: s.src.swWait } }
      | .restore _ => { s with src := { s.src with bus := none, swWait := y :: s.src.swWait } }
  let s := match s.src.lbeatAt with
    | none => s
    | some t => if 256 * s.now < t + 512 * lbeatLen then emit (.lbeatLow (256 * s.now)) s else s
  { s with src := { s.src with lbeatAt := none } }

/-- Whether a frame was acknowledged by what MISO carried (R425), under the settings it began with. -/
def frameAcked (x : Xfer) (miso : List Byte) : Bool :=
  if x.status then (miso.getD 1 0#8).toNat.land x.mask = x.val
  else if x.ack = 1 then decide ((miso.drop 1).take (minN x.len 6) = xferBytes x) else true

/-- A frame ends when its SCK periods are over (R424): acknowledged, its status read, repeated, or failed; the next frame starts
(R425). -/
def busFrameDone (miso : List Byte) (s : State) : State :=
  match s.src.bus with
  | none => s
  | some x =>
    let s := advanceTo x.due s
    if !x.status && x.ack = 2 then sendFrame { x with status := true } s
    else if frameAcked x miso then busKick (xferDone x { s with src := { s.src with bus := none } })
    else if x.attempts < x.retries then sendFrame { x with attempts := x.attempts + 1, status := false } s
    else busKick (xferFailed { x with attempts := x.attempts + 1 } { s with src := { s.src with bus := none } })

/-- The transfer of a line's switch entry (R426, R427). -/
def swXfer (k : XferKind) (j : Nat) (s : State) : Xfer :=
  let w := s.src.sw.get 0 (2 * j)
  { kind := k, line := j, cs := slice w 28 4, len := minN (slice w 25 3) 6, data := s.src.sw.get 0 (2 * j + 1) }

/-- A switch transfer waits for the bus. -/
def swQueue (x : Xfer) (s : State) : State := busKick { s with src := { s.src with swWait := s.src.swWait ++ [x] } }

/-- Whether a waiting or running switch transfer is for a port. -/
def xferPort (p : Nat) (x : Xfer) : Bool :=
  match x.kind with
  | .lo _ => false
  | .preset q => q = p
  | .restore q => q = p

/-- The preset of a port's staged line is sent, in place of one that has not begun (R427). -/
def sendPreset (p : Nat) (s : State) : State :=
  let s := { s with src := { s.src with
    swWait := s.src.swWait.filter (fun x => !(xferPort p x)),
    presetNak := s.src.presetNak.filter (· ≠ p) } }
  swQueue (swXfer (.preset p) (lineIdx p (lineStg p s)) s) s

/-- The restore of a port's in-force line is sent. -/
def sendRestore (p : Nat) (s : State) : State :=
  let s := { s with src := { s.src with
    swWait := s.src.swWait.filter (fun x => !(xferPort p x)),
    presetNak := s.src.presetNak.filter (· ≠ p) } }
  swQueue (swXfer (.restore p) (lineIdx p (lineOf p s)) s) s

/-- Whether a port's switch last received a preset, one on the bus included. -/
def gotPreset (p : Nat) (s : State) : Bool := s.src.swLast.get 0 p ≠ 0

/-- When a change set opens: a preset for every port whose staged line differs, in ascending order (R427). -/
def presetsOnOpen (s : State) : State :=
  (List.range 16).foldl (fun s p => if lineStg p s = lineOf p s then s else sendPreset p s) s

/-- When the staged line of a port changes while a set waits (R427). -/
def presetOnChange (p : Nat) (s : State) : State :=
  if lineStg p s ≠ lineOf p s then sendPreset p s
  else if gotPreset p s then sendRestore p s
  else { s with src := { s.src with
    swWait := s.src.swWait.filter (fun x => !(xferPort p x)),
    presetNak := s.src.presetNak.filter (· ≠ p) } }

/-- When a set ends without a commit: a restore for every port whose switch last received a preset (R427). -/
def restoresOnEnd (s : State) : State :=
  (List.range 16).foldl (fun s p =>
    if gotPreset p s then sendRestore p s
    else { s with src := { s.src with
      swWait := s.src.swWait.filter (fun x => !(xferPort p x)),
      presetNak := s.src.presetNak.filter (· ≠ p) } }) s

/-- A preset or failed restore is held: some switch holds an unapplied preset, or a switch transfer waits (R427, R428). -/
def presetHeld (s : State) : Bool :=
  !s.src.swFailed.isEmpty || !s.src.swWait.isEmpty || (List.range 16).any (fun p => gotPreset p s)

/-- The lines unit's readiness (R427): every preset and restore sent is acknowledged. -/
def linesReady (s : State) : Bool :=
  s.src.swWait.isEmpty && s.src.swFailed.isEmpty && s.src.presetNak.isEmpty
    && !(match s.src.bus with
      | some x => (List.range 16).any (fun p => xferPort p x)
      | none => false)

/-- The source unit's readiness (R423): no affected channel is in FAULT. -/
def curAffected (c : Nat) (s : State) : Bool :=
  SRC_CUR.fields.any (fun f => rd f c s ≠ rdI f c s)

/-- Channels a change set affects. -/
def sourceAffected (s : State) : Bool := (List.range 8).any (fun c => curAffected c s)

/-- The source unit is ready when no affected channel is faulted. -/
def sourceReady (s : State) : Bool := (List.range 8).all (fun c => !(curAffected c s && chanFault c s))

/-- At a commit every affected channel takes its staged values and starts its fade; a faulted channel stands (R423, R440). -/
def sourceCommit (s : State) : State :=
  (List.range 8).foldl (fun s c =>
    if curAffected c s then
      let s := SRC_CUR.fields.foldl (fun s f => enforce f c s) s
      if chanFault c s ∨ rd SRC_CUR_STAT_STATE c s = 3 then s else startFade c s
    else s) s

/-- An LO transfer of an entry's two words waits for the bus, ahead of switch transfers (R429). -/
def loTransfer (e w0 w1 : Nat) (s : State) : State :=
  let x : Xfer := { kind := .lo e, line := 0, cs := slice w0 28 4, len := minN (slice w0 25 3) 6, data := w1 }
  busKick { s with src := { s.src with loSent := some e, loFailed := none, loWait := s.src.loWait ++ [x] } }

/-- Whether a transfer of an LO entry waits or runs. -/
def loOnBus (e : Nat) (s : State) : Bool :=
  s.src.loWait.any (fun x => decide (x.kind = .lo e))
    || (match s.src.bus with
      | some x => decide (x.kind = .lo e)
      | none => false)

/-- The LBEAT of a tick, high for 32 sc (R428): it applies what has completed and strobes the LO entry whose transfer completed last. -/
def lbeat (linesCommit : Bool) (s : State) : State :=
  if linesCommit || (s.src.loDone.isSome && !(presetHeld s)) then
    let s := emit (.lbeat (256 * s.now) lbeatLen) { s with src := { s.src with lbeatAt := some (256 * s.now) } }
    let s := match s.src.loDone with
      | some e => { wr SPC_LO_STAT_ENTRY 0 e s with
          spc := { s.spc with strobeAt := some s.now, strobed := some e } }
      | none => s
    { s with src := { s.src with loDone := none, swLast := if linesCommit then [] else s.src.swLast } }
  else s

/-- A failed restore is repeated at each later tick (R427). -/
def retryRestores (s : State) : State :=
  s.src.swFailed.foldl (fun s p =>
    if s.src.swWait.any (xferPort p) || (match s.src.bus with
      | some x => xferPort p x
      | none => false) then s
    else swQueue (swXfer (.restore p) (lineIdx p (lineOf p s)) s) s) s

/-! ### Blanking (R431) -/

/-- The blanking time of a port in cc. -/
def blankCc (p : Nat) (s : State) : Nat := clampN 1 1000 (rd SRC_LAUNCH_BLANK p s) * 100000

/-- A port's blanking starts now, or starts again. -/
def blankStart (p : Nat) (s : State) : State :=
  { s with src := { s.src with
    blankUntil := s.src.blankUntil.put 0 p (s.now + blankCc p s),
    blanked := s.src.blanked.put false p true } }

/-- At a tick, blanking that waits for the first tick after permission returned starts. -/
def blankTick (s : State) : State :=
  if permitted s then
    (List.range 16).foldl (fun s p =>
      if s.src.blankArm.get false p then
        blankStart p { s with src := { s.src with blankArm := s.src.blankArm.put false p false } } else s) s
  else s

/-- Whether a port is blanked at the present instant. -/
def isBlanked (p : Nat) (s : State) : Bool :=
  !(permitted s) || s.src.blankArm.get false p || decide (s.now < s.src.blankUntil.get 0 p)

/-! ### Channels in launched picks (R421, R434, R435) -/

/-- The on-span of a gated channel around a launch, in 1/256 ns (R421). -/
def onSpanOf (c launchRaw nCode : Nat) (s : State) : Int × Int :=
  ((launchRaw : Int) - 512 * (rd SRC_CUR_MODE_PRE c s : Int),
    (launchRaw : Int) + 512 * ((nCode + rd SRC_CUR_MODE_POST c s : Nat) : Int))

/-- What a launched pick of a gating port does to the channels it gates: the commanded launch in 1/256 ns, the tick in cc, the code and the
shed in samples. A channel in FAULT drives nothing (R436). -/
def chanPick (p launchRaw tick nCode shed : Nat) (s : State) : State :=
  (List.range 8).foldl (fun s c =>
    if chanMode c s = 2 ∧ rd SRC_CUR_MODE_GATE_PORT c s = p ∧ !(chanFault c s) then
      let onSc := rd SRC_CUR_MODE_PRE c s + nCode + rd SRC_CUR_MODE_POST c s
      let span := onSpanOf c launchRaw nCode s
      let s := emit (.onSpan c (rd SRC_CUR_STAT_PRESENT c s) span.1 span.2) s
      let x := { chanOf c s with on := some span }
      let k := x.launches + 1
      if 2500 ≤ onSc then
        setChan c { x with launches := k, onEnd := some ((launchRaw + 255) / 256 + 2 * (nCode + rd SRC_CUR_MODE_POST c s)) }
          (wr SRC_CUR_STAT_PROOF_OFF c 0 s)
      else if rdB SRC_CTL_PROOF_EN 0 s then
        if 3000 ≤ selvOf s then
          setChan c { x with
            launches := k,
            proofAt := if k % 2 ^ rd SRC_CUR_MODE_PROOF_EVERY c s = 0 then some (tick + 2 * (shed + 250)) else x.proofAt }
            (wr SRC_CUR_STAT_PROOF_OFF c 0 s)
        else setChan c { x with launches := k } (wr SRC_CUR_STAT_PROOF_OFF c 1 s)
      else setChan c { x with launches := k } s
    else s) s

/-! ### What the outputs carry at an instant, given in 1/256 ns (R417 to R421) -/

/-- LAUNCH of a port. -/
def launchLevel (p raw : Nat) (s : State) : Bool :=
  match s.src.gates.get none p with
  | some g => decide (g.at_ ≤ raw ∧ raw < g.at_ + 512 * g.len)
  | none => false

/-- LBEAT (R428). -/
def lbeatLevel (raw : Nat) (s : State) : Bool :=
  match s.src.lbeatAt with
  | some t => decide (t ≤ raw ∧ raw < t + 512 * lbeatLen)
  | none => false

/-- CODE_B and CODE_A of a port as one number: the code of the chip that is driven, 00 outside the code (R87, R418). -/
def codeLevel (p raw : Nat) (s : State) : Nat :=
  match s.src.gates.get none p with
  | some g =>
    let i := (raw - g.at_) / (512 * g.chipLen)
    if g.at_ ≤ raw ∧ i < g.chips then slice (g.code.getD (i / 24) 0) (2 * (i % 24)) 2 else 0
  | none => 0

/-- The current a channel drives apart from a proof pulse, LSB 2.5 µA (R421). -/
def chanDrive (c raw : Nat) (s : State) : Nat :=
  if !(permitted s) || chanFault c s then 0
  else if chanMode c s = 1 then rd SRC_CUR_STAT_PRESENT c s
  else if chanMode c s = 2 then
    match (chanOf c s).on with
    | some (a, b) => if a ≤ (raw : Int) ∧ (raw : Int) < b then rd SRC_CUR_STAT_PRESENT c s else 0
    | none => 0
  else 0

/-! ### The commands of this chapter -/

/-- SRC_CUR_WRITE. -/
def execSrcCurWrite (c : Fin 8) (v : Qword) (s : State) : Res :=
  if s.sys.inReset then .next s else
  .next (srcCurWrite c v s)

/-- SRC_CUR_MODE_WRITE. -/
def execSrcCurModeWrite (c : Fin 8) (v : Qword) (s : State) : Res :=
  if s.sys.inReset then .next s else
  .next (srcCurModeWrite .pcie c v s)

/-- FADE_STEP. -/
def execFadeStep (c : Fin 8) (s : State) : Res := .next (fadeStep c s)

/-- BUS_FRAME_DONE: a frame ends with what MISO carried. -/
def execBusFrameDone (miso : List Byte) (s : State) : Res := .next (busFrameDone miso s)

/-- BLANK_END: time reaches the end of a port's blanking span. -/
def execBlankEnd (p : Fin 16) (s : State) : Res :=
  let u := s.src.blankUntil.get 0 p
  if u = 0 then .next s
  else .next { advanceTo u s with src := { s.src with blankUntil := s.src.blankUntil.put 0 p 0 } }

/-- The cycle of a channel's next measurement in mode 01: the first multiple of 100 µs of raw time from now on that lies after its last one
(R434; which multiples they are: DESIGN CHOICE, log entry 91). -/
def measureAt (c : Nat) (s : State) : Nat :=
  (maxN (s.now + 99999) ((chanOf c s).measured + 100000)) / 100000 * 100000

/-- CURRENT_MEASURE: a measured channel in mode 01, every 100 µs, or one in mode 10 at the end of a long on-time (R434). -/
def execCurrentMeasure (c : Fin 8) (vcomp current : Fin 65536) (s : State) : Res :=
  let present := rd SRC_CUR_STAT_PRESENT c s
  if chanMode c s = 1 ∧ 400 ≤ present then
    let t := measureAt c s
    .next (chanMeasure c vcomp current present (setChan c { chanOf c s with measured := t } (advanceTo t s)))
  else match (chanOf c s).onEnd with
    | some t =>
      if chanMode c s = 2 then
        .next (chanMeasure c vcomp current present (setChan c { chanOf c s with onEnd := none } (advanceTo t s)))
      else .next s
    | none => .next s

/-- PROOF_PULSE: a due proof pulse is driven, counted and checked (R435), unless the channel has left mode 10 since. The check is that of
R434, against PRESENT. -/
def execProofPulse (c : Fin 8) (vcomp current : Fin 65536) (s : State) : Res :=
  match (chanOf c s).proofAt with
  | some t =>
    if chanMode c s ≠ 2 then .next (setChan c { chanOf c s with proofAt := none } s) else
    let i := rd SRC_CUR_MODE_PROOF_I c s
    let s := bump SRC_CNT_PROOFS 0 (emit (.pulse c i) (setChan c { chanOf c s with proofAt := none } (advanceTo (t + 5000) s)))
    .next (chanMeasure c vcomp current (rd SRC_CUR_STAT_PRESENT c s) s)
  | none => .next s

/-- Every channel drops to 0 mA, whatever its mode: the path without firmware of R437. -/
def chansZero (s : State) : State := (List.range 8).foldl (fun s c => chanZero c s) s

/-- INTLK_N_LOW (R437). -/
def execIntlkNLow (s : State) : Res :=
  let was := rdB SRC_CTL_PERMIT 0 s
  let s := tapPins (chansZero { s with src := { s.src with intlkLow := true } })
  if was then
    let s := refreshPermit (wr SRC_CTL_PERMIT 0 0 s)
    .next (eventRecord 0x23 209 1 (rd SYS_PICK_NUM_NUM 0 s) 0 0 (raise 209 (wr SRC_STAT_INTLK_SEEN 0 1 s)))
  else .next s

/-- INTLK_N_HIGH (R437). -/
def execIntlkNHigh (s : State) : Res := .next (tapPins { s with src := { s.src with intlkLow := false } })

/-- PERMIT_WRITE: a write of SRC_CTL with PERMIT = 1. -/
def execPermitWrite (v : Qword) (s : State) : Res :=
  if s.sys.inReset then .next s else
  .next (srcCtlWrite .pcie (v ||| 1#64) s)

/-- HBEAT_TOGGLE (R438). -/
def execHbeatToggle (s : State) : Res :=
  if permitted s then
    let s := advanceTo (s.src.hbeatAt + 500000) s
    .next { s with src := { s.src with hbeat := !s.src.hbeat, hbeatAt := s.src.hbeatAt + 500000 } }
  else .next s

/-- A switch entry may be written while WEAVING only when its line is neither in force nor staged (R426). -/
def swWritable (j : Nat) (s : State) : Bool :=
  !(weaving s) || (lineOf (j / 8) s ≠ j % 8 && lineStg (j / 8) s ≠ j % 8)

/-- What SRC_LINE_DATA shows of a stored word. -/
def swShow (k : Nat) (s : State) : Nat := s.src.sw.get 0 k

/-- An access to SRC_LINE_DATA advances the address (R446, R578). -/
def srcLineAdvance (s : State) : State :=
  let k := 2 * rd SRC_LINE_ADDR_LINE 0 s + rd SRC_LINE_ADDR_WORD 0 s + 1
  wr SRC_LINE_ADDR_LINE 0 (k / 2) (wr SRC_LINE_ADDR_WORD 0 (k % 2) s)

/-- An access to SRC_LINE_DATA (R426, R446): a read returns the word, a write stores it, each advances the address. -/
def srcLineData (org : Origin) (w : Option Qword) (s : State) : State :=
  let j := rd SRC_LINE_ADDR_LINE 0 s
  let b := rd SRC_LINE_ADDR_WORD 0 s
  srcLineAdvance <| match w with
    | none => s
    | some v =>
      if swWritable j s then
        let word := if b = 0 then slice v.toNat 25 7 * 2 ^ 25 else v.toNat % 2 ^ 48
        { s with src := { s.src with sw := s.src.sw.put 0 (2 * j + b) word } }
      else writeIgnored org (SRC_LINE_DATA.off 0) v s

/-- SRC_LINE_DATA_ACCESS: a read shows the word on the bus. -/
def execSrcLineDataAccess (w : Option Qword) (s : State) : Res :=
  if s.sys.inReset then .next (resetAccess 8 w.isNone s) else
  let shown := swShow (2 * rd SRC_LINE_ADDR_LINE 0 s + rd SRC_LINE_ADDR_WORD 0 s) s
  match w with
  | none => .next (emit (.readData (BitVec.ofNat 64 shown)) (srcLineData .pcie none s))
  | some v => .next (srcLineData .pcie (some v) s)

end Sys2Proof.Machine
end

