-- ==== Sys2Proof/Machine/Ports.lean ====
section
/-!
DEFINITION. Ports and converters (chapter 02): port states and their starts and stops, converter failures and swaps, the
gain-zone tables and the times at which corrections take effect.
-/

set_option autoImplicit false

namespace Sys2Proof.Machine

/-! ### Sheds in progress (R12) -/

/-- The end of a port's shed that is in progress at a cycle: strictly after its tick and strictly before its end. -/
def shedEndAt (p t : Nat) (s : State) : Option Nat :=
  (s.trd.picks.filterMap (fun n =>
    if n.ports.any (fun x => x.port = p && decide (n.tick < t ∧ t < n.tick + 2 * x.shed)) then
      (n.ports.find? (fun x => x.port = p)).map (fun x => n.tick + 2 * x.shed)
    else none)).head?

/-- The first sample-clock edge at or after a cycle at which no shed of the port is in progress. -/
def quietEdge (p t : Nat) (s : State) : Nat :=
  let e := t + t % 2
  match shedEndAt p e s with
  | some u => u
  | none => e

/-- Whether a port has a launched pick whose work is not complete (R67). -/
def portOwes (p : Nat) (s : State) : Bool :=
  s.trd.picks.any (fun n => n.complete.isNone && n.ports.any (fun x => x.port = p))

/-! ### Converters (R46, R47, R60) -/

/-- The codes of CNV_STAT.STATE (R60). -/
def cGATED : Nat := 0
def cSERVING : Nat := 1
def cCALIBRATING : Nat := 2
def cREADY : Nat := 3
def cSHADOW : Nat := 4
def cFAILED : Nat := 5

/-- The field of PRT_MAP of an input. -/
def mapFld (i : Nat) : Fld :=
  if i = 0 then PRT_MAP_CONV_XI else if i = 1 then PRT_MAP_CONV_XQ else if i = 2 then PRT_MAP_CONV_YI else PRT_MAP_CONV_YQ

/-- The converter serving input `i` of port `p`. -/
def convOf (p i : Nat) (s : State) : Nat := rd (mapFld i) p s

/-- The state of a converter. -/
def cnvSt (j : Nat) (s : State) : Nat := rd CNV_STAT_STATE j s

/-- The global slot a converter is mapped to, where it is. -/
def slotOfConv (j : Nat) (s : State) : Option Nat :=
  (List.range 64).find? (fun k => convOf (k / 4) (k % 4) s = j)

/-- The swap of a group. -/
def swapOf (g : Nat) (s : State) : Option ConvSwap := s.ports.swaps.get none g

/-- A group's swap is set or cleared. -/
def setSwap (g : Nat) (x : Option ConvSwap) (s : State) : State :=
  { s with ports := { s.ports with swaps := s.ports.swaps.put none g x } }

/-- Whether a converter serving the port is FAILED, so that CONV_FAULT persists (R67). -/
def convCause (p : Nat) (s : State) : Bool := (List.range 4).any (fun i => cnvSt (convOf p i s) s = cFAILED)

/-! ### Port states (R66 to R70) -/

/-- A port enters FAULTED: event 32 + 2p (R70). -/
def portFault (p : Nat) (s : State) : State := raise (32 + 2 * p) (wr PRT_STAT_STATE p pFAULTED s)

/-- A port enters RUNNING: its flags clear except for a persisting cause, which faults it at once (R67); the launch monitor's run and
the gauge's and Heddle's histories start afresh (R126, R155, R432). -/
def portRun (p : Nat) (s : State) : State :=
  let s := wr SRC_MON_RUN p 0 (wr PRT_STAT_STAMP_FAULT p 0 (wrB PRT_STAT_CONV_FAULT p (convCause p s) s))
  let s := noteGot 0x10 p (gaugeRun p (wr PRT_STAT_START_PENDING p 0 (wr PRT_STAT_STATE p pRUNNING s)))
  let h := s.heddle.ports.get {} p
  let s :=
    { s with ports := { s.ports with firstPhase := s.ports.firstPhase.put false p true },
             heddle := { s.heddle with ports := s.heddle.ports.put {} p { h with epoch := h.epoch + 1, drops := 0 } } }
  if convCause p s then portFault p s else s

/-- The accounting of a partial stripe discarded (R185, R195). -/
def stripeLost (p : Nat) (s : State) : State := raise 253 (bump SPC_CNT_LOST p s)

/-- A line's spectral state is replaced. -/
def setSpcLine (j : Nat) (x : SpcLine) (s : State) : State :=
  { s with spc := { s.spc with lines := s.spc.lines.put {} j x } }

/-- A port's staging area. -/
def areaOf (p : Nat) (s : State) : SpcArea := s.spc.areas.get {} p

/-- A port's staging area is replaced. -/
def setArea (p : Nat) (x : SpcArea) (s : State) : State :=
  { s with spc := { s.spc with areas := s.spc.areas.put {} p x } }

/-- An accumulating stripe of a port is discarded: the line keeps its cursor with a count of 0 (R185). -/
def discardPartial (p : Nat) (s : State) : State :=
  let a := areaOf p s
  if a.state = 1 then
    let s := match a.key with
      | some k => setSpcLine k.line { spcLine k.line s with curCount := 0 } s
      | none => s
    stripeLost p (setArea p {} s)
  else s

/-- A closing port's work is done: STOPPED, which discards a partial stripe, or, when a start is pending, RUNNING instead (R67, R68,
R195). -/
def portClosed (p : Nat) (s : State) : State :=
  if rdB PRT_STAT_START_PENDING p s then portRun p (noteGot 0x11 p s)
  else noteGot 0x11 p (discardPartial p (wr PRT_STAT_STATE p pSTOPPED s))

/-- A stop: CLOSING, and STOPPED at once when not WEAVING (R67). -/
def portClose (p : Nat) (s : State) : State :=
  let s := if portSt p s = pFAULTED then
      wr SRC_MON_RUN p 0 (wr PRT_STAT_STAMP_FAULT p 0 (wrB PRT_STAT_CONV_FAULT p (convCause p s) s)) else s
  let s := wr PRT_CTL_RUN p 0 (wr PRT_STAT_STATE p pCLOSING s)
  if weaving s then s else portClosed p s

/-- The sum of CELLS over the ports that take part, and one more (R150). -/
def heddleLoad (extra : Option Nat) (s : State) : Nat :=
  sumN ((List.range 16).map (fun p => if portActive p s || extra = some p then rd GAU_SPAN_CELLS p s else 0))

/-- Whether a prepared change set holds a staged PERIOD with which the Heddle would not be ready once port `p` takes part (R150, R221). -/
def startUnready (p : Nat) (s : State) : Bool :=
  match s.trd.set with
  | some c => c.prepared && bitOf c.affected 3 && decide (16 * periodActs (rd SYS_PICK_PERIOD_PERIOD 0 s) < heddleLoad (some p) s)
  | none => false

/-- The outcome of a request to start a unit. -/
inductive StartOutcome where
  | accepted
  | refused (blk reason : Nat)
  | ignored
deriving DecidableEq, Repr

/-- A RUN = 1 write without its logging (R67 to R69, R127, R150, R221). -/
def portStart (p : Nat) (s : State) : State × StartOutcome :=
  if portSt p s = pGATED then (s, .ignored)
  else if portSt p s = pSTOPPED then
    if geomErr p s ≠ 0 then (wr GAU_STAT_GEOM_ERR p (geomErr p s) s, .refused blkGAU (geomErr p s))
    else if 16 * periodOf s < heddleLoad (some p) s ∨ startUnready p s = true then (wr HDL_STAT_START_REFUSED 0 1 s, .refused blkHDL 0)
    else (portRun p (wr PRT_CTL_RUN p 1 (wr GAU_STAT_GEOM_ERR p 0 s)), .accepted)
  else if portSt p s = pCLOSING then (wr PRT_CTL_RUN p 1 (wr PRT_STAT_START_PENDING p 1 s), .accepted)
  else (s, .accepted)

/-- A RUN = 0 write (R67, R68). -/
def portStop (p : Nat) (s : State) : State :=
  if portSt p s = pRUNNING ∨ portSt p s = pFAULTED then portClose p s
  else if portSt p s = pCLOSING ∧ rdB PRT_STAT_START_PENDING p s then
    raise (32 + 2 * p) (noteCancel 0x10 p (wr PRT_CTL_RUN p 0 (wr PRT_STAT_START_PENDING p 0 s)))
  else wr PRT_CTL_RUN p 0 s

/-- A start that is refused or ignored is logged with the value written (R69, R127, R150). -/
def startLog (org : Origin) (p : Nat) (v : Qword) (r : State × StartOutcome) : State :=
  match r.2 with
  | .accepted => r.1
  | .refused blk d => violate blk 0x02 org d (PRT_CTL.off p) (v.toNat % 2 ^ 48) r.1
  | .ignored => writeIgnored org (PRT_CTL.off p) v r.1

/-- Whether the Frugal profile is selected. -/
def frugal (s : State) : Bool := rd SYS_PROFILE_PROFILE 0 s = 3

/-- The spare that a port's swap displaced and that is being calibrated becomes GATED with the port (R62, R530). -/
def gateSpare (p : Nat) (s : State) : State :=
  let j := rd CNV_GRP_STAT_SPARE (p / 4) s
  if j ≠ 0xFF ∧ s.ports.displaced.get 0 j = p + 1 ∧ cnvSt j s = cCALIBRATING then
    calPairAbort 0 j (calDrop 0 j (wr CNV_STAT_STATE j cGATED s))
  else s

/-- Such a spare is calibrated again when its port leaves GATED, and its record is applied (R62, R530). -/
def ungateSpare (p : Nat) (s : State) : State :=
  let j := rd CNV_GRP_STAT_SPARE (p / 4) s
  if j ≠ 0xFF ∧ s.ports.displaced.get 0 j = p + 1 ∧ cnvSt j s = cGATED then calEnqueue 0 j (calApply 0 j (wr CNV_STAT_STATE j cCALIBRATING s))
  else s

/-- A serving converter becomes GATED: its queue entry is removed, and a pair in progress ends (R69, R520, R530). -/
def convGate (j : Nat) (s : State) : State :=
  calPairAbort 0 j (calDrop 0 j (wr CNV_STAT_SLOT j 0xFF (wr CNV_STAT_STATE j cGATED s)))

/-- A port and its converters are brought in line with the profile and the port's membership (R69); the queue drops
gated converters, and ungated ones get their records applied (R530). -/
def gatePort (p : Nat) (s : State) : State :=
  let gate := frugal s && !(rdB PRT_CTL_FRUGAL_MEMBER p s)
  if gate ∧ portSt p s = pSTOPPED then
    let s := wr PRT_STAT_STATE p pGATED s
    let s := { s with ports := { s.ports with lastGain := s.ports.lastGain.put 0 p 0 } }
    (List.range 4).foldl (fun s i => if cnvSt (convOf p i s) s = cSERVING
      then convGate (convOf p i s) s else s)
      (gateSpare p s)
  else if !gate ∧ portSt p s = pGATED then
    let s := wr PRT_STAT_STATE p pSTOPPED s
    (List.range 4).foldl (fun s i => if cnvSt (convOf p i s) s = cGATED
      then calTake 0 (convOf p i s) (wr CNV_STAT_SLOT (convOf p i s) (4 * p + i) (wr CNV_STAT_STATE (convOf p i s) cSERVING s)) else s)
      (ungateSpare p s)
  else s

/-- The members of the Frugal profile. -/
def frugalMembers (s : State) : Nat := sumN ((List.range 16).map (fun p => rd PRT_CTL_FRUGAL_MEMBER p s))

/-- The write of PRT_CTL (R67 to R69, R71, R577). -/
def prtCtlWrite (org : Origin) (p : Nat) (v : Qword) (s : State) : State :=
  let m := PRT_CTL_FRUGAL_MEMBER.ofQ v
  let was := rd PRT_CTL_FRUGAL_MEMBER p s
  let run := bitOf v.toNat 0
  let s := if m = was then s
    else if portIdle p s ∧ (m = 0 ∨ frugalMembers s < 4) then
      gatePort p (wr PRT_CTL_FRUGAL_MEMBER p m s)
    else writeIgnored org (PRT_CTL.off p) v s
  if run then startLog org p v (portStart p s)
  else portStop p s

/-! ### Converter failures and swaps (R61 to R65) -/

/-- The samples of a shed in progress carry SAT from the failure of a serving converter onward (R65). -/
def markBad (p i : Nat) (s : State) : State :=
  mapParts (fun tick x => if x.port = p then
      let n := (s.now - tick + 1) / 2
      if i < 2 then { x with badX := some (x.badX.elim n (minN n)) } else { x with badY := some (x.badY.elim n (minN n)) }
    else x) s

/-- A failed converter's slot waits for the device's own swap, when AUTO_SPARE is 1 in its group and the group has a spare (R65). -/
def swapAwait (k : Nat) (s : State) : State :=
  if rdB CNV_GRP_CTL_AUTO_SPARE (k / 16) s && decide (rd CNV_GRP_STAT_SPARE (k / 16) s ≠ 0xFF) then
    { s with ports := { s.ports with swapWait := s.ports.swapWait.filter (fun x => decide (x ≠ k)) ++ [k] } }
  else s

/-- A slot no longer waits for a swap. -/
def swapUnwait (k : Nat) (s : State) : State :=
  { s with ports := { s.ports with swapWait := s.ports.swapWait.filter (fun x => decide (x ≠ k)) } }

/-- A serving converter fails (R64, R65): its port shows CONV_FAULT, and a RUNNING port enters FAULTED. -/
def convFail (j : Nat) (stuck : Bool) (s : State) : State :=
  let s := wr CNV_STAT_SLOT j 0xFF (wr CNV_STAT_STATE j cFAILED s)
  let s := if stuck then wr CNV_STAT_STUCK j 1 s else wr CNV_STAT_CAL_FAIL j 1 s
  match slotOfConv j s with
  | none => s
  | some k =>
    let p := k / 4
    let s := swapAwait k (raise (33 + 2 * p) (wr PRT_STAT_CONV_FAULT p 1 (markBad p (k % 4) s)))
    if portSt p s = pRUNNING then portFault p s else s

/-- The refusal reason of a swap request, 0 when it is accepted (R61). -/
def swapReason (g k : Nat) (s : State) : Nat :=
  let sp := rd CNV_GRP_STAT_SPARE g s
  if sp = 0xFF ∨ cnvSt sp s ≠ cREADY then 1
  else if (swapOf g s).isSome then 2
  else if portSt (4 * g + k / 4) s = pGATED then 3 else 0

/-- A swap request (R61): the state and the reason of a refusal, 0 for none. -/
def convSwapRequest (g k : Nat) (byCmd : Bool) (s : State) : State × Nat :=
  let r := swapReason g k s
  if r ≠ 0 then
    (raise (33 + 2 * (4 * g + k / 4)) (wr CNV_GRP_STAT_REASON g r (wr CNV_GRP_STAT_REFUSED g 1 s)), r)
  else
    let sp := rd CNV_GRP_STAT_SPARE g s
    let s := wr CNV_GRP_STAT_BUSY g 1 (wr CNV_STAT_STATE sp cSHADOW s)
    (setSwap g (some { slot := k, spare := sp, at_ := s.now, byCmd := byCmd }) s, 0)

/-- The write of CNV_GRP_CTL (R61, R83). -/
def cnvGrpCtlWrite (org : Origin) (g : Nat) (v : Qword) (s : State) : State :=
  let s := regWrite CNV_GRP_CTL g v s
  if bitOf v.toNat 7 then
    let (s', r) := convSwapRequest g (CNV_GRP_CTL_SLOT.ofQ v) false s
    if r = 0 then s' else requestRefused org (CNV_GRP_CTL.off g) r v s'
  else s

/-- The correction fields of a port that come into force as written. -/
def portCorrFlds : List Fld := PRT_IQ_X.fields ++ PRT_IQ_Y.fields

/-- A converter's written corrections come into force (R54). -/
def convEnforce (j : Nat) (s : State) : State := corrFlds.foldl (fun s f => enforce f j s) s

/-- A port's written skew trim comes into force: a value outside ±819 acts as the nearer limit (R76). -/
def skewEnforce (f : Fld) (p : Nat) (s : State) : State := wrI f p (ux 16 (clampZ (-819) 819 (rdZ f p s))) s

/-- Every correction of a port and of the converters serving it comes into force (R54). -/
def portCorrEnforce (p : Nat) (s : State) : State :=
  (List.range 4).foldl (fun s i => convEnforce (convOf p i s) s)
    (PRT_SKEW.fields.foldl (fun s f => skewEnforce f p s) (portCorrFlds.foldl (fun s f => enforce f p s) s))

/-- The switch of a swap (R61 to R63): at the first shed-free edge at or after 5,000 sc from the request. On a port that has meanwhile become
GATED both converters are powered down, and the displaced one is calibrated when the port leaves GATED (R62, R69). -/
def swapSwitch (g : Nat) (s : State) : State :=
  match swapOf g s with
  | none => s
  | some x =>
    let p := 4 * g + x.slot / 4
    let i := x.slot % 4
    let s := advanceTo (quietEdge p (maxN s.now (x.at_ + 10000)) s) s
    let old := convOf p i s
    let gated := decide (portSt p s = pGATED)
    let s := swapUnwait (4 * p + i) (setSwap g none (wr CNV_GRP_STAT_BUSY g 0 (wr (mapFld i) p x.spare s)))
    let s := convEnforce x.spare (wr CNV_STAT_SLOT x.spare (if gated then 0xFF else 4 * p + i)
      (wr CNV_STAT_STATE x.spare (if gated then cGATED else cSERVING) s))
    let s := if cnvSt old s = cFAILED then wr CNV_GRP_STAT_SPARE g 0xFF s
      else if gated then wr CNV_GRP_STAT_SPARE g old s
      else calEnqueue 0 old (wr CNV_GRP_STAT_SPARE g old (wr CNV_STAT_SLOT old 0xFF (wr CNV_STAT_STATE old cCALIBRATING s)))
    let s := { s with ports := { s.ports with displaced := s.ports.displaced.put 0 old (p + 1) } }
    let s := bump CNV_GRP_STAT_SWAPS g (wr CNV_GRP_STAT_DONE g 1 (wr CNV_GRP_STAT_LAST_SLOT g x.slot s))
    let s := raise (33 + 2 * p) s
    if x.byCmd then finishCmd 0x1B g 0 0 x.spare s else s

/-- The group slot whose failed converter the device swaps next: the first of those that wait that failed (R65 gives no order among them:
DESIGN CHOICE, log entry 94). -/
def failedSlot (g : Nat) (s : State) : Option Nat :=
  (s.ports.swapWait.find? (fun k => decide (k / 16 = g ∧ cnvSt (convOf (k / 4) (k % 4) s) s = cFAILED))).map (· % 16)

/-! ### Gain zones (R55 to R59, R77) -/

/-- The key of a gain-zone word. -/
def gzKey (p t e : Nat) : Nat := 64 * p + 16 * t + e

/-- The enabled positions of a table, in entry order. -/
def gzPositions (m : Smap Nat) (p t : Nat) : List Nat :=
  (List.range 8).filterMap (fun i =>
    let w := m.get 0 (gzKey p t (i + 1))
    if bitOf w 23 then some (w % 2 ^ 23) else none)

/-- Consecutive positions ascend by 16 or more. -/
def spaced16 : List Nat → Bool
  | [] => true
  | [_] => true
  | a :: b :: t => decide (a + 16 ≤ b) && spaced16 (b :: t)

/-- Whether a table is well formed (R59). -/
def gzWellFormed (m : Smap Nat) (p t : Nat) : Bool :=
  let l := gzPositions m p t
  l.all (fun x => decide (8 ≤ x)) && spaced16 l

/-- Whether a port's table has a staged copy that differs. -/
def gzDiffers (p t : Nat) (s : State) : Bool :=
  (List.range 9).any (fun e => s.ports.gz.get 0 (gzKey p t e) ≠ s.ports.gzStg.get 0 (gzKey p t e))

/-- The ports unit is affected by a change set (R218). -/
def portsAffected (s : State) : Bool := s.ports.gz ≠ s.ports.gzStg

/-- The staged tables that are not well formed, as 4 × port + table (R59). -/
def gzBad (s : State) : List Nat :=
  (List.range 64).filter (fun k => gzDiffers (k / 4) (k % 4) s && !(gzWellFormed s.ports.gzStg (k / 4) (k % 4)))

/-- The ports unit's part of a commit. -/
def portsCommit (s : State) : State := { s with ports := { s.ports with gz := s.ports.gzStg } }

/-- What a gain-zone word keeps of a written value (R77). -/
def gzMask (e : Nat) (v : Qword) : Nat := if e = 0 then v.toNat % 4 else v.toNat % 2 ^ 26

/-- An access to PRT_GZ_DATA advances the address (R77, R578). -/
def prtGzAdvance (p : Nat) (s : State) : State := wr PRT_GZ_ADDR_ENTRY p ((rd PRT_GZ_ADDR_ENTRY p s + 1) % 16) s

/-- An access to PRT_GZ_DATA (R59, R71, R77). -/
def prtGzData (org : Origin) (p : Nat) (w : Option Qword) (s : State) : State :=
  let t := rd PRT_GZ_ADDR_TABLE p s
  let e := rd PRT_GZ_ADDR_ENTRY p s
  let k := gzKey p t e
  prtGzAdvance p <| match w with
    | none => if 8 < e then violate blkPRT 0x0F org 0 0 0 s else s
    | some v =>
      if 8 < e then writeIgnored org (PRT_GZ_DATA.off p) v s
      else if weaving s && !(portIdle p s) then
        if setPrepared s then holdWrite (.gz k (gzMask e v)) s
        else { s with ports := { s.ports with gzStg := s.ports.gzStg.put 0 k (gzMask e v) } }
      else
        { s with ports := { s.ports with
            gz := s.ports.gz.put 0 k (gzMask e v), gzStg := s.ports.gzStg.put 0 k (gzMask e v) } }

/-- What PRT_GZ_DATA shows: the staged word (R77). -/
def prtGzShow (p : Nat) (s : State) : Nat :=
  let e := rd PRT_GZ_ADDR_ENTRY p s
  if 8 < e then 0 else s.ports.gzStg.get 0 (gzKey p (rd PRT_GZ_ADDR_TABLE p s) e)

/-- The nine words of a table as the ports use it. -/
def gzTable (m : Smap Nat) (p t : Nat) : List Nat := (List.range 9).map (fun e => m.get 0 (gzKey p t e))

/-- The step entries of a table that take part in a shed: enabled, and not beyond SHED − 9 (R56). -/
def gzTaking (words : List Nat) (shed : Nat) : List (Nat × Nat) :=
  (words.drop 1).filterMap (fun w =>
    if bitOf w 23 && decide (w % 2 ^ 23 + 9 ≤ shed) then some (w % 2 ^ 23, slice w 24 2) else none)

/-- The enabled entries ignored in a shed (R56). -/
def gzSkipped (words : List Nat) (shed : Nat) : Nat :=
  ((words.drop 1).filter (fun w => bitOf w 23 && !(decide (w % 2 ^ 23 + 9 ≤ shed)))).length

/-- The gain code in force at a sample: the taking-part entry with the largest position at or below it, the higher-numbered of two that
share one, START_GAIN otherwise (R56). -/
def gainAt (words : List Nat) (shed n : Nat) : Nat :=
  ((gzTaking words shed).foldl (fun (best : Option (Nat × Nat)) e =>
    if e.1 ≤ n then
      match best with
      | some b => if b.1 ≤ e.1 then some e else some b
      | none => some e
    else best) none).elim (words.getD 0 0 % 4) (·.2)

/-! ### The commands of this chapter -/

/-- CONV_SWAP_REQUEST: a CNV_GRP_CTL write with SWAP = 1. -/
def execConvSwapRequest (g : Fin 4) (v : Qword) (s : State) : Res :=
  if s.sys.inReset then .next s else
  .next (cnvGrpCtlWrite .pcie g (v ||| 0x80#64) s)

/-- SWAP_SWITCH. -/
def execSwapSwitch (g : Fin 4) (s : State) : Res := .next (swapSwitch g s)

/-- CONV_STUCK: only a converter that serves. -/
def execConvStuck (j : Fin 68) (s : State) : Res :=
  if cnvSt j s = cSERVING then .next (convFail j true s) else .next s

/-- AUTO_SWAP_REQUEST: the device's own request for a failed converter of a group, once the spare is READY and no swap is in progress
(R65). For a slot whose port is GATED it is refused, as R61 says of every request. -/
def execAutoSwapRequest (g : Fin 4) (s : State) : Res :=
  match failedSlot g s with
  | some k =>
    let r := swapReason g k s
    if rdB CNV_GRP_CTL_AUTO_SPARE g s ∧ (r = 0 ∨ r = 3) then
      let s := (convSwapRequest g k false (swapUnwait (16 * g + k) s)).1
      .next (if r = 0 then s else violate blkCNV 0x02 .device r (CNV_GRP_CTL.off g) k s)
    else .next s
  | none => .next s

/-- PRT_RUN_START: a PRT_CTL write with RUN = 1. -/
def execPrtRunStart (p : Fin 16) (v : Qword) (s : State) : Res :=
  if s.sys.inReset then .next s else
  .next (prtCtlWrite .pcie p (v ||| 1#64) s)

/-- PRT_RUN_STOP: a PRT_CTL write with RUN = 0. -/
def execPrtRunStop (p : Fin 16) (v : Qword) (s : State) : Res :=
  if s.sys.inReset then .next s else
  .next (prtCtlWrite .pcie p (BitVec.ofNat 64 (v.toNat / 2 * 2)) s)

/-- PORT_CLOSE_DONE. -/
def execPortCloseDone (p : Fin 16) (s : State) : Res :=
  if portSt p s = pCLOSING && !(portOwes p s) then .next (portClosed p s) else .next s

/-- FRUGAL_MEMBER_WRITE: a PRT_CTL write with FRUGAL_MEMBER as given and RUN at its present value. -/
def execFrugalMemberWrite (p : Fin 16) (member : Bool) (s : State) : Res :=
  if s.sys.inReset then .next s else
  .next (prtCtlWrite .pcie p (BitVec.ofNat 64 (2 * b2n member + rd PRT_CTL_RUN p s)) s)

/-- CORR_APPLY (R54). -/
def execCorrApply (p : Fin 16) (s : State) : Res := .next (portCorrEnforce p (advanceTo (quietEdge p s.now s) s))

/-- GZ_DATA_ACCESS. -/
def execGzDataAccess (p : Fin 16) (w : Option Qword) (s : State) : Res :=
  if s.sys.inReset then .next (resetAccess 8 w.isNone s) else
  match w with
  | none => .next (emit (.readData (BitVec.ofNat 64 (prtGzShow p s))) (prtGzData .pcie p none s))
  | some v => .next (prtGzData .pcie p (some v) s)

end Sys2Proof.Machine
end

