-- ==== Sys2Proof/Machine/Treadle.lean ====
section
/-!
DEFINITION. The draft and the Treadle (chapter 07): the draft store and its scan, the encoding of draft instructions, programs,
and the change set with its tries, commits and ends. Ticks are in Machine/Picks.lean.
-/

set_option autoImplicit false

namespace Sys2Proof.Machine

/-- The Treadle's state is replaced by a function of it. -/
def onTrd (f : Treadle → Treadle) (s : State) : State := { s with trd := f s.trd }

/-! ### The encoding of draft instructions (R206) -/

/-- A draft word: its opcode over its fields. -/
def draftWord (op fields : Nat) : Nat := op * 2 ^ 42 + fields

def encTrdNop : Nat := draftWord 0 0
def encPick : Nat := draftWord 1 0
def encKind (k : BitVec 2) (mask : BitVec 16) : Nat := draftWord 2 (k.toNat * 2 ^ 16 + mask.toNat)
def encSlot (k : BitVec 6) (mask : BitVec 16) : Nat := draftWord 3 (k.toNat * 2 ^ 16 + mask.toNat)
def encGzt (t : BitVec 2) (mask : BitVec 16) : Nat := draftWord 4 (t.toNat * 2 ^ 16 + mask.toNat)
def encLine (inc : Bool) (l : BitVec 3) (mask : BitVec 16) : Nat :=
  draftWord 5 (b2n inc * 2 ^ 20 + l.toNat * 2 ^ 16 + mask.toNat)
def encLo (e : BitVec 6) : Nat := draftWord 6 e.toNat
def encStripe (line : BitVec 7) (stripe : BitVec 12) : Nat := draftWord 7 (line.toNat * 2 ^ 16 + stripe.toNat)
def encLoop (count : BitVec 16) : Nat := draftWord 8 count.toNat
def encEndl : Nat := draftWord 9 0
def encJump (target : BitVec 12) : Nat := draftWord 10 target.toNat
def encJflg (flag : BitVec 4) (target : BitVec 12) : Nat := draftWord 11 (flag.toNat * 2 ^ 16 + target.toNat)
def encNote (q : BitVec 2) (pri : BitVec 4) (code : BitVec 16) : Nat :=
  draftWord 12 (q.toNat * 2 ^ 32 + pri.toNat * 2 ^ 28 + code.toNat)
def encPpsa (ofs : BitVec 29) : Nat := draftWord 13 ofs.toNat
def encBeat : Nat := draftWord 14 0
def encSwap : Nat := draftWord 15 0

/-- The field bits of each defined opcode (R206). -/
def draftMask (op : Nat) : Option Nat :=
  match op with
  | 0 => some 0
  | 1 => some 0
  | 2 => some 0x3FFFF
  | 3 => some 0x3FFFFF
  | 4 => some 0x3FFFF
  | 5 => some 0x17FFFF
  | 6 => some 0x3F
  | 7 => some 0x7F0FFF
  | 8 => some 0xFFFF
  | 9 => some 0
  | 10 => some 0xFFF
  | 11 => some 0xF0FFF
  | 12 => some 0x3F000FFFF
  | 13 => some 0x1FFFFFFF
  | 14 => some 0
  | 15 => some 0
  | _ => none

/-- The opcode of a draft word. -/
def draftOp (w : Nat) : Nat := slice w 42 6

/-- The fields of a draft word. -/
def draftFields (w : Nat) : Nat := w % 2 ^ 42

/-- Check 0010: a defined opcode, zero in every reserved field, no reserved field encoding (R199, R208, R210). -/
def draftDefined (w : Nat) : Bool :=
  match draftMask (draftOp w) with
  | none => false
  | some m =>
    Nat.land (draftFields w) m = draftFields w
      && !(draftOp w = 2 && slice w 16 2 = 3)
      && !(draftOp w = 5 && bitOf w 20 && slice w 16 3 ≠ 0)

/-! ### The draft store and its scan (R198, R199) -/

/-- A word of a bank. -/
def draftAt (b a : Nat) (s : State) : Nat := s.trd.draft.get 0 (4096 * b + a)

/-- The active bank. -/
def bankOf (s : State) : Nat := rd TRD_CTL_BANK 0 s

/-- The inactive bank. -/
def otherBank (s : State) : Nat := 1 - bankOf s

/-- The words 0 to LENGTH − 1 of a bank. -/
def bankWords (b : Nat) (s : State) : List Nat := (List.range (rd TRD_BANK_CFG_LENGTH b s)).map (fun a => draftAt b a s)

/-- The stack of open LOOP addresses after each address, from the words in order (R199). -/
def loopStack : List Nat → Nat → List Nat → List Nat
  | [], _, st => st
  | w :: t, a, st =>
    if draftOp w = 8 then loopStack t (a + 1) (a :: st)
    else if draftOp w = 9 then loopStack t (a + 1) st.tail
    else loopStack t (a + 1) st

/-- The depth of an address: loops opened and not yet closed at lower addresses. -/
def depthAt (ws : List Nat) (a : Nat) : Nat := (loopStack (ws.take a) 0 []).length

/-- The first failing check at an address, 0 when none fails (R199). -/
def scanAt (ws : List Nat) (entry a : Nat) : Nat :=
  let w := ws.getD a 0
  let d := depthAt ws a
  let op := draftOp w
  let open_ := loopStack ws 0 []
  if !(draftDefined w) then 2
  else if (op = 8 ∧ 2 ≤ d) ∨ (op = 9 ∧ d = 0) ∨ open_.head? = some a then 3
  else if (op = 10 ∨ op = 11) ∧ (d ≠ 0 ∨ ws.length ≤ w % 2 ^ 12 ∨ depthAt ws (w % 2 ^ 12) ≠ 0) then 4
  else if op = 13 ∧ 500000000 ≤ w % 2 ^ 29 then 5
  else if a = entry ∧ d ≠ 0 then 7
  else 0

/-- The result of a scan: the failing check and its address, or none (R199). -/
def scanResult (b : Nat) (s : State) : Option (Nat × Nat) :=
  let len := rd TRD_BANK_CFG_LENGTH b s
  let entry := rd TRD_BANK_CFG_ENTRY b s
  if !(1 ≤ len ∧ len ≤ 4096 ∧ entry < len) then some (1, 0)
  else if rd TRD_BANK_CFG_STEP b s ≠ rd SYS_ID_STEP_MAJOR 0 s then some (6, 0)
  else
    let ws := bankWords b s
    ((List.range len).find? (fun a => scanAt ws entry a ≠ 0)).map (fun a => (scanAt ws entry a, a))

/-- A running scan of a bank is ended by a write (code 1000). -/
def scanAbort (b addr : Nat) (s : State) : State :=
  if rdB TRD_BANK_CFG_CHECKING b s then
    wr TRD_BANK_CFG_ERR_ADDR b addr (wr TRD_BANK_CFG_ERR b 8 (wr TRD_BANK_CFG_CHECKING b 0
      (onTrd (fun t => { t with scans := t.scans.filter (fun x => x.bank ≠ b) }) s)))
  else s

/-- Whether a prepared set swaps banks, so that the inactive bank is frozen (R198). -/
def swapPrepared (s : State) : Bool := setPrepared s && s.trd.swapStaged

/-- An access to TRD_DRAFT_DATA advances the address (R234, R578). -/
def draftAdvance (s : State) : State := wr TRD_DRAFT_ADDR_ADDR 0 ((rd TRD_DRAFT_ADDR_ADDR 0 s + 1) % 4096) s

/-- An access to TRD_DRAFT_DATA (R198, R234). -/
def draftData (org : Origin) (w : Option Qword) (s : State) : State :=
  let b := rd TRD_DRAFT_ADDR_BANK 0 s
  let a := rd TRD_DRAFT_ADDR_ADDR 0 s
  draftAdvance <| match w with
    | none => s
    | some v =>
      if (weaving s ∧ b = bankOf s) ∨ (swapPrepared s ∧ b = otherBank s) then
        writeIgnored org (TRD_DRAFT_DATA.off 0) v s
      else
        scanAbort b a (wr TRD_BANK_CFG_VALID b 0
          (onTrd (fun t => { t with draft := t.draft.put 0 (4096 * b + a) (v.toNat % 2 ^ 48) }) s))

/-- The write of TRD_BANK_CFG (R198, R199, R235). VALIDATE is judged by CHECKING as it stood before the write. That a running bank goes on
with what is written, and that a scan clears VALID of a valid bank, is DESIGN CHOICE, log entry 107. -/
def bankCfgWrite (org : Origin) (b : Nat) (v : Qword) (s : State) : State :=
  let old := (rd TRD_BANK_CFG_ENTRY b s, rd TRD_BANK_CFG_LENGTH b s, rd TRD_BANK_CFG_STEP b s)
  let new := (TRD_BANK_CFG_ENTRY.ofQ v, TRD_BANK_CFG_LENGTH.ofQ v, TRD_BANK_CFG_STEP.ofQ v)
  let validate := bitOf v.toNat 1
  let checking := rdB TRD_BANK_CFG_CHECKING b s
  if swapPrepared s ∧ b = otherBank s ∧ (old ≠ new ∨ validate) then writeIgnored org (TRD_BANK_CFG.off b) v s
  else
    let s := if old = new then s else scanAbort b 0 (wr TRD_BANK_CFG_VALID b 0 (regWrite TRD_BANK_CFG b v s))
    if validate then
      if checking then writeIgnored org (TRD_BANK_CFG.off b) v s
      else wr TRD_BANK_CFG_CHECKING b 1 (wr TRD_BANK_CFG_VALID b 0
        (onTrd (fun t => { t with scans := t.scans ++ [{ bank := b, started := s.now }] }) s))
    else s

/-- A scan ends (R199). -/
def scanEnd (b : Nat) (s : State) : State :=
  if rdB TRD_BANK_CFG_CHECKING b s then
    let s' := wr TRD_BANK_CFG_CHECKING b 0 (onTrd (fun t => { t with scans := t.scans.filter (fun x => x.bank ≠ b) }) s)
    match scanResult b s with
    | none => wr TRD_BANK_CFG_ERR b 0 (wr TRD_BANK_CFG_VALID b 1 s')
    | some (e, a) => wr TRD_BANK_CFG_ERR_ADDR b a (wr TRD_BANK_CFG_ERR b e (wr TRD_BANK_CFG_VALID b 0 s'))
  else s

/-! ### The output grid (R156) -/

/-- The grid spacing under a period, in 1/256 ns. -/
def gridStep (period : Nat) (s : State) : Nat := clampN 1 1024 (maxN 1 (rd HDL_CTL_D 0 s)) * period * 512

/-- The grid begins at the nominal time of the first pick (in sample clocks). -/
def gridBegin (g : Nat) (s : State) : State :=
  { s with heddle := { s.heddle with
      grid := s.heddle.grid.filter (fun g => g.weave ≠ s.trd.weave) ++ [{ k := 0, t := ((g * 512 : Nat) : Int), step := gridStep (periodOf s) s, weave := s.trd.weave }] } }

/-- The grid of a weave. -/
def gridOf (w : Nat) (s : State) : List GridSeg := s.heddle.grid.filter (fun g => g.weave = w)

/-- The run of grid points that holds a time: the last one that begins at or before it, the first otherwise. -/
def gridSegAt (l : List GridSeg) (t : Int) : Option GridSeg :=
  match (l.filter (fun g => decide (g.t ≤ t))).getLast? with
  | some g => some g
  | none => l.head?

/-- The index of the first grid point at or after a time. -/
def gridCeil (g : GridSeg) (t : Int) : Int := g.k + -((g.t - t) / (g.step : Int))

/-- The time of a grid point of a run. -/
def gridTime (g : GridSeg) (k : Int) : Int := g.t + (k - g.k) * (g.step : Int)

/-- A committed period changes the spacing from the first grid point at or after its anchor onward. -/
def gridPeriod (g : Nat) (s : State) : State :=
  let t : Int := ((g * 512 : Nat) : Int)
  let kept := match gridOf s.trd.weave s with
    | [] => []
    | h :: rest => h :: rest.filter (fun x => decide (x.t < t))
  match gridSegAt kept t with
  | none => s
  | some x =>
    let k := gridCeil x t
    let new : GridSeg := { k := k, t := gridTime x k, step := gridStep (periodOf s) s, weave := s.trd.weave }
    { s with heddle := { s.heddle with
        grid := s.heddle.grid.filter (fun y => y.weave ≠ s.trd.weave) ++ kept.filter (fun y => decide (y.t < new.t)) ++ [new] } }

/-! ### Units and their readiness (R218) -/

/-- The timing fields that are beat-able. -/
def timingFlds : List Fld := [SYS_PICK_PERIOD_PERIOD, SYS_PICK_LIM_SELV_FLOOR, SYS_PICK_LIM_STRETCH_LIM]

/-- Whether some staged line differs from the line in force. -/
def linesDiffer (s : State) : Bool := (List.range 16).any (fun p => lineStg p s ≠ lineOf p s)

/-- Whether the timing unit holds a staged value. -/
def timingAffected (s : State) : Bool :=
  timingFlds.any (fun f => rd f 0 s ≠ rdI f 0 s)
    || (List.range 64).any (fun i => SYS_LINE_SHED.fields.any (fun f => rd f i s ≠ rdI f i s)) || linesDiffer s

/-- The lines that keep the timing unit from being ready under the staged values (R15, R18). -/
def timingBad (s : State) : List Nat :=
  let per := periodActs (rd SYS_PICK_PERIOD_PERIOD 0 s)
  let floor := clampN 2000 500000 (rd SYS_PICK_LIM_SELV_FLOOR 0 s)
  (List.range 16).filterMap (fun p =>
    let j := lineIdx p (lineStg p s)
    let sh := shedStg j s
    let moved := lineStg p s ≠ lineOf p s
    if (sh = 0 ∧ (moved ∨ shedOf j s ≠ 0)) ∨ (sh ≠ 0 ∧ per < sh + floor) then some j else none)

/-- The lines of R344 that break the period rule with the values in force. -/
def weaveBad (s : State) : List Nat :=
  (List.range 16).filterMap (fun p =>
    let j := lineIdx p (lineOf p s)
    if shedOf j s ≠ 0 ∧ periodOf s < shedOf j s + selvOf s then some j else none)

/-- Whether the Heddle holds a staged value. -/
def heddleAffected (s : State) : Bool :=
  rd SYS_PICK_PERIOD_PERIOD 0 s ≠ rdI SYS_PICK_PERIOD_PERIOD 0 s
    || (List.range 16).any (fun p => HDL_PORT_CFG.fields.any (fun f => rd f p s ≠ rdI f p s))

/-- The Heddle's readiness: the throughput check with the staged period (R150). -/
def heddleReady (s : State) : Bool :=
  decide (heddleLoad none s ≤ 16 * periodActs (rd SYS_PICK_PERIOD_PERIOD 0 s))

/-- The draft unit's readiness: the inactive bank is VALID and not CHECKING. -/
def draftReady (s : State) : Bool := rdB TRD_BANK_CFG_VALID (otherBank s) s && !(rdB TRD_BANK_CFG_CHECKING (otherBank s) s)

/-- The units a change set affects, by the bits of R218. -/
def affectedMask (s : State) : Nat :=
  b2n (timingAffected s) + 2 * b2n (portsAffected s) + 4 * b2n (reedAffected s) + 8 * b2n (heddleAffected s)
    + 16 * b2n (sourceAffected s) + 32 * b2n (linesDiffer s) + 64 * b2n s.trd.swapStaged
    + 128 * b2n (s.spc.lo ≠ s.spc.loStg)

/-- The units not ready, by the bits of R218. -/
def unreadyMask (s : State) : Nat :=
  b2n (timingAffected s && !(timingBad s).isEmpty) + 2 * b2n (portsAffected s && !(gzBad s).isEmpty)
    + 4 * b2n (reedAffected s && !(reedReady s)) + 8 * b2n (heddleAffected s && !(heddleReady s))
    + 16 * b2n (sourceAffected s && !(sourceReady s)) + 32 * b2n (linesDiffer s && !(linesReady s))
    + 64 * b2n (s.trd.swapStaged && !(draftReady s))

/-! ### The change set (R219 to R225) -/

/-- The outcomes of R236. -/
def ocCOMMITTED : Nat := 1
def ocABANDONED : Nat := 2
def ocDISCARDED : Nat := 3
def ocEXITED : Nat := 4

/-- A set ends with an outcome at a pick (R225): registers, counters, the BEAT record, the event, and the BEAT commands that opened or
joined it. -/
def setEnds (c : ChangeSet) (outcome tries pick : Nat) (s : State) : State :=
  let ok := outcome = ocCOMMITTED
  let s := wr TRD_BEAT_STAT_AFFECTED 0 c.affected (wr TRD_BEAT_STAT_NOT_READY 0 c.notReady
    (wr TRD_BEAT_STAT_OUTCOME 0 outcome (wr TRD_BEAT_STAT_TRIES 0 tries (wr TRD_BEAT_PICK_PICK 0 pick s))))
  let s := if ok then bump TRD_CNT_COMMITS 0 s else bump TRD_CNT_ABANDONS 0 s
  let ev := if ok then 64 else 65
  let s := eventRecord 0x06 ev (place outcome 20 4 + place tries 15 5) pick c.beatPick
    (place c.affected 8 8 + place c.notReady 0 8) s
  let s := raise ev (onTrd (fun t => { t with set := none }) s)
  finishCmd 0x14 1 (if ok then 0 else 3) tries (place outcome 60 4 + place pick 0 48) s

/-- A waiting set is tried (R219). Event 66 is raised at the failed try, as the section's example dates it; whether the try will count is not
known then, so that every failed try before the first counted one raises it (DEDUCED, log entry 95). -/
def trySet (s : State) : State :=
  match s.trd.set with
  | none => s
  | some c =>
    if c.prepared then s
    else
      let bad := unreadyMask s
      let aff := affectedMask s
      if bad = 0 then onTrd (fun t => { t with set := some { c with prepared := true, affected := aff } }) s
      else
        let s := if bitOf bad 1 then (gzBad s).foldl (fun s k => violate blkPRT 0x04 .device 1 k 0 s) s else s
        let s := if bitOf bad 0 && !(bitOf c.notReady 0) then
            violate blkSYS 0x04 .device 0 ((timingBad s).headD 0) 0 s else s
        let s := if c.tries = 0 then raise 66 s else s
        onTrd (fun t => { t with set := some { c with triedFailed := true, affected := aff, notReady := bad } }) s

/-- A beat is taken in the running program: it opens a set, or joins the open one (R219, R222). -/
def takeBeat (s : State) : State :=
  if s.trd.beatTaken then s
  else
    let s := onTrd (fun t => { t with beatTaken := true }) s
    match s.trd.set with
    | none =>
      presetsOnOpen (onTrd (fun t => { t with set := some { beatPick := t.pickN } }) s)
    | some _ => bump TRD_CNT_MERGED 0 s

/-- Every field that R218 stages by registers, with its instances. -/
def beatRegs : List (Reg × Nat) :=
  [(SYS_PICK_PERIOD, 1), (SYS_PICK_LIM, 1), (SYS_LINE_SHED, 64), (RED_PORT_CFG, 16), (HDL_PORT_CFG, 16), (SRC_CUR, 8)]

/-- Every staged value but the Reed's banks returns to its in-force value, and a staged bank swap is cancelled (R223). -/
def discardStaged (s : State) : State :=
  let s := beatRegs.foldl (fun s r => (List.range r.2).foldl (fun s i =>
    r.1.fields.foldl (fun s f => wr f i (rdI f i s) s) s) s) s
  let s := (List.range 16).foldl (fun s p => wr TRD_PORT_LINE_STG p (lineOf p s) s) s
  { s with ports := { s.ports with gzStg := s.ports.gz },
           spc := { s.spc with loStg := s.spc.lo },
           trd := { s.trd with swapStaged := false } }

/-- The staged line of a port is written while WEAVING (R210, R222, R427). -/
def stageLine (p l : Nat) (s : State) : State :=
  if setPrepared s then holdWrite (.fld (TRD_PORT_LINE_STG.key p) 0 (l % 8)) s
  else
    let was := lineStg p s
    let s := wr TRD_PORT_LINE_STG p l s
    if s.trd.set.isSome ∧ was ≠ lineStg p s then presetOnChange p s else s

/-- What was held acts on the staged copies, once the prepared set has committed (R222, R223). -/
def applyHeld (h : HeldWrite) (s : State) : State :=
  match h with
  | .fld k r v => { s with csr := s.csr.put r k v }
  | .gz k v => { s with ports := { s.ports with gzStg := s.ports.gzStg.put 0 k v } }
  | .lo k v => { s with spc := { s.spc with loStg := s.spc.loStg.put 0 k v } }
  | .swap => { s with trd := { s.trd with swapStaged := true } }
  | .discard => discardStaged s

/-- A DISCARD (R223): a prepared set commits first, and the discard then acts in its turn among the held writes (R222, R232). -/
def discard (s : State) : State :=
  match s.trd.set with
  | none => discardStaged s
  | some c =>
    if c.prepared then holdWrite .discard s
    else
      let s := setEnds c ocDISCARDED c.tries (rd SYS_PICK_NUM_NUM 0 s) s
      restoresOnEnd (discardStaged s)

/-- A prepared set is committed at the tick of pick `n`, whose nominal time is given (R221). Blanking of ports whose line changes starts
at the tick (R431). -/
def commitSet (c : ChangeSet) (n nominal : Nat) (s : State) : State :=
  let newPeriod := bitOf c.affected 0 && decide (rd SYS_PICK_PERIOD_PERIOD 0 s ≠ rdI SYS_PICK_PERIOD_PERIOD 0 s)
  let s := if bitOf c.affected 0 then
      let s := timingFlds.foldl (fun s f => enforce f 0 s) s
      (List.range 64).foldl (fun s i => SYS_LINE_SHED.fields.foldl (fun s f => enforce f i s) s) s
    else s
  let s := if newPeriod then gridPeriod nominal (onTrd (fun t => { t with anchorB := n, anchorG := nominal }) s) else s
  let s := if bitOf c.affected 5 then
      (List.range 16).foldl (fun s p => if lineStg p s = lineOf p s then s
        else blankStart p (wr TRD_PORT_LINE p (lineStg p s) s)) s
    else s
  let s := if bitOf c.affected 1 then portsCommit s else s
  let s := if bitOf c.affected 2 then reedCommit s else s
  let s := if bitOf c.affected 3 then
      (List.range 16).foldl (fun s p => HDL_PORT_CFG.fields.foldl (fun s f => enforce f p s) s) s else s
  let s := if bitOf c.affected 4 then sourceCommit s else s
  let s := if bitOf c.affected 7 then { s with spc := { s.spc with lo := s.spc.loStg } } else s
  let s := if bitOf c.affected 6 then
      let b := otherBank s
      raise 70 (onTrd (fun t => { t with swapStaged := false, pc := rd TRD_BANK_CFG_ENTRY b s, loops := [] })
        (wr TRD_CTL_BANK 0 b s))
    else s
  let s := setEnds c ocCOMMITTED (c.tries + 1) n s
  s.trd.held.foldl (fun s h => applyHeld h s) (onTrd (fun t => { t with held := [] }) s)

/-- The device leaves WEAVING (R201, R224): the Treadle stops, a HOST_BEAT not yet taken lapses, an open set ends EXITED, PREPARED Reed
banks come into force, one whose preparation runs or waits does so when that ends, and every other staged value is discarded. -/
def leaveWeaving (s : State) : State :=
  let num := rd SYS_PICK_NUM_NUM 0 s
  let s := finishCmd 0x14 0 3 0 (place ocEXITED 60 4 + place num 0 48) s
  let s := onTrd (fun t =>
    { t with weaving := false, running := false, startDue := none, progEnd := none, ppsWait := none,
             hostBeat := false, places := [], carried := [], held := [] }) s
  let had := s.trd.set.isSome
  let s := match s.trd.set with
    | some c => setEnds c ocEXITED c.tries num s
    | none => s
  let s := discardStaged (reedLeave s)
  if had then restoresOnEnd s else s

/-- The write of TRD_CTL (R216, R223, R229, R232). -/
def trdCtlWrite (org : Origin) (v : Qword) (s : State) : State :=
  let b := bitOf v.toNat 0
  let s := if weaving s then
      (if TRD_CTL_BANK.ofQ v = bankOf s then s else writeIgnored org (TRD_CTL.off 0) v s)
    else wrB TRD_CTL_BANK 0 b s
  let s := if bitOf v.toNat 7 then discard s else s
  let s := if bitOf v.toNat 5 then
      if weaving s then
        if setPrepared s then holdWrite .swap s else onTrd (fun t => { t with swapStaged := true }) s
      else if draftReady s then wr TRD_CTL_BANK 0 (otherBank s) s
      else writeIgnored org (TRD_CTL.off 0) v s
    else s
  if bitOf v.toNat 6 ∧ s.trd.weaving then onTrd (fun t => { t with hostBeat := true }) s else s

/-- The write of TRD_PORT: the staged line (R238). -/
def trdPortWrite (p : Nat) (v : Qword) (s : State) : State :=
  let l := TRD_PORT_LINE_STG.ofQ v
  if weaving s then stageLine p l s else wr TRD_PORT_LINE p l (wr TRD_PORT_LINE_STG p l s)

/-- The write of TRD_FLAG_SET (R237). -/
def flagSet (v : Qword) (s : State) : State :=
  onTrd (fun t => { t with flags := Nat.lor t.flags (v.toNat % 2 ^ 16) }) s

/-! ### Programs (R202 to R205) -/

/-- The program of the next pick starts, and takes a HOST_BEAT (R202, R222). -/
def programStart (s : State) : State :=
  match s.trd.startDue with
  | none => s
  | some t =>
    if s.trd.weaving && !s.trd.running then
      let s := advanceTo t s
      let n := if s.trd.firstPick then rd SYS_PICK_BASE_BASE 0 s else (s.trd.pickN + 1) % 2 ^ 48
      let hb := s.trd.hostBeat
      let s := onTrd (fun x =>
        { x with running := true, startDue := none, pickN := n, insns := 0, cost := 0, progStart := s.now, progEnd := none,
                 noteDropped := false, beatTaken := false, hostBeat := false, loStarted := false }) s
      if hb then
        mapCmds (fun c => if c.opcode = 0x14 ∧ c.phase = .running then { c with aux := 1 } else c) (takeBeat s)
      else s
    else s

/-- The transfer of the named LO entry at the end of a program (R179, R429): when it is not the one last strobed, when its last transfer
failed, or when the set just prepared changes its content. -/
def loAtProgramEnd (s : State) : State :=
  match s.trd.loNamed with
  | none => s
  | some e =>
    let prep := setPrepared s
    let changed := s.src.loFailed = some e || prep && (s.spc.lo.get 0 (2 * e) ≠ s.spc.loStg.get 0 (2 * e)
      || s.spc.lo.get 0 (2 * e + 1) ≠ s.spc.loStg.get 0 (2 * e + 1))
    let src := if prep then s.spc.loStg else s.spc.lo
    if changed || (s.spc.strobed ≠ some e && s.src.loSent ≠ some e) then
      loTransfer e (src.get 0 (2 * e)) (src.get 0 (2 * e + 1)) (onTrd (fun t => { t with loStarted := true }) s)
    else s

/-- The nominal time of a pick, in sample clocks (R16). -/
def nominalOf (n : Nat) (s : State) : Nat :=
  s.trd.anchorG + (n + 2 ^ 48 - s.trd.anchorB) % 2 ^ 48 * periodOf s

/-- A program ends, by PICK or by the budget (R204, R207): a waiting set is tried, and an LO transfer starts. For the first pick without
an alignment the grid is anchored 50,000 sc after the end (R200). -/
def programEnd (s : State) : State :=
  let t := s.trd.progStart + s.trd.cost
  let s := onTrd (fun x => { x with running := false, progEnd := some t }) (advanceTo t s)
  let s := if s.trd.firstPick ∧ gridOf s.trd.weave s = [] then
      let g := (t + 1) / 2 + 50000
      gridBegin g (onTrd (fun x => { x with anchorB := x.pickN, anchorG := g }) s)
    else s
  loAtProgramEnd (trySet s)

/-- The 256th instruction of a program, which is not PICK, has been executed: its wait, where it is a PPSA, is over (R203). The program ends
as though PICK had executed; `addr` is the instruction's address (R204). -/
def budgetEnd (addr : Nat) (s : State) : State :=
  if s.trd.running && s.trd.ppsWait.isNone && decide (s.trd.insns = 256) then
    raise 67 (bump TRD_CNT_BUDGET 0 (violate blkTRD 0x06 .draft 1 addr 0 (programEnd s)))
  else s

/-- The Treadle executes the instruction whose word is `w`, when a program runs and it stands at the program counter: its cost, the
next address, its effect, and the budget of 256 (R203, R204). -/
def draftExec (w cost : Nat) (body : State → State) (s : State) : State :=
  let pc := s.trd.pc
  if s.trd.running && s.trd.ppsWait.isNone && decide (pc < rd TRD_BANK_CFG_LENGTH (bankOf s) s)
      && decide (draftAt (bankOf s) pc s = w) then
    let s := onTrd (fun t => { t with pc := pc + 1, insns := t.insns + 1, cost := t.cost + cost }) s
    budgetEnd pc (body s)
  else s

/-- An instruction jumps: two cycles more than it costs otherwise. -/
def draftJump (target : Nat) (s : State) : State := onTrd (fun t => { t with pc := target, cost := t.cost + 2 }) s

/-- Execution passes LENGTH − 1: one instruction of four cycles (R205). -/
def draftWrap (s : State) : State :=
  let b := bankOf s
  let len := rd TRD_BANK_CFG_LENGTH b s
  if s.trd.running && s.trd.ppsWait.isNone && decide (s.trd.pc = len) then
    let s := onTrd (fun t => { t with pc := rd TRD_BANK_CFG_ENTRY b s, insns := t.insns + 1, cost := t.cost + 4 }) s
    budgetEnd (len - 1) s
  else s

/-- A setting of every port in a mask. -/
def forMask (mask : BitVec 16) (f : Nat → State → State) (s : State) : State :=
  (maskList 16 mask.toNat).foldl (fun s p => f p s) s

/-- A failed PPSA (R227). -/
def ppsaFail (addr : Nat) (s : State) : State := raise 68 (violate blkTRD 0x06 .draft 3 addr 0 s)

/-! ### The commands of this chapter -/

/-- PROGRAM_START. -/
def execProgramStart (s : State) : Res := .next (programStart s)

/-- TRD_NOP. -/
def execTrdNop (s : State) : Res := .next (draftExec encTrdNop 2 id s)

/-- DRAFT_WRAP. -/
def execDraftWrap (s : State) : Res := .next (draftWrap s)

/-- PICK: the program ends (R207). -/
def execPick (s : State) : Res := .next (draftExec encPick 2 programEnd s)

/-- KIND (R208). -/
def execKind (k : BitVec 2) (mask : BitVec 16) (s : State) : Res :=
  .next (draftExec (encKind k mask) 2 (forMask mask (fun p s => wr TRD_PORT_KIND p k.toNat s)) s)

/-- SLOT (R209). -/
def execSlot (k : BitVec 6) (mask : BitVec 16) (s : State) : Res :=
  .next (draftExec (encSlot k mask) 2 (forMask mask (fun p s => wr TRD_PORT_SLOT p k.toNat s)) s)

/-- GZT (R209). -/
def execGzt (t : BitVec 2) (mask : BitVec 16) (s : State) : Res :=
  .next (draftExec (encGzt t mask) 2 (forMask mask (fun p s => wr TRD_PORT_GZT p t.toNat s)) s)

/-- LINE (R210). -/
def execLine (inc : Bool) (l : BitVec 3) (mask : BitVec 16) (s : State) : Res :=
  .next (draftExec (encLine inc l mask) 2
    (forMask mask (fun p s => stageLine p (if inc then (lineStg p s + 1) % 8 else l.toNat) s)) s)

/-- LO (R211). -/
def execLo (e : BitVec 6) (s : State) : Res :=
  .next (draftExec (encLo e) 2 (onTrd (fun t => { t with loNamed := some e.toNat })) s)

/-- STRIPE: a placement bound to the tick (R212). -/
def execStripe (line : BitVec 7) (stripe : BitVec 12) (s : State) : Res :=
  .next (draftExec (encStripe line stripe) 2
    (onTrd (fun t => { t with places := t.places ++ [(line.toNat, stripe.toNat, t.pc - 1)] })) s)

/-- LOOP (R213). -/
def execLoop (count : BitVec 16) (s : State) : Res :=
  .next (draftExec (encLoop count) 2
    (onTrd (fun t => { t with loops := (t.pc, if count.toNat = 0 then 65536 else count.toNat) :: t.loops })) s)

/-- ENDL (R213). -/
def execEndl (s : State) : Res :=
  .next (draftExec encEndl 2 (fun s =>
    match s.trd.loops with
    | [] => s
    | (a, n) :: t => if 1 < n then draftJump a (onTrd (fun x => { x with loops := (a, n - 1) :: t }) s)
      else onTrd (fun x => { x with loops := t }) s) s)

/-- JUMP (R214). -/
def execJump (target : BitVec 12) (s : State) : Res :=
  .next (draftExec (encJump target) 2 (draftJump target.toNat) s)

/-- JFLG (R214). -/
def execJflg (flag : BitVec 4) (target : BitVec 12) (s : State) : Res :=
  .next (draftExec (encJflg flag target) 2 (fun s =>
    if bitOf s.trd.flags flag.toNat then
      draftJump target.toNat (onTrd (fun t => { t with flags := setBitTo t.flags flag.toNat false }) s)
    else s) s)

/-- NOTE (R215). -/
def execNote (q : BitVec 2) (pri : BitVec 4) (code : BitVec 16) (s : State) : Res :=
  .next (draftExec (encNote q pri code) 2 (fun s =>
    if 1 ≤ qRoom (60 + q.toNat) s then
      pushItems (60 + q.toNat) pri.toNat [code.toNat * 2 ^ 32 + s.trd.pickN % 2 ^ 32] s
    else
      let s := bump TRD_CNT_NOTE_DROP 0 s
      if s.trd.noteDropped then s else raise 71 (onTrd (fun t => { t with noteDropped := true }) s)) s)

/-- PPSA (R226, R227): fails at once, or waits. -/
def execPpsa (ofs : BitVec 29) (s : State) : Res :=
  .next (draftExec (encPpsa ofs) 2 (fun s =>
    let s := advanceTo (s.trd.progStart + s.trd.cost) s
    if !(rdB SYS_DISC_CTL_PPS_EN 0 s) ∨ rdB SYS_DISC_STAT_HOLDOVER 0 s then ppsaFail (s.trd.pc - 1) s
    else onTrd (fun t => { t with ppsWait := some (s.now, ofs.toNat) }) s) s)

/-- The end of a PPSA wait at a cycle: the program continues from there. -/
def ppsaResume (t : Nat) (s : State) : State :=
  onTrd (fun x => { x with ppsWait := none, progStart := t - x.cost }) s

/-- PPSA_TIMEOUT (R227). -/
def execPpsaTimeout (s : State) : Res :=
  match s.trd.ppsWait with
  | none => .next s
  | some (t, _) =>
    let s := advanceTo (t + 1500000000) s
    .next (budgetEnd (s.trd.pc - 1) (ppsaFail (s.trd.pc - 1) (ppsaResume s.now s)))

/-- BEAT (R219, R222). -/
def execBeat (s : State) : Res := .next (draftExec encBeat 2 takeBeat s)

/-- SWAP (R216). -/
def execSwap (s : State) : Res :=
  .next (draftExec encSwap 2 (fun s =>
    if setPrepared s then holdWrite .swap s else onTrd (fun t => { t with swapStaged := true }) s) s)

/-- TRD_DRAFT_DATA_ACCESS. -/
def execTrdDraftDataAccess (w : Option Qword) (s : State) : Res :=
  if s.sys.inReset then .next (resetAccess 8 w.isNone s) else
  match w with
  | none =>
    .next (emit (.readData (BitVec.ofNat 64 (draftAt (rd TRD_DRAFT_ADDR_BANK 0 s) (rd TRD_DRAFT_ADDR_ADDR 0 s) s)))
      (draftData .pcie none s))
  | some v => .next (draftData .pcie (some v) s)

/-- TRD_BANK_CFG_WRITE. -/
def execTrdBankCfgWrite (b : Fin 2) (v : Qword) (s : State) : Res :=
  if s.sys.inReset then .next s else
  .next (bankCfgWrite .pcie b v s)

/-- VALIDATE: a TRD_BANK_CFG write of the present settings with VALIDATE = 1. -/
def execValidate (b : Fin 2) (s : State) : Res :=
  if s.sys.inReset then .next s else
  .next (bankCfgWrite .pcie b (BitVec.ofNat 64 (regShow TRD_BANK_CFG b s ||| 2)) s)

/-- SCAN_END. -/
def execScanEnd (b : Fin 2) (s : State) : Res := .next (scanEnd b s)

/-- HOST_BEAT: a TRD_CTL write with HOST_BEAT = 1 and BANK at its present value. -/
def execHostBeat (s : State) : Res :=
  if s.sys.inReset then .next s else
  .next (trdCtlWrite .pcie (BitVec.ofNat 64 (0x40 + bankOf s)) s)

/-- DISCARD. -/
def execDiscard (s : State) : Res :=
  if s.sys.inReset then .next s else
  .next (trdCtlWrite .pcie (BitVec.ofNat 64 (0x80 + bankOf s)) s)

/-- TRD_CTL_SWAP. -/
def execTrdCtlSwap (s : State) : Res :=
  if s.sys.inReset then .next s else
  .next (trdCtlWrite .pcie (BitVec.ofNat 64 (0x20 + bankOf s)) s)

/-- TRD_FLAG_SET_WRITE. -/
def execTrdFlagSetWrite (v : Qword) (s : State) : Res :=
  if s.sys.inReset then .next s else
  .next (flagSet v s)

end Sys2Proof.Machine
end

