-- ==== Sys2Proof/Machine/Dram.lean ====
section
/-!
DEFINITION. External memory (chapter 13): modules and placement, reads and writes of bursts, errors, page retirement and ranks,
regions and fills, replay windows, refresh, the mover, and channel vacate and restore.
-/

set_option autoImplicit false

namespace Sys2Proof.Machine

/-- The memory's state is replaced by a function of it. -/
def onDram (f : Dram → Dram) (s : State) : State := { s with dram := f s.dram }

/-! ### Channels, ranks and frames (R385 to R388) -/

/-- The codes of a channel's state (R412). -/
def chABSENT : Nat := 0
def chSERVING : Nat := 1
def chVACATING : Nat := 2
def chVACANT : Nat := 3
def chRESTORING : Nat := 4

/-- The field of a channel's state. -/
def chFld (c : Nat) : Fld := if c = 0 then DRM_STAT_CH_A else DRM_STAT_CH_B

/-- The state of a channel. -/
def chState (c : Nat) (s : State) : Nat := rd (chFld c) 0 s

/-- Frames of one rank. -/
def rankFrames (s : State) : Nat := 1024 * s.dram.gib

/-- The spare rank chosen at bring-up, as 4 × channel + rank (R386). -/
def spareRank (s : State) : Nat := s.dram.spare

/-- The ranks of a channel that the placement counts (R387): none of a channel that was absent. -/
def chanRanks (c : Nat) (s : State) : Nat := s.dram.homeRk.get 0 c

/-- The ranks of a channel that serve in the home placement, ascending, as 4 × channel + rank. -/
def homeRanks (c : Nat) (s : State) : List Nat :=
  ((List.range (chanRanks c s)).map (fun r => 4 * c + r)).filter (fun k => !(s.dram.hasSpare && decide (k = spareRank s)))

/-- Whether a rank is out of service. -/
def rankIsOut (k : Nat) (s : State) : Bool := bitOf (rd DRM_STAT_RANK_OUT 0 s) k

/-- The ranks that serve now. -/
def servingRanks (s : State) : List Nat :=
  (List.range 8).filter (fun k =>
    decide (k % 4 < chanRanks (k / 4) s) && (chState (k / 4) s = chSERVING || chState (k / 4) s = chVACATING)
      && !(rankIsOut k s) && !(rdB DRM_STAT_SPARE_OK 0 s && decide (k = spareRank s)))

/-- The mappable frames of the home placement in a rank: fewer by the pool in a channel's lowest rank (R387). -/
def homeCount (c k : Nat) (s : State) : Nat :=
  if (homeRanks c s).head? = some k then rankFrames s - 9 else rankFrames s - 1

/-- The number of mappable frames of a channel. -/
def homeSize (c : Nat) (s : State) : Nat := sumN ((homeRanks c s).map (fun k => homeCount c k s))

/-- A frame's key. -/
def frameKey (k f : Nat) : Nat := 65536 * k + f

/-- The `i`-th mappable frame over ranks with their frame counts. -/
def nthFrame : List (Nat × Nat) → Nat → Option Nat
  | [], _ => none
  | (k, n) :: t, i => if i < n then some (frameKey k i) else nthFrame t (i - n)

/-- The `i`-th mappable frame of a channel. -/
def homeNth (c i : Nat) (s : State) : Option Nat := nthFrame ((homeRanks c s).map (fun k => (k, homeCount c k s))) i

/-- The home frame of a system block (R388). -/
def homeFrame (b : Nat) (s : State) : Option Nat :=
  let a := homeSize 0 s
  let c := homeSize 1 s
  let m := minN a c
  if b < 2 * m then homeNth (b % 2) (b / 2) s
  else if a < c then homeNth 1 (b - m) s else homeNth 0 (b - m) s

/-- The code of a lost block. -/
def lostLoc : Nat := 2 ^ 32

/-- The code of a block mapped nowhere. -/
def noLoc : Nat := 2 ^ 32 + 1

/-- Where a block lies: its frame, or a code. -/
def blockLoc (b : Nat) (s : State) : Nat :=
  match s.dram.bmap.get 0 b with
  | 0 => (homeFrame b s).getD noLoc
  | k + 1 => k

/-- A block lies elsewhere from now on. -/
def setBlock (b loc : Nat) (s : State) : State :=
  onDram (fun d => { d with bmap := d.bmap.put 0 b (if homeFrame b s = some loc then 0 else loc + 1) }) s

/-- The frame of a pool page of a channel. -/
def poolFrame (c p : Nat) (s : State) : Nat := frameKey (s.dram.poolRank.get 0 c) (rankFrames s - 9 + p / 256)

/-- Where a system burst lies: its frame (or a code) and its place in it. -/
def burstLoc (sb : Nat) (s : State) : Nat × Nat :=
  match s.dram.remap.get 0 (sb / 64) with
  | 0 => (blockLoc (sb / 16384) s, sb % 16384)
  | v + 1 => (poolFrame (v / 2048) (v % 2048) s, v % 256 * 64 + sb % 64)

/-- What the unlisted bursts of a frame hold. -/
def baseBurst (base : Nat) : Burst := if base = 0 then coldBurst else if base = 1 then bareBurst else poisonBurst

/-- A frame. -/
def frameOf (fk : Nat) (s : State) : Frame := s.dram.frames.get {} fk

/-- A frame is replaced. -/
def setFrame (fk : Nat) (f : Frame) (s : State) : State := onDram (fun d => { d with frames := d.frames.put {} fk f }) s

/-- A system burst as stored: a lost block holds poison. -/
def dramRaw (sb : Nat) (s : State) : Burst :=
  let (fk, i) := burstLoc sb s
  if fk = lostLoc then poisonBurst
  else if fk = noLoc then coldBurst
  else (frameOf fk s).bursts.get (baseBurst (frameOf fk s).base) i

/-- A system burst is put in place; a write to a lost or unmapped block goes nowhere. -/
def dramPut (sb : Nat) (v : Burst) (s : State) : State :=
  let (fk, i) := burstLoc sb s
  if lostLoc ≤ fk then s
  else
    let f := frameOf fk s
    setFrame fk { f with bursts := f.bursts.put (baseBurst f.base) i v } s

/-! ### Regions (R400) -/

/-- The codes of a region's state. -/
def rgUNDECLARED : Nat := 0
def rgUNFILLED : Nat := 1
def rgFILLING : Nat := 2
def rgFILLED : Nat := 3

/-- Whether a region holds a block. -/
def regionHas (r b : Nat) (s : State) : Bool :=
  rdB DRM_REGION_CTL_EN r s && decide (rd DRM_REGION_BASE r s ≤ b ∧ b ≤ rd DRM_REGION_LIMIT r s)

/-- The enabled region that holds a block. -/
def regionOf (b : Nat) (s : State) : Option Nat := (List.range 8).find? (fun r => regionHas r b s)

/-- The state of the region that holds a block. -/
def regionState (b : Nat) (s : State) : Nat :=
  match regionOf b s with
  | some r => rd DRM_REGION_CTL_STATE r s
  | none => rgUNDECLARED

/-- The blocks of a byte range. -/
def blocksOf (a n : Nat) : List Nat := (List.range ((a + n - 1) / 2 ^ 20 - a / 2 ^ 20 + 1)).map (fun i => a / 2 ^ 20 + i)

/-- Whether a byte range lies inside enabled regions. -/
def insideRegions (a n : Nat) (s : State) : Bool := n = 0 || (blocksOf a n).all (fun b => (regionOf b s).isSome)

/-! ### Pages and ranks (R398) -/

/-- An event record of the memory: P holds channel and rank. -/
def dramRecord (kind ev k low a b : Nat) (s : State) : State :=
  eventRecord kind ev (place (k / 4) 23 1 + place (k % 4) 21 2 + low) (rd SYS_PICK_NUM_NUM 0 s) a b s

/-- A page cannot be retired: event 195 once. -/
def retireFull (s : State) : State :=
  if rdB DRM_RETIRE_FULL 0 s then s else raise 195 (wr DRM_RETIRE_FULL 0 1 s)

/-- The channel in which a page lies. -/
def pageChannel (page : Nat) (s : State) : Nat := (burstLoc (64 * page) s).1 / 65536 / 4

/-- A page corrects once more; at PAGE_THR corrections of one patrol pass its copy into the pool starts. -/
def pageCorrected (page : Nat) (s : State) : State :=
  let n := s.dram.pageCorr.get 0 page + 1
  let s := onDram (fun d => { d with pageCorr := d.pageCorr.put 0 page n }) s
  if rdB DRM_CTL_AUTO_RETIRE 0 s && decide (rd DRM_CTL_PAGE_THR 0 s ≤ n)
      && !(s.dram.retiring.any (fun r => decide (r.page = page))) then
    let c := pageChannel page s
    let used := s.dram.poolUsed.get 0 c
    let fresh := decide (s.dram.remap.get 0 page = 0)
    if 1 < c ∨ 2048 ≤ used ∨ (fresh = true ∧ 4096 ≤ s.dram.remap.length + s.dram.retiring.length) then retireFull s
    else
      onDram (fun d => { d with
        retiring := d.retiring ++ [{ page := page, pool := 2048 * c + used }],
        poolUsed := d.poolUsed.put 0 c (used + 1), pageCorr := d.pageCorr.put 0 page 0 }) s
  else s

/-- The system blocks that lie in a rank. -/
def blocksIn (k : Nat) (s : State) : List Nat :=
  (List.range (rd DRM_CAP_FRAMES 0 s)).filter (fun b => blockLoc b s / 65536 = k)

/-- The declared blocks that lie in a rank. -/
def declaredIn (k : Nat) (s : State) : List Nat := (blocksIn k s).filter (fun b => (regionOf b s).isSome)

/-- An operation begins: its registers. -/
def opBegin (o : DramOp) (total : Nat) (s : State) : State :=
  let s := wr DRM_STAT_MIGRATING 0 1 (onDram (fun d => { d with op := some o }) s)
  let s := wr DRM_MIG_STAT_OP 0 o.kind (wr DRM_MIG_STAT_CH 0 o.ch (wr DRM_MIG_STAT_RANK 0 o.rank s))
  wr DRM_MIG_STAT_DONE 0 0 (wr DRM_MIG_STAT_TOTAL 0 total s)

/-- An operation ends: its registers. -/
def opEnd (done : Nat) (s : State) : State :=
  wr DRM_STAT_MIGRATING 0 0 (wr DRM_MIG_STAT_OP 0 0 (wr DRM_MIG_STAT_DONE 0 done (onDram (fun d => { d with op := none }) s)))

/-- A rank leaves service, and the migration of its blocks begins. -/
def rankOutStart (k : Nat) (s : State) : State :=
  let s := raise 196 (wr DRM_STAT_RANK_OUT 0 (setBitTo (rd DRM_STAT_RANK_OUT 0 s) k true) s)
  let toSpare := rdB DRM_STAT_SPARE_OK 0 s && decide (k ≠ spareRank s)
  let n := if toSpare then (blocksIn k s).length else (declaredIn k s).length
  opBegin { kind := 1, ch := k / 4, rank := k % 4, toSpare := toSpare, byCmd := false } n s

/-- A rank fails (R398, R408): nothing more during a migration; after a vacate or restore that runs. -/
def rankFails (k : Nat) (s : State) : State :=
  if !(rdB DRM_CTL_AUTO_RANK 0 s) ∨ rankIsOut k s ∨ k ∉ servingRanks s then s
  else match s.dram.op with
    | none => rankOutStart k s
    | some o => if o.kind = 1 then s
      else onDram (fun d => { d with rankWait := d.rankWait.filter (· ≠ k) ++ [k] }) s

/-- The accounting of a persistent uncorrectable read of a burst (R398). A burst that lies in no frame has no rank to fail, and the rank
shown for it is free. -/
def dramUe (sb : Nat) (s : State) : State :=
  let loc := (burstLoc sb s).1
  let (k, s) := if lostLoc ≤ loc then drawBelow 8 s else (loc / 65536 % 8, s)
  let s := wr DRM_ERR_ADDR_KIND 0 0 (wr DRM_ERR_ADDR_CH 0 (k / 4) (wr DRM_ERR_ADDR_RANK 0 (k % 4)
    (wr DRM_ERR_ADDR_ADDR 0 (64 * sb) (bump DRM_CNT_UE 0 s))))
  let s := raise 192 (dramRecord 0x10 192 k 0 (64 * sb) 0 s)
  if lostLoc ≤ loc then s else rankFails k s

/-! ### Reads and writes (R397) -/

/-- A write-back falls due. -/
def dramWb (sb : Nat) (v : Burst) (s : State) : State :=
  onDram (fun d => { d with wbs := d.wbs.filter (fun w => w.1 ≠ sb) ++ [(sb, v)] }) s

/-- What a requester receives of a burst. -/
inductive DRead where
  | data (bytes : List Nat)
  | bare
  | bad
deriving DecidableEq, Repr

/-- What a decoded burst gives, with its accounting; `other` is settled by the caller. -/
def dramSettle (sb : Nat) (v : Burst) (s : State) : Option (DRead × State) :=
  match decodeBurst v with
  | .clean => some (.data (dataBytes v), s)
  | .corrected b => some (.data (dataBytes b), pageCorrected (sb / 64) (dramWb sb b (bump DRM_CNT_CORR 0 s)))
  | .bare => some (.bare, bump DRM_CNT2_BARE_READS 0 s)
  | .bareUpset => some (.bare, dramWb sb bareBurst (bump DRM_CNT2_BARE_READS 0 s))
  | .poison => some (.bad, bump DRM_CNT2_POISON_READS 0 s)
  | .other => if regionState (sb / 16384) s = rgUNFILLED then some (.bare, bump DRM_CNT2_UNFILLED_READS 0 s) else none

/-- One read of a burst; `flip` is an upset that the first read meets and the re-read does not. -/
def dramRead (sb : Nat) (flip : Burst) (s : State) : DRead × State :=
  match dramSettle sb (dramRaw sb s ^^^ flip) s with
  | some r => r
  | none => match dramSettle sb (dramRaw sb s) s with
    | some (d, s) => (d, bump DRM_CNT_TRANSIENT 0 s)
    | none => (.bad, dramUe sb s)

/-- A write of a burst meets a running fill: whether the fill has passed it is free. -/
def fillMeets (sb : Nat) (s : State) : State :=
  if regionState (sb / 16384) s = rgFILLING then
    let (b, s) := drawBit s
    if b then onDram (fun d => { d with fillKeep := sb :: d.fillKeep }) (dramPut sb bareBurst s) else s
  else s

/-- A burst is stored, and a pending write-back of it is cancelled. -/
def dramStore (sb : Nat) (v : Burst) (s : State) : State :=
  dramPut sb v (onDram (fun d => { d with wbs := d.wbs.filter (fun w => w.1 ≠ sb) }) (fillMeets sb s))

/-- Bytes are written into one burst from a place on: a whole burst as it is, a part merged with the old burst. The other bytes of an
uncorrectable old burst are free. -/
def dramWriteBurst (sb at_ : Nat) (bytes : List Nat) (s : State) : State :=
  if bytes.length = 64 then dramStore sb (encodeBurst bytes) s
  else
    let (r, s) := dramRead sb 0 s
    let (old, s) : List Nat × State := match r with
      | .data d => (d, s)
      | .bare => ([], s)
      | .bad => let (n, s) := draw s; ((List.range 64).map (fun i => slice n (8 * i) 8), s)
    dramStore sb (encodeBurst ((List.range 64).map (fun i =>
      if at_ ≤ i ∧ i < at_ + bytes.length then bytes.getD (i - at_) 0 else old.getD i 0))) s

/-- Whether the ranks are held in self-refresh: nothing moves then (R404, R546). -/
def dramHeld (s : State) : Bool := rdB DRM_STAT_HELD 0 s

/-- Bytes are written from a system byte address on, burst by burst; while the ranks are held they are lost. -/
def dramWrite (a : Nat) (bytes : List Nat) (s : State) : State :=
  if bytes.isEmpty || dramHeld s then s
  else
    (List.range ((a + bytes.length - 1) / 64 - a / 64 + 1)).foldl (fun s i =>
      let sb := a / 64 + i
      let lo := maxN a (64 * sb)
      let hi := minN (a + bytes.length) (64 * sb + 64)
      dramWriteBurst sb (lo - 64 * sb) ((bytes.drop (lo - a)).take (hi - lo)) s) s

/-- The six bytes of a 48-bit word, least significant first. -/
def six (w : Nat) : List Nat := (List.range 6).map (fun i => slice w (8 * i) 8)

/-- Words are written six bytes each. -/
def dramWriteWords (a : Nat) (ws : List Nat) (s : State) : State := dramWrite a (ws.flatMap six) s

/-- Six bytes are read: none when a burst they lie in is bad, bare when one is bare (R403). -/
def dramReadWord (a : Nat) (s : State) : DRead × State :=
  let sb := a / 64
  let (r, s) := dramRead sb 0 s
  if (a + 5) / 64 = sb then
    match r with
    | .data d => (.data ((d.drop (a % 64)).take 6), s)
    | .bare => (.bare, s)
    | .bad => (.bad, s)
  else
    let (r2, s) := dramRead (sb + 1) 0 s
    match r, r2 with
    | .bad, _ => (.bad, s)
    | _, .bad => (.bad, s)
    | .bare, _ => (.bare, s)
    | _, .bare => (.bare, s)
    | .data d, .data d2 => (.data ((d.drop (a % 64)).take (64 - a % 64) ++ d2.take (6 - (64 - a % 64))), s)

/-- The number that bytes spell, least significant first. -/
def leNum (l : List Nat) : Nat := l.foldr (fun b acc => b % 256 + 256 * acc) 0

/-- DRAM_WRITE_BACK: the oldest pending write-back is made. -/
def execDramWriteBack (s : State) : Res :=
  match s.dram.wbs with
  | [] => .next s
  | w :: _ => .next (if dramHeld s then s else dramStore w.1 w.2 s)

/-! ### Page retirement ends (R398) -/

/-- A copy of a burst as a move or a retirement makes it. -/
def copyBurst (unfilled : Bool) (v : Burst) : Burst :=
  match decodeBurst v with
  | .clean => v
  | .corrected b => b
  | .bare => v
  | .bareUpset => bareBurst
  | .poison => poisonBurst
  | .other => if unfilled then v else poisonBurst

/-- The accounting of the read by which a copy takes a burst: every read has it (R397, R398). -/
def copyRead (sb : Nat) (s : State) : State := (dramRead sb 0 s).2

/-- Whether the block of a page lies in an UNFILLED region. -/
def pageUnfilled (page : Nat) (s : State) : Bool := decide (regionState (page / 256) s = rgUNFILLED)

/-- The retired pages that some channels' pools hold. -/
def pooledPages (cs : List Nat) (s : State) : List Nat := (s.dram.remap.filter (fun e => cs.contains ((e.2 - 1) / 2048))).map (·.1)

/-- A retired page as a copy makes it, with its number. -/
def pageCopy (page : Nat) (s : State) : Nat × List Burst :=
  (page, (List.range 64).map (fun i => copyBurst (pageUnfilled page s) (dramRaw (64 * page + i) s)))

/-- A page's bursts are put where the page now lies. -/
def pagePut (x : Nat × List Burst) (s : State) : State :=
  (x.2.zipIdx).foldl (fun s v => dramPut (64 * x.1 + v.2) v.1 s) s

/-- The reads that copy a page. -/
def pageReads (page : Nat) (s : State) : State := (List.range 64).foldl (fun s i => copyRead (64 * page + i) s) s

/-- PAGE_RETIRE_DONE: the oldest page copy ends, and every later access uses the pool page. -/
def execPageRetireDone (s : State) : Res :=
  match s.dram.retiring with
  | [] => .next s
  | r :: _ =>
    if dramHeld s then .next s else
    let s := pageReads r.page s
    let vs := pageCopy r.page s
    let c := r.pool / 2048
    let s := onDram (fun d => { d with
      retiring := d.retiring.filter (fun x => x.page ≠ r.page), remap := d.remap.put 0 r.page (r.pool + 1) }) s
    let s := pagePut vs s
    let s := wr DRM_RETIRE_USED 0 s.dram.remap.length s
    .next (raise 194 (dramRecord 0x11 194 (4 * c) 0 (4096 * r.page) (r.pool % 2048) s))

/-! ### Moves of blocks (R398, R405, R406) -/

/-- A frame's content as a copy makes it, burst by burst: what nothing has written cannot be corrected, so it is copied as poison. -/
def frameCopy (unfilled : Bool) (f : Frame) : Frame :=
  let base := if f.base = 0 ∧ !unfilled then 2 else f.base
  { base := base, bursts := f.bursts.foldl (fun (m : Smap Burst) e => m.put (baseBurst base) e.1 (copyBurst unfilled e.2)) [] }

/-- The whole content of a block as a move copies it: corrected, with its retired pages. -/
def blockCopy (b : Nat) (s : State) : Frame :=
  let loc := blockLoc b s
  let unf := decide (regionState b s = rgUNFILLED)
  if loc = lostLoc then { base := 2 }
  else if loc = noLoc then {}
  else
    let g := frameCopy unf (frameOf loc s)
    let d := baseBurst g.base
    let pages := (List.range 256).filter (fun p => s.dram.remap.get 0 (256 * b + p) ≠ 0)
    { base := g.base,
      bursts := pages.foldl (fun m p => (List.range 64).foldl (fun m i =>
        m.put d (64 * p + i) (copyBurst unf (dramRaw (16384 * b + 64 * p + i) s))) m) g.bursts }

/-- The accounting of the reads that copy a block: of every burst of it, in order. A block that lies nowhere is not read. -/
def copyCount (b : Nat) (s : State) : State :=
  if lostLoc ≤ blockLoc b s then s else (List.range 16384).foldl (fun s i => copyRead (16384 * b + i) s) s

/-- The retired pages of a block lie in the block again. -/
def dropRemaps (b : Nat) (s : State) : State :=
  let s := onDram (fun d => { d with
    remap := d.remap.filter (fun e => e.1 / 256 ≠ b), retiring := d.retiring.filter (fun r => r.page / 256 ≠ b) }) s
  wr DRM_RETIRE_USED 0 s.dram.remap.length s

/-- A block moves to a frame with its content. -/
def moveBlock (b fk : Nat) (s : State) : State :=
  let f := blockCopy b s
  setFrame fk f (setBlock b fk (dropRemaps b (copyCount b s)))

/-- The frames of ranks that may hold blocks: every mappable frame but a pool's, and none that a declared block uses. -/
def freeFrames (ks : List Nat) (s : State) : List Nat :=
  let used := ((List.range (rd DRM_CAP_FRAMES 0 s)).filter (fun b => (regionOf b s).isSome)).map (fun b => blockLoc b s)
  ks.flatMap (fun k =>
    let top := if (List.range 2).any (fun c => decide (s.dram.poolRank.get 0 c = k)
        && (chState c s = chSERVING || chState c s = chVACATING)) then rankFrames s - 9 else rankFrames s - 1
    ((List.range top).map (frameKey k)).filter (fun fk => !(used.contains fk)))

/-- Declared blocks move to frames in order; a block that finds none is lost. Undeclared blocks whose frames are taken are mapped nowhere. -/
def moveBlocks (bs fs : List Nat) (s : State) : State :=
  let gone := ((List.range (rd DRM_CAP_FRAMES 0 s)).filter (fun b =>
    (regionOf b s).isNone && (fs.take bs.length).contains (blockLoc b s)))
  let s := gone.foldl (fun s b => setBlock b noLoc s) s
  (bs.zipIdx).foldl (fun s x =>
    match fs[x.2]? with
    | some fk => moveBlock x.1 fk s
    | none => setBlock x.1 lostLoc (dropRemaps x.1 s)) s

/-- The retired pages kept in a channel's pool return to their blocks, and the pool ends. -/
def poolEnds (c : Nat) (s : State) : State :=
  let s := (pooledPages [c] s).foldl (fun s p =>
    let s := pageReads p s
    pagePut (pageCopy p s) (onDram (fun d => { d with remap := d.remap.erase p }) s)) s
  wr DRM_RETIRE_USED 0 s.dram.remap.length
    (onDram (fun d => { d with poolUsed := d.poolUsed.put 0 c 2048, retiring := d.retiring.filter (fun r => r.pool / 2048 ≠ c) }) s)

/-- Ranks that failed during an operation are handled now, in the order in which they failed, until one of them starts a migration (R408). -/
def rankWaitGo : List Nat → State → State
  | [], s => onDram (fun d => { d with rankWait := [] }) s
  | k :: t, s =>
    let s := rankFails k s
    if s.dram.op.isSome then onDram (fun d => { d with rankWait := t }) s else rankWaitGo t s

/-- The ranks that wait for the end of an operation are handled once none runs. -/
def rankWaits (s : State) : State := rankWaitGo s.dram.rankWait s

/-- A migration to the spare ends: every block of the rank lies in the same frame of the spare, and the pools of the rank with the retired
pages they hold, those of other ranks' blocks among them. -/
def migrateToSpare (k : Nat) (s : State) : State :=
  let sp := spareRank s
  let bs := blocksIn k s
  let pools := (List.range 2).filter (fun c => decide (s.dram.poolRank.get 0 c = k) && (chState c s = chSERVING))
  let ps := pooledPages pools s
  let s := (ps.filter (fun p => !(bs.contains (p / 256)))).foldl (fun s p => pageReads p s) s
  let vs := ps.map (fun p => pageCopy p s)
  let s := if pools.isEmpty then s else (List.range 8).foldl (fun s i =>
    setFrame (frameKey sp (rankFrames s - 9 + i)) (frameCopy false (frameOf (frameKey k (rankFrames s - 9 + i)) s)) s) s
  let s := bs.foldl (fun s b =>
    let s := copyCount b s
    let loc := blockLoc b s
    let g := frameCopy (decide (regionState b s = rgUNFILLED)) (frameOf loc s)
    setFrame (frameKey sp (loc % 65536)) g (setBlock b (frameKey sp (loc % 65536)) s)) s
  let s := onDram (fun d => { d with poolRank := pools.foldl (fun m c => m.put 0 c sp) d.poolRank }) s
  let s := vs.foldl (fun s x => pagePut x s) s
  let s := opEnd bs.length (wr DRM_STAT_SPARE_OK 0 0 s)
  rankWaits (raise 197 (dramRecord 0x12 197 k 1 bs.length 0 s))

/-- A migration without a spare ends: the declared blocks lie in free frames of serving ranks, or are lost. -/
def migrateSpread (k : Nat) (s : State) : State :=
  let bs := declaredIn k s
  let fs := freeFrames (servingRanks s) s
  let rest := (blocksIn k s).filter (fun b => (regionOf b s).isNone)
  let s := moveBlocks bs fs s
  let s := rest.foldl (fun s b => setBlock b noLoc s) s
  let s := (List.range 2).foldl (fun s c => if s.dram.poolRank.get 0 c = k ∧ chState c s = chSERVING then poolEnds c s else s) s
  let moved := minN bs.length fs.length
  rankWaits (raise 197 (dramRecord 0x12 197 k 0 moved (bs.length - moved) (opEnd moved s)))

/-- RANK_MIGRATE_DONE. -/
def execRankMigrateDone (s : State) : Res :=
  match s.dram.op with
  | none => .next s
  | some o =>
    if o.kind = 1 ∧ !(dramHeld s) then
      .next (if o.toSpare then migrateToSpare (4 * o.ch + o.rank) s else migrateSpread (4 * o.ch + o.rank) s)
    else .next s

/-- A request is refused with a reason. -/
def actRefused (reason : Nat) (s : State) : State := wr DRM_MIG_STAT_REASON 0 reason (wr DRM_MIG_STAT_REFUSED 0 1 s)

/-- The ranks whose frames a vacated channel's blocks may take: the other channel's serving ranks, then its spare. -/
def vacateRanks (c : Nat) (s : State) : List Nat :=
  (servingRanks s).filter (fun k => k / 4 ≠ c)
    ++ (if rdB DRM_STAT_SPARE_OK 0 s && decide (spareRank s / 4 ≠ c) then [spareRank s] else [])

/-- The declared blocks that lie in a channel. -/
def declaredChan (c : Nat) (s : State) : List Nat :=
  (List.range (rd DRM_CAP_FRAMES 0 s)).filter (fun b => (regionOf b s).isSome && decide (blockLoc b s / 65536 / 4 = c))

/-- A request to vacate a channel: the state and the reason of a refusal, 0 for none (R405). -/
def vacateRequest (c : Nat) (byCmd : Bool) (s : State) : State × Nat :=
  let r := if s.dram.op.isSome then 1
    else if chState c s ≠ chSERVING ∨ chState (1 - c) s ≠ chSERVING then 2
    else if (freeFrames (vacateRanks c s) s).length < (declaredChan c s).length then 3 else 0
  if r ≠ 0 then (actRefused r s, r)
  else
    let n := (declaredChan c s).length
    (opBegin { kind := 2, ch := c, rank := 0, toSpare := false, byCmd := byCmd } n (wr (chFld c) 0 chVACATING s), 0)

/-- VACATE_DONE (R405). -/
def execVacateDone (s : State) : Res :=
  match s.dram.op with
  | none => .next s
  | some o =>
    if o.kind ≠ 2 ∨ dramHeld s then .next s
    else
      let c := o.ch
      let bs := declaredChan c s
      let ks := vacateRanks c s
      let s := poolEnds c s
      let s := moveBlocks bs (freeFrames ks s) s
      let rest := (List.range (rd DRM_CAP_FRAMES 0 s)).filter (fun b => decide (blockLoc b s / 65536 / 4 = c))
      let s := rest.foldl (fun s b => setBlock b noLoc s) s
      let spareUsed := (List.range (rd DRM_CAP_FRAMES 0 s)).any (fun b => decide (blockLoc b s / 65536 = spareRank s))
      let s := if spareUsed ∨ spareRank s / 4 = c then wr DRM_STAT_SPARE_OK 0 0 s else s
      let s := opEnd bs.length (wr (chFld c) 0 chVACANT s)
      let s := raise 198 (dramRecord 0x13 198 (4 * c) 0 bs.length 0 s)
      .next (rankWaits (finishCmd 0x30 c 0 0 0 s))

/-- A module of R384. -/
def spdOk (x : Spd) : Bool :=
  x.known && (x.ranks = 1 || x.ranks = 2 || x.ranks = 4) && (x.density = 16 || x.density = 24 || x.density = 32)
    && decide (x.gib = 2 * x.density)

/-- A channel's organisation is filled from what its SPD read gave (R385): zeros where no module answers. -/
def orgFill (c : Nat) (spd : Option Spd) (s : State) : State :=
  match spd with
  | some x => wr DRM_ORG_RANK_GIB c x.gib (wr DRM_ORG_RANKS c x.ranks (wr DRM_ORG_DENSITY c x.density (wr DRM_ORG_TRFC c x.trfc s)))
  | none => wr DRM_ORG_RANK_GIB c 0 (wr DRM_ORG_RANKS c 0 (wr DRM_ORG_DENSITY c 0 (wr DRM_ORG_TRFC c 0 s)))

/-- Whether a module's organisation is that of the other channel. -/
def orgSame (c : Nat) (x : Spd) (s : State) : Bool :=
  spdOk x && decide (x.gib = rd DRM_ORG_RANK_GIB (1 - c) s ∧ x.ranks = rd DRM_ORG_RANKS (1 - c) s
    ∧ x.density = rd DRM_ORG_DENSITY (1 - c) s)

/-- Of blocks that are to go home, those whose home frame no other block keeps: a block that stays away from its own home does. -/
def homeFree (s : State) (l : List Nat) : List Nat :=
  l.filter (fun b => !(s.dram.bmap.any (fun e => !(l.contains e.1) && homeFrame b s = some (e.2 - 1))))

/-- The blocks that a restore of a channel moves: those away from home whose home rank then serves, and whose home frame is free once
they have moved. -/
def restoreBlocks (c : Nat) (s : State) : List Nat :=
  let l := (s.dram.bmap.map (·.1)).filter (fun b => match homeFrame b s with
    | some fk => decide (fk / 65536 / 4 = c) || !(rankIsOut (fk / 65536) s)
    | none => false)
  times l.length (homeFree s) l

/-- A request to restore a channel, whose module's SPD then reads as `spd`: the state and the reason of a refusal, 0 for none (R406). -/
def restoreRequest (c : Nat) (spd : Option Spd) (byCmd : Bool) (s : State) : State × Nat :=
  let same := match spd with
    | some x => orgSame c x s
    | none => false
  let r := if s.dram.op.isSome then 1 else if chState c s ≠ chVACANT then 2 else if same then 0 else 4
  let s := if r = 0 ∨ r = 4 then orgFill c spd (onDram (fun d => { d with spd := d.spd.put none c spd }) s) else s
  if r ≠ 0 then (actRefused r s, r)
  else
    let n := (restoreBlocks c s).length
    (opBegin { kind := 3, ch := c, rank := 0, toSpare := false, byCmd := byCmd } n (wr (chFld c) 0 chRESTORING s), 0)

/-- The data rate that SPEED selects, in MT/s: 11 acts as 00 (R412). -/
def dramRate (s : State) : Nat :=
  if rd DRM_CTL_SPEED 0 s = 1 then 4400 else if rd DRM_CTL_SPEED 0 s = 2 then 4000 else 4800

/-- The refresh interval in cc (R392). -/
def refi (s : State) : Nat := if rdB DRM_REF_HOT 0 s then 1950 else 3900

/-- A channel has been trained with these narrowest eyes (R389): whether it passes. It runs at the rate SPEED then selects (R412), and
its ranks are refreshed from now on. -/
def trainResult (c eyeR eyeW : Nat) (s : State) : Bool × State :=
  let s := onDram (fun d => { d with rate := d.rate.put 0 c (dramRate s) }) s
  let s := wr DRM_TRAIN_EYE_R c eyeR (wr DRM_TRAIN_EYE_W c eyeW (wr DRM_TRAIN_DRIFT c 0 s))
  let s := onDram (fun d => { d with ranks := [0, 1, 2, 3].foldl (fun m r =>
    m.put {} (4 * c + r) { (m.get {} (4 * c + r) : RankRef) with applied := 0, drifted := false, due := s.now + refi s }) d.ranks }) s
  if eyeR < 20 ∨ eyeW < 20 then (false, raise 203 (wr (chFld c) 0 chABSENT (wr DRM_TRAIN_TRAIN_ERR c 1 s))) else (true, s)

/-- The spare is present and unused again when no block lies in it (R386, R406). -/
def spareCheck (s : State) : State :=
  let sp := spareRank s
  let used := s.dram.bmap.any (fun e => decide ((e.2 - 1) / 65536 = sp))
  let up := chState (sp / 4) s = chSERVING
  wrB DRM_STAT_SPARE_OK 0 (s.dram.hasSpare && up && !(rankIsOut sp s) && !used) s

/-- Blocks return home together: each takes its content along, a lost one its poison; one that lay nowhere finds what its home frame
holds. -/
def bringHome (bs : List Nat) (s : State) : State :=
  let s := bs.foldl (fun s b => copyCount b s) s
  let cs := (bs.filter (fun b => decide (blockLoc b s ≠ noLoc))).map (fun b => ((homeFrame b s).getD noLoc, blockCopy b s))
  let s := bs.foldl (fun s b => setBlock b ((homeFrame b s).getD noLoc) (dropRemaps b s)) s
  cs.foldl (fun s x => setFrame x.1 x.2 s) s

/-- RESTORE_DONE (R406): the channel trains with the given narrowest eyes, fills bare, and every block returns home. -/
def execRestoreDone (eyeR eyeW : Fin 65) (s : State) : Res :=
  match s.dram.op with
  | none => .next s
  | some o =>
    if o.kind ≠ 3 ∨ dramHeld s then .next s
    else
      let c := o.ch
      let (ok, s) := trainResult c eyeR eyeW s
      if !ok then .next (rankWaits (finishCmd 0x31 c 0x16 0 0 (opEnd 0 s)))
      else
        let s := wr DRM_STAT_RANK_OUT 0 (Nat.land (rd DRM_STAT_RANK_OUT 0 s) (0xFF - 15 * 2 ^ (4 * c))) s
        let n := rankFrames s
        let fs := (List.range (chanRanks c s * n)).foldl
          (fun (m : Smap Frame) i => m.put {} (frameKey (4 * c + i / n) (i % n)) { base := 1 }) s.dram.frames
        let s := onDram (fun d => { d with frames := fs }) s
        let s := wr (chFld c) 0 chSERVING s
        let bs := restoreBlocks c s
        let s := bringHome bs s
        let s := onDram (fun d => { d with
          poolRank := d.poolRank.put 0 c ((homeRanks c s).headD (4 * c)), poolUsed := d.poolUsed.put 0 c 0 }) s
        let s := opEnd bs.length (spareCheck s)
        .next (rankWaits (finishCmd 0x31 c 0 0 0 (raise 199 (dramRecord 0x14 199 (4 * c) 0 0 0 s))))

/-- A host's request to take a rank out of service: the state and the reason of a refusal, 0 for none (R398). -/
def rankOutRequest (k : Nat) (s : State) : State × Nat :=
  let r := if s.dram.op.isSome then 1 else if k ∈ servingRanks s then 0 else 2
  if r ≠ 0 then (actRefused r s, r) else (rankOutStart k s, 0)

/-- The write of DRM_ACT; `spd` is what a restored channel's module then says. -/
def drmActWrite (org : Origin) (v : Qword) (spd : Option Spd) (s : State) : State :=
  let c := v.toNat % 2
  let (s', r) := match slice v.toNat 2 2 with
    | 1 => vacateRequest c false s
    | 2 => restoreRequest c spd false s
    | 3 => rankOutRequest (4 * c + slice v.toNat 6 2) s
    | _ => (s, 0)
  if r = 0 then s' else requestRefused org (DRM_ACT.off 0) r v s'

/-- A DRM_ACT value with its action replaced. -/
def withAction (v : Qword) (a : Nat) : Qword := BitVec.ofNat 64 (v.toNat - place (slice v.toNat 2 2) 2 2 + place a 2 2)

/-- DRM_ACT_RANK_OUT: a DRM_ACT write with ACTION = 11. -/
def execDrmActRankOut (v : Qword) (s : State) : Res :=
  if s.sys.inReset then .next s else
  .next (drmActWrite .pcie (withAction v 3) none s)

/-- DRM_ACT_VACATE: a DRM_ACT write with ACTION = 01. -/
def execDrmActVacate (v : Qword) (s : State) : Res :=
  if s.sys.inReset then .next s else
  .next (drmActWrite .pcie (withAction v 1) none s)

/-- The SPD as an operand: none for an absent module. -/
def spdOf (present known : Bool) (ranks : Fin 8) (density : Fin 64) (gib : Fin 256) (trfc : Fin 65536) : Option Spd :=
  if present then some { known := known, gib := gib, ranks := ranks, density := density, trfc := trfc } else none

/-- DRM_ACT_RESTORE: a DRM_ACT write with ACTION = 10, and the SPD then read. -/
def execDrmActRestore (v : Qword) (present known : Bool) (ranks : Fin 8) (density : Fin 64) (gib : Fin 256) (trfc : Fin 65536)
    (s : State) : Res :=
  if s.sys.inReset then .next s else
  .next (drmActWrite .pcie (withAction v 2) (spdOf present known ranks density gib trfc) s)

/-! ### Population and fill at bring-up (R385, R386, R401) -/

/-- An absent channel is logged (R385); its organisation shows what the read gave. -/
def channelAbsent (c : Nat) (spd : Option Spd) (s : State) : State :=
  violate blkDRM 0x0F .device 0 0 0 (orgFill c spd (wr (chFld c) 0 chABSENT s))

/-- The modules are read at bring-up: organisations and channel states (R385). -/
def dramPopulate (a b : Option Spd) (s : State) : State :=
  let s := onDram (fun d => { d with spd := (d.spd.put none 0 a).put none 1 b }) s
  let okA := match a with
    | some x => spdOk x
    | none => false
  let okB := match a, b with
    | some x, some y => spdOk y && decide (x.gib = y.gib ∧ x.ranks = y.ranks ∧ x.density = y.density)
        && decide (x.gib * x.ranks + y.gib * y.ranks ≤ 256)
    | none, some y => spdOk y
    | _, none => false
  let s := if okA then wr (chFld 0) 0 chSERVING (orgFill 0 a s) else channelAbsent 0 a s
  if okB then wr (chFld 1) 0 chSERVING (orgFill 1 b s) else channelAbsent 1 b s

/-- The home placement and the spare of the channels that serve after training (R386 to R388). A block map that a reset has kept goes on
saying where each block lies, also where the placement is another than before. -/
def placeHome (s : State) : State :=
  let ra := if chState 0 s = chSERVING then rd DRM_ORG_RANKS 0 s else 0
  let rb := if chState 1 s = chSERVING then rd DRM_ORG_RANKS 1 s else 0
  let spc := if rb < ra then 0 else 1
  let spr := (if spc = 0 then ra else rb) - 1
  let gib := rd DRM_ORG_RANK_GIB (if ra = 0 then 1 else 0) s
  let t := onDram (fun d => { d with
    homeRk := (Smap.put 0 [] 0 ra).put 0 1 rb, gib := gib, hasSpare := decide (1 < ra + rb), spare := 4 * spc + spr }) s
  let t := wr DRM_STAT_SPARE_CH 0 spc (wr DRM_STAT_SPARE_RANK 0 spr t)
  let cap := homeSize 0 s + homeSize 1 s
  let now := homeSize 0 t + homeSize 1 t
  let t := if s.dram.homeRk = [] ∨ (List.range (minN cap now)).all (fun b => decide (homeFrame b s = homeFrame b t)) then t
    else (List.range (minN cap now)).foldl (fun t b => setBlock b (blockLoc b s) t) (onDram (fun d => { d with bmap := [] }) t)
  let t := if t.dram.poolRank = [] then
      onDram (fun d => { d with poolRank := (d.poolRank.put 0 0 ((homeRanks 0 t).headD 0)).put 0 1 ((homeRanks 1 t).headD 4) }) t
    else t
  wr DRM_CAP_FRAMES 0 now (spareCheck t)

/-- Every block of a region holds the bare burst, but for bursts that a running fill has passed and that were written since. -/
def fillRegion (r : Nat) (s : State) : State :=
  let lo := rd DRM_REGION_BASE r s
  let n := rd DRM_REGION_LIMIT r s + 1 - lo
  let kept := (s.dram.fillKeep.filter (fun sb => decide (lo ≤ sb / 16384 ∧ sb / 16384 < lo + n))).map (fun sb => (sb, dramRaw sb s))
  let s := (List.range n).foldl (fun s i =>
    let b := lo + i
    let pages := (s.dram.remap.filter (fun e => e.1 / 256 = b)).map (·.1)
    let s := pages.foldl (fun s p => (List.range 64).foldl (fun s j => dramPut (64 * p + j) bareBurst s) s) s
    if lostLoc ≤ blockLoc b s then s else setFrame (blockLoc b s) { base := 1 } s) s
  let s := onDram (fun d => { d with
    fillKeep := [], wbs := d.wbs.filter (fun w => !(decide (lo ≤ w.1 / 16384 ∧ w.1 / 16384 < lo + n))) }) s
  wr DRM_REGION_CTL_STATE r rgFILLED (kept.foldl (fun s x => dramPut x.1 x.2 s) s)

/-- The fill of bring-up (R401): after a HOLD the regions with KEEP keep their contents. -/
def bringupFill (afterHold : Bool) (s : State) : State :=
  (List.range 8).foldl (fun s r =>
    if !(rdB DRM_REGION_CTL_EN r s) then s
    else if afterHold && rdB DRM_REGION_CTL_KEEP r s then s
    else if rdB DRM_REGION_CTL_FILL r s then fillRegion r s
    else wr DRM_REGION_CTL_STATE r rgUNFILLED s) s

/-! ### Replay windows (R393 to R395) -/

/-- The bytes of a slot of a window (R394). -/
def slotBytes (cells : Nat) : Nat := 192 * ((6 * (4 + cells) + 191) / 192)

/-- The first byte of a window's slot for a pick. -/
def slotAddr (w n : Nat) (s : State) : Nat :=
  rd DRM_RPL_RING_BASE w s * 4096 + n % maxN 1 (rd DRM_RPL_RING_DEPTH w s) * slotBytes (rd DRM_RPL_CELLS w s)

/-- Whether a window's settings are valid with the windows enabled beside it (R393). -/
def rplValid (w : Nat) (s : State) : Bool :=
  let cells := rd DRM_RPL_CELLS w s
  let depth := rd DRM_RPL_RING_DEPTH w s
  let sum := sumN ((List.range 4).map (fun x => if x = w ∨ rdB DRM_RPL_EN x s then rd DRM_RPL_CELLS x s else 0))
  let base := rd DRM_RPL_RING_BASE w s * 4096
  let size := depth * slotBytes cells
  decide (1 ≤ cells ∧ cells ≤ 262144 ∧ 1 ≤ depth ∧ depth ≤ 1048576)
    && decide (rd DRM_RPL_FIRST w s + cells ≤ rd GAU_SPAN_CELLS (rd DRM_RPL_PORT w s) s)
    && decide (sum ≤ 1048576 ∧ sum ≤ 8 * periodOf s)
    && (List.range 8).any (fun r => regionHas r (base / 2 ^ 20) s && regionHas r ((base + size - 1) / 2 ^ 20) s)

/-- A committed period: windows that fail the check are disabled (R393). -/
def rplPeriodCheck (s : State) : State :=
  (List.range 4).foldl (fun s w =>
    if rdB DRM_RPL_EN w s && !(rplValid w s) then violate blkDRM 0x0F .device 0 0 0 (wr DRM_RPL_EN w 0 s) else s) s

/-- The write of DRM_RPL (R393, R577): while EN is 1 only EN may change. -/
def drmRplWrite (org : Origin) (w : Nat) (v : Qword) (s : State) : State :=
  let en := DRM_RPL_EN.ofQ v = 1
  let others := [DRM_RPL_PORT, DRM_RPL_CELLS, DRM_RPL_FIRST]
  if rdB DRM_RPL_EN w s then
    let s := if others.all (fun f => decide (f.ofQ v = rd f w s)) then s else writeIgnored org (DRM_RPL.off w) v s
    if en then s else wr DRM_RPL_EN w 0 s
  else
    let s := others.foldl (fun s f => wr f w (f.ofQ v) s) s
    let s := wr DRM_RPL_STAT_SLOT_BYTES w (slotBytes (rd DRM_RPL_CELLS w s)) s
    if en then
      if rplValid w s then wr DRM_RPL_EN w 1 (onDram (fun d => { d with
        rplLost := d.rplLost.put none w none, rplPick := d.rplPick.put none w none }) s)
      else writeIgnored org (DRM_RPL.off w) v s
    else s

/-- The write of DRM_RPL_RING (R393). -/
def drmRplRingWrite (org : Origin) (w : Nat) (v : Qword) (s : State) : State :=
  if rdB DRM_RPL_EN w s then writeIgnored org (DRM_RPL_RING.off w) v s else regWrite DRM_RPL_RING w v s

/-- DRM_RPL_WRITE. -/
def execDrmRplWrite (w : Fin 4) (v : Qword) (s : State) : Res :=
  .next (if s.sys.inReset then s else drmRplWrite .pcie w v s)

/-- The writer stores words of a slot, unless they fall outside the declared regions: then one violation a pick (R400). -/
def rplPut (w n a : Nat) (ws : List Nat) (s : State) : State :=
  if insideRegions a (6 * ws.length) s then dramWriteWords a ws s
  else if s.dram.rplOut.get none w = some n then s
  else violate blkDRM 0x0F .device 0 0 0 (onDram (fun d => { d with rplOut := d.rplOut.put none w (some n) }) s)

/-- The header of a window's slot (R394). -/
def rplHeader (w n hi lo line kind : Nat) (gap : Option Nat) (s : State) : State :=
  let cells := rd DRM_RPL_CELLS w s
  rplPut w n (slotAddr w n s) [n, hi, lo, place line 45 3 + place kind 43 2 + place (b2n gap.isSome) 42 1
    + place (gap.getD cells) 23 19] s

/-- Headers of a pick that is not a phase pick of the window's port (KIND 01), or that was dropped (KIND 10). -/
def rplNoPhase (n kind : Nat) (phase : Nat → Bool) (s : State) : State :=
  (List.range 4).foldl (fun s w =>
    let p := rd DRM_RPL_PORT w s
    if rdB DRM_RPL_EN w s && !(phase p) then rplHeader w n 0 0 (lineOf p s) kind none s else s) s

/-- A window begins with a pick. -/
def rplPickStart (w n : Nat) (s : State) : State :=
  if s.dram.rplPick.get none w = some n then s
  else onDram (fun d => { d with rplPick := d.rplPick.put none w (some n), rplLost := d.rplLost.put none w none }) s

/-- The elastic buffer is written out, in order (R395). -/
def rplDrain (s : State) : State :=
  s.dram.rplBuf.foldl (fun s v => rplPut v.win v.pick v.addr [v.value] s) (onDram (fun d => { d with rplBuf := [] }) s)

/-- A value enters the elastic buffer of 64 KiB; BUF_PEAK counts begun KiB (R395, R414). -/
def rplEnter (x : RplVal) (s : State) : State :=
  let s := onDram (fun d => { d with rplBuf := d.rplBuf ++ [x] }) s
  wr DRM_REF_BUF_PEAK 0 (maxN ((6 * s.dram.rplBuf.length + 1023) / 1024) (rd DRM_REF_BUF_PEAK 0 s)) s

/-- Whether the elastic buffer cannot take another value. -/
def rplFull (s : State) : Bool := decide (65536 < 6 * (s.dram.rplBuf.length + 1))

/-- A value that finds the elastic buffer full is lost, with the rest of its window's pick (R395). -/
def rplGap (w n o : Nat) (s : State) : State :=
  raise 200 (eventRecord 0x15 200 w n o 0
    (bump DRM_RPL_STAT_GAPS w (onDram (fun d => { d with rplLost := d.rplLost.put none w (some o) }) s)))

/-- A cell's value reaches the windows that cover it (R394, R395). Unless the writer is held up (by a forced refresh, or behind other
traffic) the elastic buffer is written out before and after it. -/
def rplCell (p j n value : Nat) (stalled : Bool) (s : State) : State :=
  let s := if stalled then s else rplDrain s
  let s := (List.range 4).foldl (fun s w =>
    let first := rd DRM_RPL_FIRST w s
    if rdB DRM_RPL_EN w s && decide (rd DRM_RPL_PORT w s = p ∧ first ≤ j ∧ j < first + rd DRM_RPL_CELLS w s) then
      let s := rplPickStart w n s
      let o := j - first
      if (s.dram.rplLost.get none w).isSome then s
      else if rplFull s then rplGap w n o s
      else rplEnter { win := w, pick := n, addr := slotAddr w n s + 6 * (4 + o), value := value } s
    else s) s
  if stalled then s else rplDrain s

/-- The values of a port's phase pick have passed: the headers of its windows are written, behind every value (R394). -/
def rplPickEnd (p n hi lo line : Nat) (s : State) : State :=
  (List.range 4).foldl (fun s w =>
    if rdB DRM_RPL_EN w s && decide (rd DRM_RPL_PORT w s = p) then
      let s := rplPickStart w n s
      rplHeader w n hi lo line 0 (s.dram.rplLost.get none w) s
    else s) (rplDrain s)

/-! ### Region registers and fills (R400, R401) -/

/-- The write of DRM_REGION: BASE and LIMIT change only while EN is 0 (R416, R577). -/
def drmRegionWrite (org : Origin) (r : Nat) (v : Qword) (s : State) : State :=
  guardedWrite org DRM_REGION r (if rdB DRM_REGION_CTL_EN r s then DRM_REGION.fields else []) v s

/-- Whether a region may be declared: below DRM_CAP, and apart from the other enabled regions. -/
def regionOk (r : Nat) (s : State) : Bool :=
  let lo := rd DRM_REGION_BASE r s
  let hi := rd DRM_REGION_LIMIT r s
  decide (lo ≤ hi ∧ hi < rd DRM_CAP_FRAMES 0 s)
    && (List.range 8).all (fun q => q = r || !(rdB DRM_REGION_CTL_EN q s)
      || !(meets lo hi (rd DRM_REGION_BASE q s) (rd DRM_REGION_LIMIT q s)))

/-- Whether a region holds the spectral records or an enabled replay ring. -/
def regionInUse (r : Nat) (s : State) : Bool :=
  let lo := rd DRM_REGION_BASE r s
  let hi := rd DRM_REGION_LIMIT r s
  let recs := (List.range 128).any (fun j =>
    let x := spcLine j s
    let a := rd SPC_REC_BASE_REC_BASE 0 s * 4096 + 384 * (x.baseS - 0x400000)
    decide (x.cellsS ≠ 0) && meets lo hi (a / 2 ^ 20) ((a + 384 * x.cellsS - 1) / 2 ^ 20))
  recs || (List.range 4).any (fun w => rdB DRM_RPL_EN w s
    && (let base := rd DRM_RPL_RING_BASE w s * 4096
        meets lo hi (base / 2 ^ 20) ((base + rd DRM_RPL_RING_DEPTH w s * slotBytes (rd DRM_RPL_CELLS w s) - 1) / 2 ^ 20)))

/-- The write of DRM_REGION_CTL (R400, R401). -/
def drmRegionCtlWrite (org : Origin) (r : Nat) (v : Qword) (s : State) : State :=
  let was := rdB DRM_REGION_CTL_EN r s
  let en := DRM_REGION_CTL_EN.ofQ v = 1
  let s := wr DRM_REGION_CTL_FILL r (DRM_REGION_CTL_FILL.ofQ v) (wr DRM_REGION_CTL_KEEP r (DRM_REGION_CTL_KEEP.ofQ v) s)
  let s := if en ∧ !was then
      if regionOk r s then wr DRM_REGION_CTL_STATE r rgUNFILLED (wr DRM_REGION_CTL_EN r 1 s)
      else writeIgnored org (DRM_REGION_CTL.off r) v s
    else if !en ∧ was then
      if rd DRM_REGION_CTL_STATE r s = rgFILLING then writeIgnored org (DRM_REGION_CTL.off r) v s
      else wr DRM_REGION_CTL_STATE r rgUNDECLARED (wr DRM_REGION_CTL_EN r 0 s)
    else s
  if DRM_REGION_CTL_FILL_GO.ofQ v = 1 then
    if rdB DRM_STAT_FILL_BUSY 0 s ∨ (weaving s ∧ regionInUse r s) ∨ s.dram.op.isSome ∨ !(rdB DRM_REGION_CTL_EN r s) then
      requestRefused org (DRM_REGION_CTL.off r) 0 v s
    else wr DRM_REGION_CTL_STATE r rgFILLING (wr DRM_STAT_FILL_BUSY 0 1 s)
  else s

/-- REGION_FILL_GO: a DRM_REGION_CTL write with FILL_GO = 1. -/
def execRegionFillGo (r : Fin 8) (v : Qword) (s : State) : Res :=
  .next (if s.sys.inReset then s else drmRegionCtlWrite .pcie r (v ||| 8#64) s)

/-- REGION_FILL_DONE: the running fill ends (R401). -/
def execRegionFillDone (s : State) : Res :=
  match (List.range 8).find? (fun r => decide (rd DRM_REGION_CTL_STATE r s = rgFILLING)) with
  | none => .next s
  | some r => .next (if dramHeld s then s else raise 202 (wr DRM_STAT_FILL_BUSY 0 0 (fillRegion r s)))

/-! ### Patrol scrub (R399) -/

/-- The bursts of FILLED regions in the order of a patrol pass: the `i`-th. -/
def patrolBurst (i : Nat) (s : State) : Option Nat :=
  ((List.range 8).foldl (fun (acc : Nat × Option Nat) r =>
    match acc.2 with
    | some x => (acc.1, some x)
    | none =>
      if rdB DRM_REGION_CTL_EN r s ∧ rd DRM_REGION_CTL_STATE r s = rgFILLED then
        let n := (rd DRM_REGION_LIMIT r s + 1 - rd DRM_REGION_BASE r s) * 16384
        if acc.1 < n then (acc.1, some (rd DRM_REGION_BASE r s * 16384 + acc.1)) else (acc.1 - n, none)
      else acc) (i, none)).2

/-- How many bursts a patrol pass reads. -/
def patrolTotal (s : State) : Nat :=
  sumN ((List.range 8).map (fun r => if rdB DRM_REGION_CTL_EN r s ∧ rd DRM_REGION_CTL_STATE r s = rgFILLED then
    (rd DRM_REGION_LIMIT r s + 1 - rd DRM_REGION_BASE r s) * 16384 else 0))

/-- The length of a patrol pass in cc: SCRUB_H hours, 0 acting as 1 (R399, R412). -/
def scrubTime (s : State) : Nat := 3600000000000 * maxN 1 (rd DRM_CTL_SCRUB_H 0 s)

/-- A patrol pass ends (R399); the next begins one pass length after this one began. -/
def patrolEnd (s : State) : State :=
  raise 204 (onDram (fun d => { d with patrol := 0, pageCorr := [], patrolAt := d.patrolAt + scrubTime s }) s)

/-- PATROL_SCRUB_READ: the patrol reads its next burst, the reads of a pass spread evenly over its length. `upset` is what has changed in
the stored burst, `flip` what only this read meets. A pass whose rest is no longer FILLED is over. -/
def execPatrolScrubRead (upset flip : BitVec 640) (s : State) : Res :=
  if !(rdB DRM_CTL_SCRUB_EN 0 s) ∨ rdB DRM_STAT_HELD 0 s then .next s
  else match patrolBurst s.dram.patrol s with
    | none => .next (if s.dram.patrol = 0 then s else patrolEnd s)
    | some sb =>
      let i := s.dram.patrol
      let s := advanceTo (s.dram.patrolAt + i * scrubTime s / patrolTotal s) s
      let s := if i = 0 then onDram (fun d => { d with patrolAt := s.now }) s else s
      let s := dramPut sb (dramRaw sb s ^^^ upset) s
      let s := onDram (fun d => { d with patrol := i + 1 }) (dramRead sb flip s).2
      .next (if (patrolBurst (i + 1) s).isNone then patrolEnd s else s)

/-! ### Refresh and drift (R390, R392) -/

/-- A rank's refresh state. -/
def rankRef (k : Nat) (s : State) : RankRef := s.dram.ranks.get {} k

/-- A rank's refresh state is replaced. -/
def setRankRef (k : Nat) (x : RankRef) (s : State) : State := onDram (fun d => { d with ranks := d.ranks.put {} k x }) s

/-- The oscillator of a rank is run (R390): its drift since training is given as steps of 1/64 UI, and every delay moves by at most 2. -/
def driftUpdate (k : Nat) (drift : Int) (s : State) : State :=
  let x := rankRef k s
  let move := clampZ (-2) 2 (drift - x.applied)
  let s := if move = 0 then s else bump DRM_TRAIN_ADJUSTS (k / 4) s
  let old := rdZ DRM_TRAIN_DRIFT (k / 4) s
  let s := if old.natAbs < drift.natAbs then wrZ DRM_TRAIN_DRIFT (k / 4) drift s else s
  let far := decide (12 < drift.natAbs) && !x.drifted
  let s := setRankRef k { x with applied := x.applied + move, drifted := x.drifted || far } s
  if far then raise 201 s else s

/-- Refreshes of a rank are issued; every 256th measures the drift (R390). -/
def refreshIssue (k n : Nat) (drift : Int) (s : State) : State :=
  let x := rankRef k s
  let run := decide (x.count / 256 < (x.count + n) / 256)
  let s := setRankRef k { x with owed := 0, count := x.count + n } s
  if run then driftUpdate k drift s else s

/-- Whether a rank is refreshed by the controller. -/
def rankLive (k : Nat) (s : State) : Bool :=
  decide (k % 4 < chanRanks (k / 4) s) && !(rdB DRM_STAT_HELD 0 s)
    && (chState (k / 4) s = chSERVING || chState (k / 4) s = chVACATING || chState (k / 4) s = chRESTORING)

/-- Whether the replay writer has data queued for a rank (R392). -/
def rplQueued (k : Nat) (s : State) : Bool := s.dram.rplBuf.any (fun v => decide ((burstLoc (v.addr / 64) s).1 / 65536 = k))

/-- REFRESH_DUE: one interval after the one before, it is issued, or postponed while the replay writer has data queued for the rank, or
forced (R392). Unless the writer is held up its buffer is written out first. -/
def execRefreshDue (k : Fin 8) (stalled : Bool) (drift : BitVec 16) (s : State) : Res :=
  if !(rankLive k s) then .next s
  else
    let x := rankRef k s
    let s := setRankRef k { x with due := x.due + refi s } (advanceTo x.due s)
    let s := if stalled then s else rplDrain s
    let x := rankRef k s
    if rplQueued k s then
      if x.owed < 4 then .next (bump DRM_REF_POSTPONES 0 (setRankRef k { x with owed := x.owed + 1 } s))
      else .next (refreshIssue k 5 drift.toInt (bump DRM_REF_FORCED 0 s))
    else .next (refreshIssue k (x.owed + 1) drift.toInt s)

/-- OWED_REFRESH: the writer's data has been written, and the owed refreshes are issued at once (R392). -/
def execOwedRefresh (k : Fin 8) (drift : BitVec 16) (s : State) : Res :=
  if rankLive k s && decide ((rankRef k s).owed ≠ 0) then
    .next (refreshIssue k (rankRef k s).owed drift.toInt (rplDrain s))
  else .next s

/-- MR4_POLL: every 16 ms, the ranks that ask for twice the rate, by 4 × channel + rank (R392). -/
def execMr4Poll (hot : BitVec 8) (s : State) : Res :=
  let asks := fun (k : Nat) => rankLive k s && bitOf hot.toNat k
  let t := if (List.range 8).any (fun k => rankLive k s) then
      onDram (fun d => { d with pollDue := d.pollDue + 16000000 }) (advanceTo s.dram.pollDue s)
    else s
  let t := (List.range 8).foldl (fun t k => setRankRef k { rankRef k t with hot := asks k } t) t
  .next (wrB DRM_REF_HOT 0 ((List.range 8).any asks) t)

/-- PARITY_ALERT: a retry; `again` says that the alert answers a retry of the same command (R398). -/
def execParityAlert (k : Fin 8) (again : Bool) (s : State) : Res :=
  let x := rankRef k s
  let n := if again then x.parFails + 1 else 0
  let s := raise 193 (bump DRM_CNT_PAR_RETRY 0 s)
  if n < 4 then .next (setRankRef k { x with parFails := n } s)
  else
    let s := setRankRef k { x with parFails := 0 } s
    let (a, s) := draw s
    let s := wr DRM_ERR_ADDR_KIND 0 1 (wr DRM_ERR_ADDR_CH 0 (k.val / 4) (wr DRM_ERR_ADDR_RANK 0 (k.val % 4)
      (wr DRM_ERR_ADDR_ADDR 0 (a % 2 ^ 32 * 64) s)))
    .next (rankFails k s)

/-! ### The mover (R402, R403, R415) -/

/-- The queue acted on of a mover queue. -/
def moveQueue (i : Nat) (s : State) : Nat := maxN 64 (rd (if i = 0 then DRM_MOVE_Q0 else DRM_MOVE_Q1) 0 s)

/-- Whether an item is an item 0 by its marker. -/
def moveMarker (d : Nat) : Bool := slice d 17 6 = 0x2A

/-- The data of the item that stands first in a queue, which stays there. -/
def headItem (q : Nat) (s : State) : Option Nat := ((popGo (queueOf q s).items []).got).map (fun r => r.2.data)

/-- Items without the marker are discarded from a queue that follows a refused request. -/
def moveSkip (q : Nat) : Nat → State → State
  | 0, s => s
  | n + 1, s =>
    match headItem q s with
    | none => s
    | some d => if moveMarker d then s else moveSkip q n (popItem q s).2

/-- The mover's reply item, at the priority of the device's own pushes (R369). -/
def moveReply (reply tag status poisoned : Nat) (s : State) : State :=
  if reply < 64 then s else pushItems reply 8 [place tag 32 16 + place status 29 3 + place poisoned 0 29] s

/-- A request is refused (R403); its reply waits for room like any other. -/
def moveRefused (q : Nat) (d0 : Nat) (s : State) : State :=
  let s := onDram (fun d => { d with skip := d.skip.filter (· ≠ q) ++ [q] }) s
  let s := violate blkDRM 0x0F .device 0 0 0 (bump DRM_MOVE_REFUSED 0 s)
  let reply := slice d0 39 8
  let tag := slice d0 23 16
  if 64 ≤ reply ∧ qRoom reply s = 0 then
    let m : Move := { dir := false, reply := reply, tag := tag, len := 0, addr := 0, word := 0, refused := true }
    wr DRM_STAT_MOVE_BUSY 0 1 (onDram (fun d => { d with move := some m }) s)
  else moveReply reply tag 2 0 s

/-- Whether a mover range of SDRAM is allowed: declared, not being filled, no lost block. -/
def moveAllowed (a n : Nat) (s : State) : Bool :=
  insideRegions a n s && (blocksOf a n).all (fun b => decide (regionState b s ≠ rgFILLING ∧ blockLoc b s < lostLoc))

/-- The mover takes a request whose item 0 it holds. -/
def moveTake (q d0 : Nat) (s : State) : State :=
  let (r1, s) := popItem q s
  let (r2, s) := popItem q s
  match r1, r2 with
  | some (_, d1), some (_, d2) =>
    let len := d0 % 2 ^ 17 + 1
    let a := d1 % 2 ^ 38
    let w := d2 % 2 ^ 25
    if moveAllowed a (6 * len) s && decide (0x1600000 ≤ w ∧ w + len ≤ 0x1800000 ∧ d1 < 2 ^ 38 ∧ d2 < 2 ^ 25) then
      let m : Move := { dir := bitOf d0 47, reply := slice d0 39 8, tag := slice d0 23 16, len := len, addr := a, word := w }
      wr DRM_STAT_MOVE_BUSY 0 1 (onDram (fun d => { d with move := some m, skip := d.skip.filter (· ≠ q) }) s)
    else moveRefused q d0 s
  | _, _ => moveRefused q d0 s

/-- The mover turns to one of its queues: whether it found the three items of a request there. -/
def moveFrom (i : Nat) (s : State) : Bool × State :=
  let q := moveQueue i s
  let s := if q ∈ s.dram.skip then moveSkip q (qCount q s) s else s
  if qCount q s < 3 then (false, s)
  else
    let r := popItem q s
    match r.1 with
    | none => (false, r.2)
    | some (_, d0) =>
      let s := onDram (fun d => { d with turn := decide (i = 0) }) r.2
      (true, if moveMarker d0 then moveTake q d0 s else moveRefused q d0 s)

/-- MOVE_REQUEST: the mover takes the next request, from its queues alternately. -/
def execMoveRequest (s : State) : Res :=
  if s.dram.move.isSome ∨ rdB DRM_STAT_HELD 0 s then .next s
  else
    let i := if s.dram.turn then 1 else 0
    let r := moveFrom i s
    .next (if r.1 then r.2 else (moveFrom (1 - i) r.2).2)

/-- One word of a move into the Warp store: whether it was poisoned. -/
def moveIn (a w : Nat) (s : State) : Bool × State :=
  let (r, s) := dramReadWord a s
  match r with
  | .data d => (false, warpWrite w (leNum d) s)
  | .bare => (false, warpStore w bareWord s)
  | .bad => (true, warpStore w (BitVec.ofNat 56 (0x03 * 2 ^ 48)) s)

/-- One word of a move into SDRAM: a bare word is six zero bytes. Which requester a Warp error names is free. -/
def moveOut (a w : Nat) (s : State) : State :=
  let (k, s) := drawBelow 6 s
  let (r, s) := warpRead (reqOther k) w s
  dramWrite a (six r.data) s

/-- MOVE_DONE: the request ends and its reply is pushed, once the reply queue has room; a refused one has only its reply left. -/
def execMoveDone (s : State) : Res :=
  match s.dram.move with
  | none => .next s
  | some m =>
    if 64 ≤ m.reply ∧ qRoom m.reply s = 0 then .next s
    else if m.refused then
      .next (moveReply m.reply m.tag 2 0 (wr DRM_STAT_MOVE_BUSY 0 0 (onDram (fun d => { d with move := none }) s)))
    else
      let r := (List.range m.len).foldl (fun (acc : Nat × State) i =>
        if m.dir then (acc.1, moveOut (m.addr + 6 * i) (m.word + i) acc.2)
        else
          let x := moveIn (m.addr + 6 * i) (m.word + i) acc.2
          (acc.1 + b2n x.1, x.2)) (0, s)
      let s := bump DRM_MOVE_REQUESTS 0 (wr DRM_STAT_MOVE_BUSY 0 0 (onDram (fun d => { d with move := none }) r.2))
      .next (moveReply m.reply m.tag (if r.1 = 0 then 0 else 1) r.1 s)

end Sys2Proof.Machine
end

