-- ==== Sys2Proof/Machine/Picks.lean ====
section
/-!
DEFINITION. Picks (chapter 01): the decision of R23, what a tick does on every port, dropped picks and completed ones.
-/

set_option autoImplicit false

namespace Sys2Proof.Machine

/-! ### The decision (R16 to R24) -/

/-- The first sample-clock edge 32 sc or more after a completion at a core cycle (R22). -/
def afterComplete (t : Nat) : Nat := (t + 64 + 1) / 2

/-- The edge at which the completions of every ticked pick but the latest allow a launch; none while one of them is incomplete (R22). -/
def readyByPicks (base : Nat) : List PickCtx → Option Nat
  | [] => some base
  | [_] => some base
  | x :: y :: t =>
    match x.complete with
    | some c => readyByPicks (maxN base (afterComplete c)) (y :: t)
    | none => none

/-- S_max for the next pick: the longest shed that the last tick launched, of the ports that are not blanked now (R17, R27). -/
def lastSmax (s : State) : Nat := maxL ((s.trd.lastSheds.filter (fun x => !(isBlanked x.1 s))).map (·.2))

/-- What R23 forms for the pick that waits for its decision, in sample clocks. -/
structure PickPlan where
  nominal : Nat
  floor : Nat
  ref : Nat
  ready : Option Nat
  limit : Nat

/-- The plan of the waiting pick: its program has ended, and no alignment is waited for (R23, R226). -/
def pickPlan (s : State) : Option PickPlan :=
  match s.trd.progEnd with
  | none => none
  | some e =>
    if weaving s && s.trd.weaving && !s.trd.running && s.trd.ppsWait.isNone then
      let nominal := nominalOf s.trd.pickN s
      let floor := lastSmax s + selvOf s
      some { nominal := nominal, floor := floor,
             ref := match s.trd.lastTick with
               | none => nominal
               | some t => maxN nominal (t + floor),
             ready := (readyByPicks s.trd.doneBase s.trd.picks).map (fun r => maxN r ((e + 1) / 2)),
             limit := nominal + stretchOf s }
    else none

/-- The candidate time of a plan, once its readiness is known. -/
def PickPlan.cand (x : PickPlan) : Option Nat := x.ready.map (fun r => maxN x.ref r)

/-- The causes of R24. -/
def causeON_GRID : Nat := 0
def causeSTRETCHED : Nat := 1
def causeCATCHUP : Nat := 2
def causeDROPPED : Nat := 3

/-- The cause of a tick at `cand`: the first matching row of R24. -/
def pickCause (x : PickPlan) (cand : Nat) : Nat :=
  if cand = x.nominal then causeON_GRID
  else if x.ready = some cand then causeSTRETCHED else causeCATCHUP

/-! ### Spectral geometry and settling (R179, R181) -/

/-- Whether a line's spectral geometry is valid (R181). R181 does not exclude a CELLS_S beyond R180's range: it is taken as valid (DESIGN
CHOICE, log entry 106). -/
def spcGeomOk (j : Nat) (s : State) : Bool :=
  let x := spcLine j s
  decide (1 ≤ x.cellsS ∧ 2 ≤ x.kS ∧ x.kS ≤ 64 ∧ 64 ≤ x.sc ∧ x.sc ≤ 4096 ∧ 1 ≤ x.accum ∧ x.accum ≤ 65535
    ∧ x.baseS + x.cellsS - 1 ≤ 0x1F7FFFF)
  && (List.range 128).all (fun i =>
    let y := spcLine i s
    i = j || y.cellsS = 0 || decide (x.baseS + x.cellsS ≤ y.baseS ∨ y.baseS + y.cellsS ≤ x.baseS))

/-- The stripes of a line (R180). -/
def spcStripes (x : SpcLine) : Nat := (x.cellsS + x.sc - 1) / x.sc

/-- LO_SETTLE as acted on, in 1/256 ns (R197). -/
def loSettle (s : State) : Nat := minN 10000 (rd SPC_CTL_LO_SETTLE 0 s) * 256000

/-- Whether the LO entry named for a pick is settled for a launch at a raw time (R179). -/
def loSettled (launchRaw : Nat) (s : State) : Bool :=
  match s.trd.loNamed, s.spc.strobed, s.spc.strobeAt with
  | some e, some f, some t => decide (e = f ∧ 256 * t + loSettle s ≤ launchRaw)
  | _, _, _ => false

/-- The stripe placements bound to a tick: those of the pick's own program, then the carried ones (R202, R212). -/
def placeStripe (x : Nat × Nat × Nat) (s : State) : State :=
  let j := x.1
  let l := spcLine j s
  if l.cellsS = 0 ∨ spcStripes l ≤ x.2.1 then violate blkTRD 0x06 .draft 2 x.2.2 j s
  else
    let a := areaOf (j / 8) s
    let s := if a.state = 1 ∧ (a.key.map (·.line)) = some j then discardPartial (j / 8) s else s
    setSpcLine j { spcLine j s with curStripe := x.2.1, curCount := 0 } s

/-! ### The launch of one port (R217, R95, R177) -/

/-- SEG_LEN and WIN as acted on (R112). -/
def segActs (v : Nat) : Nat := if v = 3 then 2 else v
def winActs (v : Nat) : Nat := if 2 ≤ v then 0 else v

/-- The Reed settings in force of a port: SEG_LEN, WIN and PSHIFT. -/
def redCfgOf (p : Nat) (s : State) : List Nat :=
  [segActs (rdI RED_PORT_CFG_SEG_LEN p s), winActs (rdI RED_PORT_CFG_WIN p s), rdI RED_PORT_CFG_PSHIFT p s]

/-- The Heddle settings in force of a port: FAST_THR, FAST_PRI, RANK, Q_HOLD, NOTE_CAP and FAST_EN. -/
def hdlCfgOf (p : Nat) (s : State) : List Nat := HDL_PORT_CFG.fields.map (fun f => rdI f p s)

/-- The correction values in force of the converter of an input: OFFSET, GAIN and the three ratios. -/
def corrOf (p i : Nat) (s : State) : List Nat :=
  let j := convOf p i s
  [rdI CNV_CORR_OFFSET j s, rdI CNV_CORR_GAIN j s, rdI CNV_RATIO_RATIO6 j s, rdI CNV_RATIO_RATIO12 j s,
    rdI CNV_RATIO_RATIO18 j s]

/-- Whether an input of a port is served by a failed converter. -/
def inputBad (p i : Nat) (s : State) : Option Nat := if cnvSt (convOf p i s) s = cFAILED then some 0 else none

/-- A pick of a port taken as idle for a cause that logs (R376). -/
def pickIdle (blk detail p arg : Nat) (s : State) : Option PortPick × State :=
  (none, violate blk 0x07 .draft detail p arg s)

/-- Whether the four conditions of R217 that no counter counts hold. -/
def mayLaunch (p : Nat) (s : State) : Bool :=
  weaving s && decide (portSt p s = pRUNNING) && !(isBlanked p s)
    && (rd TRD_PORT_KIND p s = 1 || rd TRD_PORT_KIND p s = 2)

/-- The commanded launch of a port for a tick at a sample clock, in 1/256 ns (R417). -/
def launchRawOf (p tickSc : Nat) (s : State) : Nat := 512 * tickSc + 4 * rd SRC_LAUNCH_OFFSET p s

/-- MON_WIN as acted on (R445). -/
def monWin (s : State) : Nat := maxN 4 (rd SRC_CTL_MON_WIN 0 s)

/-- The stripe key of a spectral pick of a port (R185). -/
def spcKeyOf (p : Nat) (s : State) : SpcKey :=
  let j := lineIdx p (lineOf p s)
  let e := s.trd.loNamed.getD 0
  let c := redCfgOf p s
  { line := j, stripe := (spcLine j s).curStripe, lo := e, lo0 := s.spc.lo.get 0 (2 * e), lo1 := s.spc.lo.get 0 (2 * e + 1),
    seg := c.getD 0 0, win := c.getD 1 0, pshift := c.getD 2 0 }

/-- Everything of a port's launch that the rules take as of its tick. NOISE_LOG and GAU_BRK_CTL are those in force at the tick for every
cell and for the locator's decision of the pick, whatever is written meanwhile (DESIGN CHOICE, log entry 93). -/
def portPick (p tickSc kind : Nat) (bank : CodeBank) (s : State) : PortPick :=
  let l := lineOf p s
  let j := lineIdx p l
  let t := rd TRD_PORT_GZT p s
  let raw := launchRawOf p tickSc s
  let h := s.heddle.ports.get {} p
  { port := p, kind := kind, slot := rd TRD_PORT_SLOT p s, bank := bank, gen := (slotOf (rd TRD_PORT_SLOT p s) s).gen,
    line := l, shed := shedOf j s, launchRaw := raw, windowEnd := raw + 512 * monWin s,
    gz := gzTable s.ports.gz p t, gainBefore := s.ports.lastGain.get 0 p,
    corr := (List.range 4).map (fun i => corrOf p i s),
    badX := match inputBad p 0 s with
      | some n => some n
      | none => inputBad p 1 s,
    badY := match inputBad p 2 s with
      | some n => some n
      | none => inputBad p 3 s,
    iq := [rdI PRT_IQ_X_A p s, rdI PRT_IQ_X_B p s, rdI PRT_IQ_Y_A p s, rdI PRT_IQ_Y_B p s],
    noise := rdI GAU_REF_NOISE_LOG p s,
    brk := GAU_BRK_CTL.fields.map (fun f => rdI f 0 s),
    redCfg := redCfgOf p s, hdlCfg := hdlCfgOf p s, period := periodOf s,
    restart := kind = 1 && (s.ports.firstPhase.get false p || s.src.blanked.get false p),
    r151 := kind = 1 && h.restartNext,
    epoch := h.epoch, weave := s.trd.weave,
    forced := kind = 1 && decide (0 < h.drops),
    freeBase := s.free,
    lineGen := (lineEnv j s).gen,
    key := if kind = 2 then some (spcKeyOf p s) else none }

/-- A port that meets R217 launches, or takes the pick as idle for the first cause that applies (R15, R95, R177). -/
def portTry (p tickSc : Nat) (s : State) : Option PortPick × State :=
  let kind := rd TRD_PORT_KIND p s
  let slot := rd TRD_PORT_SLOT p s
  let j := lineIdx p (lineOf p s)
  let a := (areaOf p s).state
  if shedOf j s = 0 then pickIdle blkTRD 5 p j s
  else match (slotOf slot s).inForce with
    | none => pickIdle blkRED 1 p slot (bump RED_PORT_STAT_EMPTY_SLOT p s)
    | some b =>
      let x := portPick p tickSc kind b s
      if kind = 1 then (some x, s)
      else if frugal s then pickIdle blkSPC 2 p j (bump SPC_CNT_INVALID p s)
      else if !(plainBank b) then pickIdle blkSPC 3 p slot (bump SPC_CNT_INVALID p s)
      else if !(spcGeomOk j s) then pickIdle blkSPC 4 p j (bump SPC_CNT_INVALID p s)
      else if a = 2 ∨ a = 3 then (none, bump SPC_CNT_BUSY p s)
      else if !(loSettled x.launchRaw s) then (none, bump SPC_CNT_UNSETTLED p s)
      else (some x, s)

/-- The free values that a pick's compression may draw (R98, R114): four for each shed sample of a phase pick, 56 for each cell of a stripe
(log entry 1). They are set aside at the launch, so that a cell's value does not depend on when it is delivered. -/
def portFree (x : PortPick) : Nat := if x.kind = 1 then 4 * x.shed else 56 * 4096

/-- A replica run captures a launched phase pick of its port, line and slot (R521). -/
def replicaCapture (x : PortPick) (s : State) : State :=
  let hit := fun (c : CalPair) => decide (c.kind = 2 ∧ c.idx = x.slot ∧ rd CAL_REPL_PORT 0 s = x.port
    ∧ rd CAL_REPL_LINE 0 s = x.line ∧ c.second.isNone = true)
  { s with cal := { s.cal with pairs := s.cal.pairs.map (fun c => if hit c then { c with caps := c.caps ++ [x] } else c) } }

/-- The gate of a launch (R417, R418): LAUNCH for N_code + EXTEND sc, and the code of the bank in force. -/
def gateOf (x : PortPick) (s : State) : Gate :=
  { at_ := x.launchRaw, len := nCodeOf x.bank + rd SRC_LAUNCH_EXTEND x.port s, chipLen := chipLenOf x.bank,
    chips := x.bank.chipsM1 + 1, code := (List.range (x.bank.chipsM1 / 24 + 1)).map (fun i => x.bank.words.get 0 (8192 + i)) }

/-- LAUNCH and CODE are driven for a launch (R417, R418). -/
def gateDrive (x : PortPick) (s : State) : State :=
  let g := gateOf x s
  emit (.launch x.port g.at_ g.len g.chipLen g.chips g.code) { s with src := { s.src with gates := s.src.gates.put none x.port (some g) } }

/-- What a launch leaves behind at once: the gate and the code, the kind shown, the skipped steps, the gain of the shed's end, the channels
it gates and, for a phase pick, the histories it takes (R56, R57, R119, R155, R158, R417, R418). `tick` is the tick in cc. -/
def portLaunched (tick : Nat) (x : PortPick) (s : State) : State :=
  let p := x.port
  let s := { s with free := s.free + portFree x }
  let s := gateDrive x (bumpBy PRT_CNT_STEP_SKIP p (gzSkipped x.gz x.shed) s)
  let s := { s with ports := { s.ports with lastGain := s.ports.lastGain.put 0 p (gainAt x.gz x.shed (x.shed - 1)) } }
  let s := chanPick p x.launchRaw tick (nCodeOf x.bank) x.shed s
  let s := wr RED_PORT_STAT_LAST_KIND p x.kind s
  if x.kind = 1 then
    let h := s.heddle.ports.get {} p
    let s := replicaCapture x s
    { wr RED_PORT_STAT_LAST_SLOT p x.slot s with
      ports := { s.ports with firstPhase := s.ports.firstPhase.put false p false },
      src := { s.src with blanked := s.src.blanked.put false p false },
      heddle := { s.heddle with ports := s.heddle.ports.put {} p { h with restartNext := false, drops := 0 } },
      gauge := { s.gauge with lastLine := s.gauge.lastLine.put 0 p (lineIdx p x.line + 1) } }
  else s

/-- One port at a tick. -/
def portTick (tickSc : Nat) (acc : List PortPick × State) (p : Nat) : List PortPick × State :=
  let s := wr RED_PORT_STAT_LAST_KIND p 0 acc.2
  if mayLaunch p s then
    match portTry p tickSc s with
    | (some x, s) => (acc.1 ++ [x], portLaunched (2 * tickSc) x s)
    | (none, s) => (acc.1, s)
  else (acc.1, s)

/-! ### The tick (R23, R26, R219 to R221) -/

/-- The change set at a tick: a prepared one commits, a failed try counts and the 17th abandons the set. The answer says whether lines
were committed. A commit that changes PERIOD brings the replay windows' checks with it (R393). -/
def tickSet (n nominal : Nat) (s : State) : Bool × State :=
  match s.trd.set with
  | none => (false, s)
  | some c =>
    if c.prepared then
      let t := commitSet c n nominal s
      (bitOf c.affected 5, if periodOf t = periodOf s then t else rplPeriodCheck t)
    else if c.triedFailed then
      let k := c.tries + 1
      if 17 ≤ k then (false, restoresOnEnd (setEnds c ocABANDONED 17 n s))
      else (false, onTrd (fun t => { t with set := some { c with tries := k, triedFailed := false } }) s)
    else (false, s)

/-- An LO transfer that has not completed by the tick of its pick (R429). -/
def loLateCheck (s : State) : State :=
  match s.trd.loNamed with
  | some e => if s.trd.loStarted && loOnBus e s then raise 215 (bump SRC_CNT_LO_LATE 0 s) else s
  | none => s

/-- HDL_GRID.K at a tick (R173). -/
def gridAtTick (tickSc : Nat) (s : State) : State :=
  let t : Int := ((512 * tickSc : Nat) : Int)
  match gridSegAt (gridOf s.trd.weave s) t with
  | none => s
  | some g => { s with heddle := { s.heddle with gridK := ux 48 (g.k + (t - g.t) / (g.step : Int)) } }

/-- The corrections written to ports without a shed in progress come into force at the latest at the tick (R54). -/
def corrAtTick (s : State) : State :=
  (List.range 16).foldl (fun s p => if (shedEndAt p s.now s).isSome then s else portCorrEnforce p s) s

/-- The cycle at which a launch window is decided: every edge whose trimmed stamp lies in it has passed the pipeline by then
(R432, R450, R452; log entry 80). -/
def windowDecided (y : PortPick) (s : State) : Nat :=
  (y.windowEnd + (rdZ TSU_IN_DELAY y.port s).toNat + 255) / 256 + 96

/-- Whether a pick's record may be dropped at a tick: complete, every launch stamped or counted, every window decided, every shed and the
Reed's work on it over. -/
def pickOld (s : State) (x : PickCtx) : Bool :=
  x.complete.isSome && x.ports.all (fun y =>
    (y.stamp.isSome || !y.windowOpen)
      && decide (windowDecided y s ≤ s.now ∧ x.tick + 2 * y.shed ≤ s.now ∧ reedEnd y x.tick s ≤ s.now))

/-- Records of old picks are dropped; what they mean for later launches stays in `doneBase`. -/
def prunePicks (s : State) : State :=
  let old := s.trd.picks.filter (pickOld s)
  onTrd (fun t => { t with
    picks := t.picks.filter (fun x => !(pickOld s x)),
    doneBase := old.foldl (fun b x => maxN b (afterComplete (x.complete.getD 0))) t.doneBase }) s

/-- Earlier picks without a deadline get the end of this pick's longest shed (R21). -/
def setDeadlines (t : Nat) (l : List PickCtx) : List PickCtx :=
  l.map (fun x => if x.deadline.isNone then { x with deadline := some t } else x)

/-- The launch lateness, floor and cause of a tick are shown and counted (R24, R29, R32). -/
def tickShow (x : PickPlan) (cand : Nat) (s : State) : State :=
  let c := pickCause x cand
  let s := wr SYS_PICK_STAT_LATENESS 0 (cand - x.nominal) (wr SYS_PICK_STAT_FLOOR 0 x.floor (wr SYS_PICK_STAT_CAUSE 0 c s))
  if c = causeSTRETCHED then raise 3 (bump SYS_PICK_CNT_STRETCHES 0 s) else s

/-- Pick `n` is ticked at `cand` (R11, R23). -/
def pickTick (x : PickPlan) (cand : Nat) (s : State) : State :=
  let n := s.trd.pickN
  let s := prunePicks (wr SYS_PICK_NUM_NUM 0 n (advanceTo (2 * cand) s))
  let s := blankTick (gaugeTick (corrAtTick s))
  let (lines, s) := tickSet n x.nominal s
  let s := retryRestores (loLateCheck (lbeat lines s))
  let s := tickShow x cand s
  let s := (s.trd.places ++ s.trd.carried).foldl (fun s y => placeStripe y s) s
  let s := gridAtTick cand (onTrd (fun t => { t with places := [], carried := [] }) s)
  let (hands, owed, s) := engineTick s
  let (parts, s) := (List.range 16).foldl (portTick cand) ([], s)
  let s := rplNoPhase n 1 (fun p => parts.any (fun y => decide (y.port = p ∧ y.kind = 1))) s
  let smax := maxL (parts.map (·.shed))
  let pick : PickCtx := { n := n, tick := 2 * cand, ports := parts, engines := owed, hands := hands,
                          complete := if parts.isEmpty && owed.isEmpty then some (2 * cand) else none }
  onTrd (fun t => { t with
    picks := (if parts.isEmpty then t.picks else setDeadlines (2 * (cand + smax)) t.picks) ++ [pick],
    lastSheds := parts.map (fun y => (y.port, y.shed)), lastTick := some cand, progEnd := none, startDue := some (2 * cand + 16), firstPick := false }) s

/-- PICK_TICK: the waiting pick is ticked when its readiness is known and its lateness lies within the limit. -/
def execPickTick (s : State) : Res :=
  match pickPlan s with
  | none => .next s
  | some x => match x.cand with
    | none => .next s
    | some c => if c ≤ x.limit then .next (pickTick x c s) else .next s

/-! ### Dropped picks (R23, R25, R26) -/

/-- A pick is dropped at a core cycle; `late` is cand − nominal. -/
def pickDrop (x : PickPlan) (at_ late : Nat) (s : State) : State :=
  let n := s.trd.pickN
  let s := wr SYS_PICK_NUM_NUM 0 n (advanceTo at_ s)
  let s := bump SYS_PICK_CNT_DROPS 0 (wr SYS_PICK_STAT_FLOOR 0 x.floor (wr SYS_PICK_STAT_CAUSE 0 causeDROPPED s))
  let s := eventRecord 0x01 2 0 n (satU 24 late) 0 (raise 2 s)
  let s := { s with heddle := { s.heddle with
    ports := (List.range 16).foldl (fun m p => m.put {} p { m.get {} p with drops := (m.get {} p).drops + 1 }) s.heddle.ports } }
  let s := rplNoPhase n 2 (fun _ => false) (engineDrop s)
  onTrd (fun t => { t with
    places := [], carried := t.carried ++ t.places, progEnd := none, firstPick := false,
    startDue := some s.now,
    set := t.set.map (fun c => { c with triedFailed := false }) }) s

/-- PICK_DROP: the decision falls at the limit; when the reference time alone exceeds it, it falls where the row stands, and no earlier than
the end of the program (DESIGN CHOICE, log entry 100). A candidate that is not known when the pick is dropped is a free value (log entry
1): no less than the reference time, and beyond the limit. -/
def execPickDrop (s : State) : Res :=
  match pickPlan s with
  | none => .next s
  | some x =>
    let at_ := if x.limit < x.ref then maxN s.now (s.trd.progEnd.getD 0) else 2 * x.limit
    match x.cand with
    | some c => if c ≤ x.limit then .next s else .next (pickDrop x at_ (c - x.nominal) s)
    | none =>
      let (k, s) := drawBelow (2 ^ 24) s
      .next (pickDrop x at_ (maxN k (maxN (x.limit + 1) x.ref - x.nominal)) s)

/-! ### Completion (R21) -/

/-- Whether every unit but the Reed has reported a pick done; the Reed's own part ends at `pickWorkEnd`. -/
def pickAllDone (x : PickCtx) (s : State) : Bool :=
  x.complete.isNone && x.engines.isEmpty && pickWorkDone x s

/-- A pick is complete now: a completion after its deadline is a miss. -/
def pickComplete (x : PickCtx) (s : State) : State :=
  let s := mapPicks (fun y => if y.n = x.n ∧ y.tick = x.tick then { y with complete := some s.now } else y) s
  match x.deadline with
  | some d => if d < s.now then raise 4 (bump SYS_PICK_CNT_LATE 0 s) else s
  | none => s

/-- PICK_DONE: the oldest pick whose units have all reported is complete, at the Reed's end at the earliest. -/
def execPickDone (s : State) : Res :=
  match s.trd.picks.find? (fun x => pickAllDone x s) with
  | none => .next s
  | some x => .next (pickComplete x (advanceTo (pickWorkEnd x s) s))

end Sys2Proof.Machine
end

