-- ==== Sys2Proof/Machine/Cells.lean ====
section
/-!
DEFINITION. Phase cells: the correction chain of a port (R50 to R57), phase-pick compression (R96 to R98), the gauge's cell product
(R116 to R120) and the delivery of one cell result, with the break decision that follows the last one (R121, R134). The
converters' codes come with the command that delivers a cell (log entry 40).
-/

set_option autoImplicit false

namespace Sys2Proof.Machine

/-- The converter codes of one shed sample: XI in bits 13 to 0, then XQ, YI and YQ. -/
abbrev Codes := List (BitVec 56)

/-- The code of input `i` of a shed sample; a sample that is not given is 0. -/
def codeAt (first : Nat) (codes : Codes) (n i : Nat) : Int :=
  if n < first then 0 else sx 14 (slice (codes.getD (n - first) 0#56).toNat (14 * i) 14)

/-! ### Stages 1 to 3 (R50 to R57) -/

/-- Stage 1 for input `i` of sample `n`, with its SAT (R50, R52). -/
def stage1 (x : PortPick) (first : Nat) (codes : Codes) (i n : Nat) : Int × Bool :=
  let c := codeAt first codes n i
  let k := x.corr.getD i []
  let g := gainAt x.gz x.shed n
  let ratio : Nat := if g = 0 then 65536 else k.getD (g + 1) 0
  let u := 1024 * c - 64 * sx 16 (k.getD 0 0)
  let v := divRound (u * (k.getD 1 0 : Int) * (ratio : Int)) (2 ^ 31)
  (satS 24 v, decide (c = -8192 ∨ c = 8191 ∨ satS 24 v ≠ v))

/-- A sample of one polarisation: I, Q, SAT and INTERP (R52). -/
structure Sample where
  i : Int
  q : Int
  sat : Bool
  interp : Bool
deriving DecidableEq, Repr

/-- The sample from which a polarisation counts as saturated because one of its inputs has no serving converter (R65). -/
def badFrom (x : PortPick) (pol : Nat) : Option Nat := if pol = 0 then x.badX else x.badY

/-- Stages 1 and 2 for sample `n` of polarisation `pol`, 0 for X and 1 for Y (R51). -/
def stage2 (x : PortPick) (first : Nat) (codes : Codes) (pol n : Nat) : Sample :=
  let i := stage1 x first codes (2 * pol) n
  let q := stage1 x first codes (2 * pol + 1) n
  let a := sx 24 (x.iq.getD (2 * pol) 0)
  let b := sx 24 (x.iq.getD (2 * pol + 1) 0)
  let v := divRound (a * q.1 + b * i.1) (2 ^ 22)
  let bad := match badFrom x pol with
    | some m => decide (m ≤ n)
    | none => false
  { i := i.1, q := satS 24 v, sat := i.2 || q.2 || decide (satS 24 v ≠ v) || bad, interp := false }

/-- Insertion into an ascending list without repeats. -/
def insertAsc (a : Nat) : List Nat → List Nat
  | [] => [a]
  | b :: t => if a < b then a :: b :: t else if a = b then b :: t else b :: insertAsc a t

/-- The first samples of the zones of a shed, ascending (R57). -/
def zoneStarts (x : PortPick) : List Nat :=
  let steps := (gzTaking x.gz x.shed).filter (fun e =>
    decide (1 ≤ e.1) && decide (gainAt x.gz x.shed e.1 ≠ gainAt x.gz x.shed (e.1 - 1)))
  let l := steps.foldl (fun l e => insertAsc e.1 l) []
  if gainAt x.gz x.shed 0 = x.gainBefore then l else 0 :: l

/-- Zones joined into runs, each given by its first and last sample (R57): `a` begins the run and `z` its latest zone. -/
def joinZones (a z : Nat) : List Nat → List (Nat × Nat)
  | [] => [(a, z + 7)]
  | y :: t => if y < z + 16 then joinZones a y t else (a, z + 7) :: joinZones y y t

/-- The runs of a shed. -/
def zoneRuns (x : PortPick) : List (Nat × Nat) :=
  match zoneStarts x with
  | [] => []
  | z :: t => joinZones z z t

/-- The corrected sample that stage 3 delivers (R52, R57). -/
def sampleAt (x : PortPick) (runs : List (Nat × Nat)) (first : Nat) (codes : Codes) (pol n : Nat) : Sample :=
  let y := stage2 x first codes pol n
  match List.find? (fun (r : Nat × Nat) => decide (r.1 ≤ n ∧ n ≤ r.2)) runs with
  | none => y
  | some (a, b) =>
    let hi := stage2 x first codes pol (b + 1)
    if a = 0 then { i := hi.i, q := hi.q, sat := y.sat || hi.sat, interp := true }
    else
      let lo := stage2 x first codes pol (a - 1)
      let part := fun (u v : Int) => divRound (u * ((b - a + 2 : Nat) : Int) + ((n - a + 1 : Nat) : Int) * (v - u)) (b - a + 2)
      { i := part lo.i hi.i, q := part lo.q hi.q, sat := y.sat || lo.sat || hi.sat, interp := true }

/-- The corrected samples of a span of the shed, one polarisation. -/
def samplesOf (x : PortPick) (first : Nat) (codes : Codes) (pol n len : Nat) : List Sample :=
  let runs := zoneRuns x
  (List.range (minN len (x.shed - n))).map (fun m => sampleAt x runs first codes pol (n + m))

/-! ### Compression (R96 to R98) -/

/-- A compressed word with its marks; TAIL depends on the position alone. -/
structure Comp where
  i : Int
  q : Int
  sat : Bool
  seam : Bool
deriving DecidableEq, Repr

/-- The exact sum of R96 over the samples from z on: real and imaginary part, replica samples as integers of LSB 2^−23. -/
def corrSum : List Sample → List (Int × Int) → Int × Int → Int × Int
  | x :: xs, r :: rs, acc => corrSum xs rs (acc.1 + x.i * r.1 + x.q * r.2, acc.2 + x.q * r.1 - x.i * r.2)
  | _, _, acc => acc

/-- One component as delivered: saturated at its limit, else within ±2 LSB of the reference value (R97). The difference is a free value of
the pick, the shed sample, the polarisation and the component (log entry 1). -/
def compPart (x : PortPick) (k : Nat) (v : Int) (shift : Nat) : Int × Bool :=
  let y := divRound v (2 ^ (23 + shift))
  if satS 24 y ≠ y then (satS 24 y, true)
  else (clampZ (-8388608) 8388607 (y + (Config.free (x.freeBase + k) % 5 : Nat) - 2), false)

/-- The compressed word of shed sample `z` from the corrected samples from `z` on (R96, R98). -/
def compress (x : PortPick) (replica : List (Int × Int)) (pol z : Nat) (xs : List Sample) : Comp :=
  let used := xs.take replica.length
  let acc := corrSum used replica (0, 0)
  let i := compPart x (4 * z + 2 * pol) acc.1 x.bank.shift
  let q := compPart x (4 * z + 2 * pol + 1) acc.2 x.bank.shift
  { i := i.1, q := q.1, sat := i.2 || q.2 || used.any (·.sat), seam := used.any (·.interp) }

/-- The replica of a bank, N_code samples (R88). -/
def replicaOf (b : CodeBank) : List (Int × Int) := (List.range (nCodeOf b)).map (replicaAt b)

/-- The compressed words of the shed samples z to z + n − 1 of one polarisation, from the corrected samples from z on. -/
def compressSpan (x : PortPick) (replica : List (Int × Int)) (pol : Nat) : Nat → Nat → List Sample → List Comp
  | 0, _, _ => []
  | n + 1, z, xs => compress x replica pol z xs :: compressSpan x replica pol n (z + 1) (xs.drop 1)

/-! ### The gauge product (R116 to R118) -/

/-- The product y[z + g] · conj(y[z]). -/
def gaugeProd (far near : Comp) : Int × Int :=
  (far.i * near.i + far.q * near.q, far.q * near.i - far.i * near.q)

/-- The squared magnitude of a complex integer. -/
def normSq (z : Int × Int) : Nat := (z.1 * z.1 + z.2 * z.2).toNat

/-- The magnitude of a complex integer scaled by 2^64 and floored. -/
def absScaled (z : Int × Int) : Nat := isqrtGo (normSq z * 2 ^ 128) 130 0

/-- The products of the W terms of a cell, both polarisations. -/
def cellProds (g w : Nat) (ys : List Comp) : List (Int × Int) :=
  (List.zip (ys.drop g) ys |>.take w).map (fun e => gaugeProd e.1 e.2)

/-- A complex integer cut to 128 significant bits, which moves its angle by less than 2^−126. -/
def cut128 (z : Int × Int) : Int × Int :=
  let l := Nat.log2 (maxN z.1.natAbs z.2.natAbs)
  if l < 128 then z else (z.1 / (2 ^ (l - 127) : Int), z.2 / (2 ^ (l - 127) : Int))

/-- The first `k` binary digits of an angle in turns from 0 to 1, by repeated doubling (R117). -/
def angleBits : Nat → Int × Int → Nat → Nat
  | 0, _, acc => acc
  | k + 1, z, acc =>
    let low := decide (z.2 < 0 ∨ (z.2 = 0 ∧ z.1 < 0))
    angleBits k (cut128 (z.1 * z.1 - z.2 * z.2, 2 * z.1 * z.2)) (2 * acc + b2n low)

/-- PHASE of R117 before its tolerance, modulo 65,536. -/
def phaseOf (a : Int × Int) : Nat := (angleBits 17 (cut128 a) 0 + 1) / 2 % 65536

/-- The first `k` binary digits of a base-2 logarithm's fraction, of a mantissa from 2^127 to below 2^128. -/
def logBits : Nat → Nat → Nat → Nat
  | 0, _, acc => acc
  | k + 1, m, acc =>
    let q := m * m
    if 2 ^ 255 ≤ q then logBits k (q / 2 ^ 128) (2 * acc + 1) else logBits k (q / 2 ^ 127) (2 * acc)

/-- The logarithm to base 2 of num / den in units of 2^−k, floored. -/
def log2Frac (k num den : Nat) : Int :=
  let m := num * 2 ^ 200 / den
  let l := Nat.log2 m
  let mant := if l < 127 then m * 2 ^ (127 - l) else m / 2 ^ (l - 127)
  ((l : Int) - 200) * 2 ^ k + (logBits k mant 0 : Int)

/-- MAG of R117 before its tolerance and its clamp: 256 · log2(|a| / W) rounded. -/
def magOf (a : Int × Int) (w : Nat) : Int := (log2Frac 8 (normSq a) (w * w) + 1) / 2

/-- A value from `lo` to `hi` that the spec does not say more about. -/
def drawIn (lo hi : Int) (s : State) : Int × State :=
  let (k, s) := drawBelow ((hi - lo).toNat + 1) s
  (lo + (k : Int), s)

/-- A cell's result before DARK: PHASE, MAG, Q, SAT and SEAM. -/
structure CellRaw where
  phase : Nat
  mag : Nat
  q : Nat
  sat : Bool
  seam : Bool
deriving DecidableEq, Repr

/-- The magnitude of a product times |a|, where that is a whole number. -/
def absTimes (a p : Int × Int) : Option Nat :=
  let n := normSq a * normSq p
  let r := isqrtGo n 112 0
  if r * r = n then some r else none

/-- The bounds of the floored exact value of 63 · |a| / m. When every |a| · |p| is whole, |a| / m is a ratio of whole numbers and the two bounds
are that value. Otherwise the value is no whole number, and the floored magnitudes bound it; the bounds are then equal unless it lies closer
than 2^−50 to a whole number. -/
def cohBounds (a : Int × Int) (prods : List (Int × Int)) : Nat × Nat :=
  let exact := prods.filterMap (absTimes a)
  let m := sumN (prods.map absScaled)
  if exact.length = prods.length ∧ sumN exact ≠ 0 then (63 * normSq a / sumN exact, 63 * normSq a / sumN exact)
  else (63 * absScaled a / (m + prods.length), maxN (63 * absScaled a / (m + prods.length)) (63 * (absScaled a + 1) / m))

/-- The coherence grade within one step of its exact expression (R118). -/
def cohGrade (a : Int × Int) (prods : List (Int × Int)) (s : State) : Nat × State :=
  if prods.all (fun p => decide (p = (0, 0))) then (0, s)
  else
    let b := cohBounds a prods
    let (v, s) := drawIn (clampZ 0 63 ((b.1 : Int) - 1)) (clampZ 0 63 ((b.2 : Int) + 1)) s
    (v.toNat, s)

/-- PHASE, MAG and Q of the sum of a cell's products (R117, R118). -/
def cellGrade (prods : List (Int × Int)) (w noise : Nat) (sat seam : Bool) (s : State) : CellRaw × State :=
  let a := prods.foldl (fun (z : Int × Int) p => (z.1 + p.1, z.2 + p.2)) (0, 0)
  if a = (0, 0) then ({ phase := 0, mag := 0, q := 1, sat := sat, seam := seam }, s)
  else
    let (ph, s) := drawIn ((phaseOf a : Int) - 1) ((phaseOf a : Int) + 1) s
    let (mg, s) := drawIn (magOf a w - 1) (magOf a w + 1) s
    let mag := (clampZ 0 65535 mg).toNat
    let (qc, s) := cohGrade a prods s
    let q := minN qc ((mag - noise) / 64)
    ({ phase := ux 16 ph, mag := mag, q := clampN 1 63 q, sat := sat, seam := seam }, s)

/-- The result word of R120. -/
def cellWord (phase mag q : Nat) (restart dark sat seam : Bool) : Nat :=
  place phase 32 16 + place mag 16 16 + place q 10 6 + place (b2n restart) 3 1 + place (b2n dark) 2 1
    + place (b2n sat) 1 1 + place (b2n seam) 0 1

/-! ### Delivery (R119 to R121, R130) -/

/-- The part of a pick whose next cell result of a port is due: the oldest that has one (R121). -/
def gaugeDue (p : Nat) (s : State) : Option (PickCtx × PortPick) :=
  s.trd.picks.findSome? (fun x => (x.ports.find? (fun y =>
    decide (y.port = p ∧ y.kind = 1) && !(decide (rd GAU_SPAN_CELLS p s ≤ y.gaugeNext) && y.breakDone))).map (fun y => (x, y)))

/-- A port's part of one pick is replaced. -/
def setPart (tick : Nat) (y : PortPick) (s : State) : State :=
  mapParts (fun t x => if t = tick ∧ x.port = y.port then y else x) s

/-- The core cycle at which a cell result is delivered: 48 sc after the Reed delivers the last compressed word the cell needs (R99,
R121). -/
def cellDueAt (tick shed last : Nat) : Nat := tick + 2 * (23 + minN last (shed - 1) + 20480 + 48)

/-- The depth of a result FIFO. -/
def fifoDepth : Nat := 16384

/-- The port's next launched phase pick after the one ticked at `tick` is processed as a RESTART: the first such pick in flight, or else the
next one to launch (R151). -/
def restartAfter (p tick : Nat) (s : State) : State :=
  match s.trd.picks.find? (fun x => decide (tick < x.tick) && x.ports.any (fun y => decide (y.port = p ∧ y.kind = 1))) with
  | some x => mapParts (fun t y => if t = x.tick ∧ y.port = p then { y with r151 := true } else y) s
  | none => { s with heddle := { s.heddle with
      ports := s.heddle.ports.put {} p { s.heddle.ports.get {} p with restartNext := true } } }

/-- A result of pick `n`, ticked at `tick`, enters its port's FIFO; a full one discards it and keeps its position, as though it had carried
DARK (R151); in a pick that R151 makes a RESTART it carries RESTART (R152; DESIGN CHOICE, log entry 104). -/
def fifoPush (p n tick cell word : Nat) (s : State) : State :=
  let h := s.heddle.ports.get {} p
  if h.fifoLen < fifoDepth then
    let r : CellRes := { pick := n, tick := tick, cell := cell, word := word, lost := false }
    { s with heddle := { s.heddle with ports := s.heddle.ports.put {} p { h with fifo := h.fifo ++ [r], fifoLen := h.fifoLen + 1 } } }
  else
    let r : CellRes := { pick := n, tick := tick, cell := cell, word := 4, lost := true }
    let s := bump HDL_CNT_OVERRUN p s
    let s := if h.overrunPick = some tick then s else raise 250 s
    restartAfter p tick { s with heddle := { s.heddle with
      ports := s.heddle.ports.put {} p { h with fifo := h.fifo ++ [r], overrunPick := some tick } } }

/-- The counts of R79 and R113 up to a shed sample: the samples, sheds and compressed words that carry SAT. -/
def satCounts (y : PortPick) (xs ys : List Sample) (cx cy : List Comp) (first : Nat) (upto : Nat) (s : State) : PortPick × State :=
  let p := y.port
  let nS := ((List.range (upto - y.satNext)).filter (fun i =>
    let k := y.satNext + i - first
    ((xs.drop k).head?.any (·.sat)) || ((ys.drop k).head?.any (·.sat)))).length
  let nZ := ((List.range (upto - y.zNext)).filter (fun i =>
    let k := y.zNext + i - first
    ((cx.drop k).head?.any (·.sat)) || ((cy.drop k).head?.any (·.sat)))).length
  let s := bumpBy RED_PORT_STAT_SAT_OUT p nZ (bumpBy PRT_CNT_SAT_SAMPLES p nS s)
  let s := if nS ≠ 0 ∧ !y.satSeen then bump PRT_CNT_SAT_SHEDS p s else s
  ({ y with satNext := maxN y.satNext upto, zNext := maxN y.zNext upto, satSeen := y.satSeen || decide (nS ≠ 0) }, s)

/-- The locator's first DARK cell of a pick is settled at its first cell result (R134, R137). -/
def settleDark (y : PortPick) (s : State) : PortPick :=
  if y.darkSet then y
  else { y with darkSet := true, darkFrom := darkOf (lineEnv (lineIdx y.port y.line) s) y.noise (y.brk.getD 1 0) }

/-- What the locator keeps of a result for P_m and for the break cell (R130, R133). -/
def locatorTake (y : PortPick) (j : Nat) (r : CellRaw) (tail : Bool) : PortPick :=
  let y := if r.sat || tail then y
    else { y with segSum := y.segSum.put 0 (j / 512) (y.segSum.get 0 (j / 512) + r.mag),
                  segCnt := y.segCnt.put 0 (j / 512) (y.segCnt.get 0 (j / 512) + 1) }
  if !r.sat && !tail && decide (y.noise + y.brk.getD 1 0 ≤ r.mag) then { y with mags := y.mags.insert j r.mag } else y

/-- The result of the port's next cell is formed and delivered, on the geometry that the registers then hold: R126 says nothing of a pick
in flight whose port was STOPPED at once (DESIGN CHOICE, log entry 103). -/
def deliverCell (n tick : Nat) (y0 : PortPick) (first : Nat) (codes : Codes) (s : State) : State :=
  let p := y0.port
  let y := settleDark y0 s
  let j := y.gaugeNext
  let w := rd GAU_SHAPE_W p s
  let g := rd GAU_SHAPE_G p s
  let sj := rd GAU_SPAN_FIRST p s + j * rd GAU_SHAPE_K p s
  let last := sj + w - 1 + g
  let final := decide (rd GAU_SPAN_CELLS p s ≤ j + 1)
  let rep := replicaOf y.bank
  let from_ := minN sj y.zNext
  let upto := if final then y.shed else minN (last + 1) y.shed
  let xs := samplesOf y first codes 0 from_ (upto - from_ + rep.length)
  let ys := samplesOf y first codes 1 from_ (upto - from_ + rep.length)
  let cx := compressSpan y rep 0 (upto - from_) from_ xs
  let cy := compressSpan y rep 1 (upto - from_) from_ ys
  let sx_ := (cx.drop (sj - from_)).take (w + g)
  let sy_ := (cy.drop (sj - from_)).take (w + g)
  let tail := decide (y.shed < last + rep.length) || decide (y.shed ≤ last)
  let (r, s) := cellGrade (cellProds g w sx_ ++ cellProds g w sy_) w y.noise
    (sx_.any (·.sat) || sy_.any (·.sat)) (sx_.any (·.seam) || sy_.any (·.seam)) s
  let located := match y.darkFrom with
    | some d => decide (d ≤ j)
    | none => false
  let dark := tail || located
  let word := if dark then cellWord 0 0 0 y.restart true false false
    else cellWord r.phase r.mag r.q y.restart false r.sat r.seam
  let s := if dark then bump GAU_CNT_DARK_CELLS p s else s
  let (y, s) := satCounts (locatorTake y j r tail) xs ys cx cy from_ upto s
  fifoPush p n tick j word (setPart tick { y with gaugeNext := j + 1 } s)

/-- GAUGE_CELL_RESULT: the converter codes of the shed samples that the port's next cell needs, from sample `first` on, in; the cell's result
out. A port whose picks owe no result is left as it is. -/
def execGaugeCellResult (p : Fin 16) (first : Nat) (codes : List (BitVec 56)) (s : State) : Res :=
  match gaugeDue p s with
  | none => .next s
  | some (x, y) =>
    if rd GAU_SPAN_CELLS p s ≤ y.gaugeNext then .next s
    else
      let last := rd GAU_SPAN_FIRST p s + y.gaugeNext * rd GAU_SHAPE_K p s + rd GAU_SHAPE_W p s - 1 + rd GAU_SHAPE_G p s
      .next (deliverCell x.n x.tick y first codes (advanceTo (cellDueAt x.tick y.shed last) s))

/-- BREAK_DECISION: the locator decides for the oldest pick of a port whose cell results have all been delivered (R134). -/
def execBreakDecision (p : Fin 16) (s : State) : Res :=
  match gaugeDue p s with
  | none => .next s
  | some (x, y) =>
    if y.gaugeNext < rd GAU_SPAN_CELLS p s then .next s
    else .next (tickHandlersDue (some x.tick) (setPart x.tick { settleDark y s with breakDone := true } (breakDecide (settleDark y s) x.n s)))

end Sys2Proof.Machine
end

