-- ==== Sys2Proof/Machine/Heddle.lean ====
section
/-!
DEFINITION. The Heddle (chapter 05): one cell update of R152 to R161, its frame items, notice and replay value, and the pick
marker of R166.
-/

set_option autoImplicit false

namespace Sys2Proof.Machine

/-! ### The output grid (R156) -/

/-- The index of the largest unshifted grid point at or before a time. -/
def gridFloorIdx (l : List GridSeg) (t : Int) : Int :=
  match gridSegAt l t with
  | some g => g.k + (t - g.t) / (g.step : Int)
  | none => 0

/-- The time of a grid point by its index. -/
def gridTimeAt (l : List GridSeg) (k : Int) : Int :=
  match (l.filter (fun g => decide (g.k ≤ k))).getLast? with
  | some g => gridTime g k
  | none => match l.head? with
    | some g => gridTime g k
    | none => 0

/-- What a pick's span means for a port's grid: t_prev, t_n, the index of the first closed point and that of the last point at or
before t_n, and the shifted times of the points that are closed. -/
structure SpanInfo where
  prev : Option Int
  tn : Int
  first : Int
  last : Int
  points : List Int
  gap : Bool
deriving DecidableEq, Repr

/-- t_prev of a port's pick: the launch of the port's phase pick before it, unless the port entered RUNNING or the device entered WEAVING
between the two (R155). -/
def prevOf (h : HdlPort) (y : PortPick) : Option Nat := if h.prevEpoch = y.epoch then h.tPrev else none

/-- The span of a port's pick on the grid of its weave, as the grid stands at this moment (R155, R156, R160). The PERIOD of a point beyond the
anchor of a later commit is not known yet then (DESIGN CHOICE, log entry 105). -/
def spanOf (y : PortPick) (tPrev : Option Nat) (s : State) : SpanInfo :=
  let grid := gridOf y.weave s
  let tn : Int := ((y.stamp.getD y.launchRaw : Nat) : Int)
  let al := rdZ HDL_ALIGN_ALIGN y.port s
  let kl := gridFloorIdx grid (tn - al)
  match tPrev with
  | none => { prev := none, tn := tn, first := kl + 1, last := kl, points := [], gap := false }
  | some tp =>
    let k0 := gridFloorIdx grid ((tp : Int) - al) + 1
    let c := (kl - k0 + 1).toNat
    let n := if 4 < c then 1 else c
    { prev := some tp, tn := tn, first := k0, last := kl,
      points := (List.range n).map (fun (i : Nat) => gridTimeAt grid (k0 + (i : Int)) + al), gap := decide (4 < c) }

/-! ### The quad (R123) -/

/-- The fields of a phase-cell quad. -/
structure Quad where
  acc : Nat
  integ : Int
  inc1 : Nat
  inc2 : Nat
  env : Nat
  lastPhase : Nat
  quality : Nat
  sat : Bool
  seam : Bool
  peak : Nat
  sumsq : Nat
deriving DecidableEq, Repr

/-- The fields from the quad's four words. -/
def quadOf (w0 w1 w2 w3 : Nat) : Quad :=
  { acc := w0, integ := sx 48 w1, inc1 := slice w2 32 16, inc2 := slice w2 16 16, env := slice w2 0 16,
    lastPhase := slice w3 32 16, quality := slice w3 26 6, sat := bitOf w3 25, seam := bitOf w3 24,
    peak := slice w3 16 8, sumsq := slice w3 0 16 }

/-- The quad's four words. -/
def Quad.words (q : Quad) : List Nat :=
  [q.acc % 2 ^ 48, ux 48 q.integ, place q.inc1 32 16 + place q.inc2 16 16 + place q.env 0 16,
    place q.lastPhase 32 16 + place q.quality 26 6 + place (b2n q.sat) 25 1 + place (b2n q.seam) 24 1
      + place q.peak 16 8 + place q.sumsq 0 16]

/-- The stored form of no valid increment (R124). -/
def incNONE : Nat := 0x8000

/-- An increment as stored (R124). -/
def storeInc (x : Int) : Nat := if x = 32768 then 0x7FFF else ux 16 x

/-! ### Classification and filtering (R152, R153) -/

/-- The modes of R152. -/
inductive HdlMode where
  | restart
  | dark
  | reference
  | long
  | fill
  | normal
deriving DecidableEq, Repr

/-- The cell result as the Heddle takes it. -/
structure CellIn where
  phase : Nat
  mag : Nat
  quality : Nat
  restart : Bool
  dark : Bool
  sat : Bool
  seam : Bool
deriving DecidableEq, Repr

/-- The fields of a result word (R120). -/
def cellIn (w : Nat) : CellIn :=
  { phase := slice w 32 16, mag := slice w 16 16, quality := slice w 10 6, restart := bitOf w 3, dark := bitOf w 2,
    sat := bitOf w 1, seam := bitOf w 0 }

/-- The mode of an update: the first matching row of R152. -/
def hdlMode (c : CellIn) (bare r151 : Bool) (q : Quad) (sp : SpanInfo) (period : Nat) : HdlMode :=
  if c.restart || bare || r151 then .restart
  else if c.dark then .dark
  else if q.inc1 = incNONE then .reference
  else if (match sp.prev with
    | some tp => decide ((1536 * period : Nat) < 2 * (sp.tn - tp))
    | none => false) then .long
  else if q.inc2 = incNONE then .fill
  else .normal

/-- The raw increment, unwrapped into −0.5 (excluded) to +0.5 cycle (R153). -/
def rawInc (c : CellIn) (q : Quad) : Int :=
  let d := sx 16 (ux 16 ((c.phase : Int) - (q.lastPhase : Int)))
  if d = -32768 then 32768 else d

/-- The middle of three. -/
def median3 (a b c : Int) : Int := max (min a b) (min (max a b) c)

/-- The rank filter (R153). -/
def rankSelect (rank : Nat) (a b c : Int) : Int :=
  if rank = 0 then min a (min b c) else if rank = 2 then max a (max b c) else median3 a b c

/-- Whether a mode forms an increment. -/
def HdlMode.moves : HdlMode → Bool
  | .restart => false
  | .dark => false
  | .reference => false
  | .long => true
  | .fill => true
  | .normal => true

/-- The filtered increment (R153). -/
def filtInc (m : HdlMode) (rank qhold : Nat) (c : CellIn) (q : Quad) : Int :=
  if !m.moves || decide (c.quality < qhold) then 0
  else
    let x := rawInc c q
    if m = .normal ∧ rank ≠ 3 then rankSelect rank x (sx 16 q.inc1) (sx 16 q.inc2) else x

/-- The history and the phase after the update (R154). -/
def histStep (m : HdlMode) (c : CellIn) (f : Int) (q : Quad) : Quad :=
  let x := storeInc (rawInc c q)
  let acc := ux 48 ((q.acc : Int) + 256 * f)
  match m with
  | .normal => { q with inc2 := q.inc1, inc1 := x, lastPhase := c.phase, acc := acc }
  | .fill => { q with inc2 := x, inc1 := x, lastPhase := c.phase, acc := acc }
  | .long => { q with inc2 := incNONE, inc1 := 0, lastPhase := c.phase, acc := acc }
  | .reference => { q with inc2 := incNONE, inc1 := 0, lastPhase := c.phase }
  | .dark => { q with inc2 := incNONE, inc1 := incNONE }
  | .restart => { q with inc2 := incNONE, inc1 := 0, lastPhase := c.phase, acc := 0 }

/-! ### Integration and dumps (R157 to R160) -/

/-- RMS_EXP and RMS_MANT of R159: the smallest exponent whose rounded mantissa fits eight bits. -/
def rmsGo (sq n : Nat) : Nat → Nat → Nat × Nat
  | 0, _ => (15, 255)
  | k + 1, e =>
    let m := (isqrt (4 * sq / (n * 4 ^ e)) + 1) / 2
    if m ≤ 255 then (e, m) else rmsGo sq n k (e + 1)

/-- The sum of squares of a quad (R161). -/
def sumsqVal (v : Nat) : Nat := slice v 0 12 * 4 ^ slice v 12 4

/-- The fine output word of a quad (R159). -/
def fineWord (q : Quad) (n qhold : Nat) : Nat :=
  let inc := divRound q.integ 4096
  let sat := decide (satS 24 inc ≠ inc)
  let (e, m) := if n = 0 then (0, 0) else rmsGo (sumsqVal q.sumsq) n 16 0
  place (ux 24 (satS 24 inc)) 24 24 + place q.peak 16 8 + place e 12 4 + place m 4 8
    + place (b2n (decide (1 ≤ q.quality ∧ q.quality < qhold))) 3 1 + place (b2n q.seam) 2 1
    + place (b2n (decide (q.quality = 0))) 1 1 + place (b2n (q.sat || sat)) 0 1

/-- INTEG saturates to 48 bits. -/
def addInteg (q : Quad) (d : Int) : Quad := { q with integ := satS 48 (q.integ + d) }

/-- A forced pick lowers the quality (R158). -/
def forceQ (forced : Bool) (q : Quad) : Quad := if forced then { q with quality := minN q.quality 1 } else q

/-- After a dump (R157, R159). -/
def dumped (q : Quad) : Quad := { q with integ := 0, peak := 0, sumsq := 0, sat := false, seam := false, quality := 63 }

/-- The dumps of a pick: the words, the quad after them and the share of F already placed. `n` is N of the next interval, zero after the
first. -/
def dumpGo (forced : Bool) (f : Int) (prev tn : Int) (qhold : Nat) : List Int → Nat → Quad → Int → List Nat × Quad × Int
  | [], _, q, got => ([], q, got)
  | g :: gs, n, q, got =>
    let cum := ratRound (mkRat (f * 65536 * (g - prev)) (tn - prev).toNat)
    let q := forceQ forced (addInteg q (cum - got))
    let (ws, q', got') := dumpGo forced f prev tn qhold gs 0 (dumped q) cum
    (fineWord q n qhold :: ws, q', got')

/-- The peak code of an increment: floor(16 · log2 |f|) + 1, 0 for no increment (R161). -/
def peakCode (f : Int) : Nat := if f = 0 then 0 else Nat.log2 (f.natAbs ^ 16) + 1

/-- A sum of squares in its stored form (R161). -/
def sumsqGo (v : Nat) : Nat → Nat → Nat
  | 0, _ => 15 * 4096 + 4095
  | k + 1, e =>
    let m := (2 * v + 4 ^ e) / (2 * 4 ^ e)
    if m ≤ 4095 then e * 4096 + m else sumsqGo v k (e + 1)

/-- The detectors (R161); a RESTART sets ENV itself. -/
def detect (m : HdlMode) (c : CellIn) (f : Int) (shift : Nat) (q : Quad) : Quad :=
  if m = .dark then { q with quality := 0 }
  else
    { q with
      quality := minN q.quality c.quality, sat := q.sat || c.sat, seam := q.seam || c.seam,
      peak := maxN q.peak (peakCode f), sumsq := sumsqGo (sumsqVal q.sumsq + f.natAbs ^ 2) 16 0,
      env := if m = .restart then q.env
        else ((q.env : Int) + Int.tdiv ((c.mag : Int) - (q.env : Int)) (2 ^ shift : Int)).toNat }

/-- The detectors of a RESTART are set anew (R158). -/
def restartSet (c : CellIn) (q : Quad) : Quad :=
  { q with integ := 0, peak := 0, sumsq := 0, env := c.mag, quality := 1, sat := c.sat, seam := c.seam }

/-- One cell's update: the filtered increment that counts for the notice and the replay value, the fine output words and the new quad
(R152 to R161). `n` is N of the first closed interval. -/
def cellUpdate (c : CellIn) (bare r151 dropped : Bool) (sp : SpanInfo) (cfg : List Nat) (period shift n : Nat) (q0 : Quad) :
    HdlMode × Int × List Nat × Quad :=
  let rank := cfg.getD 2 0
  let qhold := maxN 2 (cfg.getD 3 0)
  let m := hdlMode c bare r151 q0 sp period
  let f := filtInc m rank qhold c q0
  let forced := sp.gap || dropped || decide (m = .restart) || decide (m = .reference)
  let prev := sp.prev.getD sp.tn
  let (ws, q, got) := dumpGo forced f prev sp.tn qhold sp.points n q0 0
  if sp.gap then
    (.restart, 0, ws, detect .restart c 0 shift (restartSet c (histStep .restart c 0 q)))
  else
    let q := forceQ forced (addInteg q (f * 65536 - got))
    let q := histStep m c f q
    let q := if m = .restart then restartSet c q else q
    (m, f, ws, detect m c f shift q)

/-! ### Notices, markers and frames (R162, R165, R166) -/

/-- The fast notice of an update, where it raises one (R165). -/
def noticeOf (c : CellIn) (m : HdlMode) (f : Int) (cell n : Nat) (cfg : List Nat) : Option Nat :=
  let thr := maxN 1 (cfg.getD 0 0)
  if cfg.getD 5 0 = 1 ∧ f ≠ 0 ∧ thr ≤ 32768 ∧ thr ≤ f.natAbs then
    some (place cell 23 25 + place (storeInc f) 7 16 + place (b2n c.sat) 6 1 + place (b2n c.seam) 5 1
      + place (b2n (decide (m = .fill ∨ m = .long ∨ cfg.getD 2 0 = 3))) 4 1 + place n 0 4)
  else none

/-- A port's Heddle state is changed. -/
def onHdl (p : Nat) (f : HdlPort → HdlPort) (s : State) : State :=
  { s with heddle := { s.heddle with ports := s.heddle.ports.put {} p (f (s.heddle.ports.get {} p)) } }

/-- A port's Heddle state. -/
def hdlOf (p : Nat) (s : State) : HdlPort := s.heddle.ports.get {} p

/-- A notice is pushed or discarded (R165). -/
def noticePush (y : PortPick) (n w : Nat) (s : State) : PortPick × State :=
  let p := y.port
  let cap := y.hdlCfg.getD 4 0
  let h := hdlOf p s
  if h.markHeld.isNone ∧ 2 ≤ qRoom p s ∧ (cap = 0 ∨ y.notices < cap) then
    ({ y with notices := y.notices + 1, noticed := true }, pushItems p (y.hdlCfg.getD 1 0) [w] s)
  else
    ({ y with noticed := true },
      bump HDL_CNT_NOTE_DROP p (onHdl p (fun h => { h with
        discarded := h.discarded + 1, markHeld := h.markHeld.map (fun _ => n) }) s))

/-- A pick marker (R166). -/
def markerOf (n discarded : Nat) : Nat := place 0x1FFFFFF 23 25 + place (minN discarded 65535) 7 16 + place n 0 7

/-- The marker after a pick's last cell: pushed, or held (R166). -/
def pickMarker (y : PortPick) (n : Nat) (s : State) : State :=
  let p := y.port
  let h := hdlOf p s
  if !y.noticed then s
  else if h.markHeld.isNone ∧ 1 ≤ qRoom p s then
    pushItems p (y.hdlCfg.getD 1 0) [markerOf n h.discarded] (onHdl p (fun h => { h with discarded := 0 }) s)
  else onHdl p (fun h => { h with markHeld := some n }) s

/-- TAI of a raw time that may lie before the first (R34). -/
def taiOfZ (raw : Int) (s : State) : Int :=
  ratRound (s.tod.tU + ((raw : Rat) - (s.tod.rawU : Rat)) * (1 + freqOf s + s.tod.slew))

/-- The header of a frame (R371): `ns` gives N of each closed interval. -/
def frameHeader (p : Nat) (sp : SpanInfo) (ns : List Nat) (s : State) : List Nat :=
  let g := sp.points.head?.getD 0
  [place p 44 4 + place (sp.points.length - 1) 42 2 + place (b2n sp.gap) 41 1
      + sumN ((List.range 4).map (fun i => place (minN 1023 (ns.getD i 0)) (30 - 10 * i) 10)),
    ux 48 (sp.first - 1), tsHigh (taiOfZ g s) true s, tsLow (taiOfZ g s) srcNone]

/-- The launch stamp of a port's pick as timestamp words, SYNTH where there is none (R28, R380). -/
def launchStamp (y : PortPick) (s : State) : Nat × Nat :=
  match y.stamp with
  | some t => (tsHigh (taiOf t s) false s, tsLow (taiOf t s) y.port)
  | none => (tsHigh (taiOf y.launchRaw s) true s, tsLow (taiOf y.launchRaw s) srcNone)

/-- As many of a waiting update's items as its queue accepts are pushed at priority 8 (R162, R163). -/
def pushWaiting (p : Nat) (w : HdlWait) (s : State) : HdlWait × State :=
  let k := minN (qRoom (16 + p) s) w.items.length
  ({ w with items := w.items.drop k }, if k = 0 then s else pushItems (16 + p) 8 (w.items.take k) s)

/-- The part of a pick, by its tick, that an update of a port belongs to. -/
def hdlPart (p tick : Nat) (s : State) : Option (PickCtx × PortPick) :=
  s.trd.picks.findSome? (fun x => if x.tick = tick then (x.ports.find? (fun y => decide (y.port = p ∧ y.kind = 1))).map (fun y => (x, y))
    else none)

/-- After a pick's last cell: the marker, the replay header, the histories of the port (R155, R159, R166, R394). N of R159 counts the picks
of the present run alone (DESIGN CHOICE, log entry 105). -/
def hdlPickEnd (tick n : Nat) (y : PortPick) (s : State) : State :=
  let p := y.port
  let kl := (spanOf y (prevOf (hdlOf p s) y) s).last
  let s := pickMarker y n s
  let (hi, lo) := launchStamp y s
  let s := rplPickEnd p n hi lo (lineIdx p y.line) s
  let s := onHdl p (fun h => { h with
    tPrev := some (y.stamp.getD y.launchRaw), prevEpoch := y.epoch,
    cnt := if h.prevEpoch = y.epoch ∧ h.cntK = some kl then h.cnt + 1 else 1, cntK := some kl }) s
  tickHandlersDue (some tick) (setPart tick { y with hdlDone := true } s)

/-- An update that has pushed its items ends: the quad is written, the notice leaves with it, the value goes to the replay windows. -/
def hdlFinish (p : Nat) (w : HdlWait) (stalled : Bool) (s : State) : State :=
  match hdlPart p w.tick s with
  | none => onHdl p (fun h => { h with wait := none }) s
  | some (x, y) =>
    let s := onHdl p (fun h => { h with wait := none }) s
    let s := warpStoreQuad w.quadAt (w.quad.map encodeWord) s
    let (y, s) := match w.notice with
      | some d => noticePush y w.pick d s
      | none => (y, s)
    let s := rplCell p w.cell w.pick w.value stalled s
    let s := setPart x.tick y s
    if rd GAU_SPAN_CELLS p s ≤ w.cell + 1 then hdlPickEnd x.tick w.pick y s else s

/-- A waiting update goes on: it ends once its last item is pushed. -/
def hdlResume (p : Nat) (w : HdlWait) (stalled : Bool) (s : State) : State :=
  let (w, s) := pushWaiting p w s
  if w.items.isEmpty then hdlFinish p w stalled s else onHdl p (fun h => { h with wait := some w }) s

/-- A gap is counted, raises event 251 and posts its record, once for the port's pick (R160). -/
def hdlGap (p n : Nat) (sp : SpanInfo) (s : State) : State :=
  raise 251 (eventRecord 0x05 251 (place p 20 4) n (ux 48 sp.first) (ux 48 (sp.last - 1)) (bump HDL_CNT_GAPS p s))

/-- The update of the cell whose result stands first in a port's FIFO. -/
def hdlUpdate (p : Nat) (e : CellRes) (y : PortPick) (stalled : Bool) (s : State) : State :=
  let h := hdlOf p s
  let s := onHdl p (fun h => { h with fifo := h.fifo.drop 1, fifoLen := if e.lost then h.fifoLen else h.fifoLen - 1 }) s
  let quadAt := rd GAU_SHAPE_BASE p s + e.cell
  let (rs, s) := warpReadQuad reqHDL quadAt s
  let bare := rs.any (fun r => r.isBare || decide (r = .bad))
  let v := fun (i : Nat) => if bare then 0 else ((rs.drop i).head?.map (·.data)).getD 0
  let sp := spanOf y (prevOf h y) s
  let s := if sp.gap && decide (e.cell = 0) then hdlGap p e.pick sp s else s
  let n := if h.prevEpoch = y.epoch ∧ h.cntK = some (sp.first - 1) then h.cnt else 0
  let c := cellIn e.word
  let (m, f, ws, q) := cellUpdate c bare y.r151 (y.forced && sp.prev.isSome) sp y.hdlCfg y.period (rd HDL_CTL_ENV_SHIFT 0 s) n
    (quadOf (v 0) (v 1) (v 2) (v 3))
  let head := if e.cell = 0 ∧ ws ≠ [] then frameHeader p sp [n] s else []
  let value := place (storeInc f) 32 16 + place c.mag 16 16 + place c.quality 10 6 + e.word % 16
  hdlResume p { items := head ++ ws, quadAt := quadAt, quad := q.words,
                notice := noticeOf c m f quadAt e.pick y.hdlCfg, value := value, pick := e.pick, tick := e.tick, cell := e.cell } stalled s

/-- HEDDLE_UPDATE: the update of the next cell of a port; `stalled` says that the replay writer is held up meanwhile (R395). -/
def execHeddleUpdate (p : Fin 16) (stalled : Bool) (s : State) : Res :=
  let h := hdlOf p s
  if h.wait.isSome then .next s
  else match h.fifo with
    | [] => .next s
    | e :: _ => match hdlPart p e.tick s with
      | none => .next (onHdl p (fun h => { h with fifo := h.fifo.drop 1, fifoLen := if e.lost then h.fifoLen else h.fifoLen - 1 }) s)
      | some (_, y) => .next (hdlUpdate p e y stalled s)

/-- HEDDLE_UPDATE_RESUME: an update that waits for its queue pushes what the queue accepts (R163). -/
def execHeddleUpdateResume (p : Fin 16) (stalled : Bool) (s : State) : Res :=
  match (hdlOf p s).wait with
  | none => .next s
  | some w => .next (hdlResume p w stalled s)

/-- PICK_MARKER_PUSH: a held pick marker is pushed once its queue can accept it (R166). -/
def execPickMarkerPush (p : Fin 16) (s : State) : Res :=
  let h := hdlOf p s
  match h.markHeld with
  | none => .next s
  | some n =>
    if qRoom p s = 0 then .next s
    else .next (pushItems p (rdI HDL_PORT_CFG_FAST_PRI p s) [markerOf n h.discarded]
      (onHdl p (fun h => { h with markHeld := none, discarded := 0 }) s))

end Sys2Proof.Machine
end

