-- ==== Sys2Proof/Machine/Spectral.lean ====
section
/-!
DEFINITION. Spectral cells (chapter 06): the spectra of R101 to R104, staging, stripe notices, fit outcomes and flushes, and the
unit's own register windows.
-/

set_option autoImplicit false

namespace Sys2Proof.Machine

/-! ### Spectra (R101 to R103) -/

/-- cos(2π · m / 128) for m from 0 to 32, scaled by 2^64 and rounded. -/
def cosTable : List Nat :=
  [18446744073709551616, 18424524162600791837, 18357917958986607856, 18247085923045520652] ++
  [18092295058859852118, 17893918271179503955, 17652433467061752556, 17368422404551288317] ++
  [17042569291174129989, 16675659135621764998, 16268575856596453010, 15822300153373650055] ++
  [15337907143211554842, 14816563771299464606, 14259525999484601767, 13668135780550014705] ++
  [13043817825332782212, 12388076170470817045, 11702490555046867136, 10988712614858696456] ++
  [10248461903483781989, 9483521749724130485, 8695734961410993272, 7886999385919389870] ++
  [7059263338087549767, 6214520906555814904, 5354807149832443555, 4482193193659413855] ++
  [3598781241489102189, 2706699510092035141, 1808097102496279522, 905138830610008563] ++
  [0]

/-- cos(2π · m / 128), scaled by 2^64. -/
def cos128 (m : Nat) : Int :=
  let r := m % 128
  if r ≤ 32 then (cosTable.getD r 0 : Int)
  else if r ≤ 64 then -(cosTable.getD (64 - r) 0 : Int)
  else if r ≤ 96 then -(cosTable.getD (r - 64) 0 : Int)
  else (cosTable.getD (128 - r) 0 : Int)

/-- sin(2π · m / 128), scaled by 2^64. -/
def sin128 (m : Nat) : Int := cos128 (m + 96)

/-- The window sample n in units of 2^−16 (R102). -/
def winAt (win len n : Nat) : Int :=
  if win = 0 then 65536
  else divRound (2 ^ 64 - cos128 ((2 * n + 1) * (64 / len))) (2 ^ 49)

/-- One bin's power sum of one polarisation before scaling: the squared magnitude of Σ w[n] · x[n] · exp(−j2πkn/64), scaled by
2^160; `k` is taken modulo 64. -/
def binSum (win len k : Nat) (xs : List Sample) : Nat :=
  let terms := (List.zip (List.range len) xs).map (fun e =>
    let c := cos128 (2 * k * e.1)
    let d := sin128 (2 * k * e.1)
    let w := winAt win len e.1
    (w * (e.2.i * c + e.2.q * d), w * (e.2.q * c - e.2.i * d)))
  normSq (terms.foldl (fun (z : Int × Int) t => (z.1 + t.1, z.2 + t.2)) (0, 0))

/-- A bin of R103: saturated at its limit, else within 2^−16 of the exact value, relative, plus 1 LSB; the difference is a free value of the
pick, the cell and the bin (log entry 1). -/
def binValue (free c b sum pshift : Nat) : Nat × Bool :=
  let p := (divRound (sum : Int) (2 ^ (172 + pshift))).toNat
  if 4294967295 < p then (4294967295, true)
  else
    let lo := p - (p / 65536 + 1)
    let hi := minN 4294967295 (p + p / 65536 + 1)
    (lo + Config.free (free + 56 * c + b) % (hi - lo + 1), false)

/-- What the Reed delivers of one spectral cell: 56 bins and the marks of R104. -/
structure SpcCellOut where
  bins : List Nat
  sat : Bool
  seam : Bool
  beyond : Bool
deriving DecidableEq, Repr

/-- The spectral cell at position `c` of the stripe, its segment beginning at shed sample `sc`. -/
def spcCell (y : PortPick) (c sc first : Nat) (codes : Codes) : SpcCellOut :=
  let len := segLen (y.redCfg.getD 0 0)
  let win := y.redCfg.getD 1 0
  let xs := samplesOf y first codes 0 sc len
  let ys := samplesOf y first codes 1 sc len
  let bins := (List.range 56).map (fun b =>
    binValue y.freeBase c b (binSum win len (b + 36) xs + binSum win len (b + 36) ys) (y.redCfg.getD 2 0))
  { bins := bins.map (·.1), sat := xs.any (·.sat) || ys.any (·.sat) || bins.any (·.2),
    seam := xs.any (·.interp) || ys.any (·.interp), beyond := decide (y.shed < sc + len) }

/-! ### Staging (R184 to R187) -/

/-- The Warp word of bin b of a stripe position. -/
def binWord (p c b : Nat) : Nat := 0x1000000 + 56 * (4096 * p + c) + b

/-- The Warp word of result word i, 56 to 63, of a stripe position. -/
def resWord (p c i : Nat) : Nat := 0x1380000 + 8 * (4096 * p + c) + (i - 56)

/-- A pick's staging work is over. -/
def spcPickEnd (tick : Nat) (y : PortPick) (s : State) : State :=
  tickHandlersDue (some tick) (setPart tick { y with spcDone := true } s)

/-- The first staged cell of a pick settles what the pick does with the area: it begins the stripe at the line's cursor, adds to it, discards
another (R185). That it stages and counts nothing where it finds the area FITTING or FLUSHING is DESIGN CHOICE, log entry 102: R185 has no
such case. The stripe is that of the line's cursor at this moment (log entry 96). The flag says that each bin is written, not added. -/
def spcBegin (y : PortPick) (k0 : SpcKey) (s : State) : Option PortPick × State :=
  let p := y.port
  let a := areaOf p s
  let k := { k0 with stripe := (spcLine k0.line s).curStripe }
  let cells := stripeCells (spcLine k.line s) k.stripe
  let fresh : SpcArea := { state := 1, key := some k, cells := cells }
  let y' := { y with spcBegun := true, spcCells := cells, key := some k }
  if a.state = 0 then (some { y' with spcFirst := 1 }, setArea p fresh s)
  else if a.state = 1 then
    if a.key = some k then (some y', s)
    else (some { y' with spcFirst := 1 }, setArea p fresh (discardPartial p s))
  else (none, s)

/-- Word 63 of the record (R189), FITTED and NOFIT 0. -/
def recWord63 (k : SpcKey) (count : Nat) (sat seam beyond : Bool) : Nat :=
  place k.line 41 7 + place k.lo 35 6 + place count 19 16 + place (b2n sat) 18 1 + place (b2n seam) 17 1
    + place (b2n beyond) 16 1 + place k.seg 14 2 + place k.stripe 0 12

/-- What spectral staging takes of a word: an uncorrectable one counts as zero and sets SAT of its cell (R303). -/
def spcTake (r : WRead) : Nat × Bool := if r = .bad then (0, true) else (r.data, false)

/-- One bin is written, or added to what is stored; the answer says whether that was uncorrectable. -/
def stageBin (p c : Nat) (fresh : Bool) (e : Nat × Nat) (s : State) : Bool × State :=
  if fresh then (false, warpWrite (binWord p c e.1) e.2 s)
  else
    let (r, s) := warpRead reqSPC (binWord p c e.1) s
    ((spcTake r).2, warpWrite (binWord p c e.1) (((spcTake r).1 + e.2) % 2 ^ 48) s)

/-- One cell is staged (R185). -/
def stageCell (y : PortPick) (k : SpcKey) (n : Nat) (o : SpcCellOut) (s : State) : State :=
  let p := y.port
  let c := y.spcNext
  let fresh := decide (y.spcFirst = 1)
  let (bad, s) := (List.zip (List.range 56) o.bins).foldl (fun (acc : Bool × State) e =>
    let (b, s) := stageBin p c fresh e acc.2
    (acc.1 || b, s)) (false, s)
  let (hi, lo) := launchStamp y s
  let (old, s) := if fresh then (0, s) else
    let (r, s) := warpRead reqSPC (resWord p c 63) s
    (setBitTo (spcTake r).1 18 ((spcTake r).2 || bitOf (spcTake r).1 18), s)
  let w := recWord63 k ((areaOf p s).count + 1) (o.sat || bad || bitOf old 18) (o.seam || bitOf old 17) (o.beyond || bitOf old 16)
  let s := warpWrite (resWord p c 60) (n % 2 ^ 48) s
  warpWrite (resWord p c 63) w (warpWrite (resWord p c 62) lo (warpWrite (resWord p c 61) hi s))

/-- FIT_Q and DONE_Q as acted on (R197). -/
def fitQ (s : State) : Nat := maxN 64 (rd SPC_CTL_FIT_Q 0 s)
def doneQ (s : State) : Nat := maxN 64 (rd SPC_CTL_DONE_Q 0 s)

/-- The stripe notice (R187). -/
def stripeNotice (p : Nat) (k : SpcKey) (cells : Nat) (s : State) : List Nat :=
  [place p 44 4 + place k.line 37 7 + place k.stripe 25 12 + place cells 12 13 + place k.lo 6 6,
    place ((spcLine k.line s).baseS + (spcLine k.line s).sc * k.stripe) 23 25,
    place (rd SPC_COEF_BASE_COEF_BASE 0 s + 16 * k.line) 0 25,
    place (slice k.lo0 24 1) 24 1 + place k.lo0 0 24]

/-- A line's cursor moves on from a complete stripe; the answer says whether that completes a sweep (R187). -/
def cursorNext (j stripe : Nat) (s : State) : Bool × State :=
  let x := spcLine j s
  let last := decide (spcStripes x ≤ stripe + 1)
  (last, setSpcLine j { x with curStripe := if last then 0 else stripe + 1, curCount := 0 } s)

/-- An area enters FLUSHING behind those that did before (R188). -/
def toFlushing (p : Nat) (fitted : Bool) (s : State) : State :=
  let s := setArea p { areaOf p s with state := 3, fitted := fitted, nofit := !fitted, timeout := none } s
  { s with spc := { s.spc with flushQ := s.spc.flushQ ++ [p] } }

/-- A stripe's last pick is staged (R187). A notice for which FIT_Q has no room is not pushed; the stripe then ends by timeout (log entry
41). -/
def stripeComplete (p n : Nat) (k : SpcKey) (s : State) : State :=
  let (sweep, s) := cursorNext k.line k.stripe s
  let a := areaOf p s
  let s := setArea p { a with sweep := sweep, pick := n } s
  let s := (List.range a.cells).foldl (fun s c => (List.range 4).foldl (fun s i => warpWrite (resWord p c (56 + i)) 0 s) s) s
  if rdB SPC_CTL_FIT_EN 0 s then
    let s := setArea p { areaOf p s with state := 2, timeout := some (s.now + maxN 1 (rd SPC_CTL_FIT_TMO 0 s) * ccMs) } s
    if 4 ≤ qRoom (fitQ s) s then pushItems (fitQ s) 8 (stripeNotice p k a.cells s) s else s
  else toFlushing p false s

/-- After the last cell of a pick (R186, R187). -/
def stripeCount (p n : Nat) (k : SpcKey) (s : State) : State :=
  let a := areaOf p s
  let s := setArea p { a with count := a.count + 1, pick := n } s
  let x := spcLine k.line s
  let s := setSpcLine k.line { x with curCount := a.count + 1 } s
  if x.accum ≤ a.count + 1 then stripeComplete p n k s else s

/-- The oldest launched spectral pick of a port whose staging is not over. -/
def spcDue (p : Nat) (s : State) : Option (PickCtx × PortPick) :=
  s.trd.picks.findSome? (fun x => (x.ports.find? (fun y =>
    decide (y.port = p ∧ y.kind = 2) && !y.spcDone)).map (fun y => (x, y)))

/-- The saturated samples of a spectral pick's shed up to a sample are counted (R79). -/
def spcSat (y : PortPick) (upto first : Nat) (codes : Codes) (s : State) : PortPick × State :=
  satCounts y (samplesOf y first codes 0 y.satNext (upto - y.satNext)) (samplesOf y first codes 1 y.satNext (upto - y.satNext)) [] []
    y.satNext upto s

/-- A pick stages nothing more; the rest of its shed is still delivered and counted (R79). It delivers no further bins and counts no SAT_OUT
(DESIGN CHOICE, log entry 102). -/
def spcGiveUp (tick : Nat) (y : PortPick) (first : Nat) (codes : Codes) (s : State) : State :=
  let (y, s) := spcSat y y.shed first codes s
  spcPickEnd tick y s

/-- The next cell of a pick is formed and staged; the area must still hold the pick's stripe. -/
def spcStage (n tick : Nat) (y : PortPick) (k : SpcKey) (first : Nat) (codes : Codes) (s : State) : State :=
  let p := y.port
  let a := areaOf p s
  if a.state ≠ 1 ∨ a.key ≠ some k ∨ a.cells ≤ y.spcNext then spcGiveUp tick y first codes s
  else
    let x := spcLine k.line s
    let sc := x.firstS + (x.sc * k.stripe + y.spcNext) * x.kS
    let o := spcCell y y.spcNext sc first codes
    let s := stageCell y k n o s
    let s := if o.sat then bump RED_PORT_STAT_SAT_OUT p s else s
    let upto := if a.cells ≤ y.spcNext + 1 then y.shed else minN y.shed (sc + segLen (y.redCfg.getD 0 0))
    let (y, s) := spcSat y upto first codes s
    let y := { y with spcNext := y.spcNext + 1 }
    if a.cells ≤ y.spcNext then stripeCount p n k (spcPickEnd tick y s) else setPart tick y s

/-- SPECTRAL_CELL_STAGE: the converter codes of a cell's segment, from shed sample `first` on, in; the cell's bins and marks staged. -/
def execSpectralCellStage (p : Fin 16) (first : Nat) (codes : List (BitVec 56)) (s : State) : Res :=
  match spcDue p s with
  | none => .next s
  | some (x, y) => match y.key with
    | none => .next s
    | some k =>
      if y.spcBegun then .next (spcStage x.n x.tick y k first codes s)
      else match spcBegin y k s with
        | (some y, s) => .next (spcStage x.n x.tick y (y.key.getD k) first codes (setPart x.tick y s))
        | (none, s) => .next (spcGiveUp x.tick y first codes s)

/-! ### Fitting and flushing (R188) -/

/-- The port in FITTING that a done item names, unless its timeout has come. -/
def fitMatch (d : Nat) (s : State) : Option Nat :=
  (List.range 16).find? (fun p =>
    let a := areaOf p s
    decide (a.state = 2 ∧ slice d 44 4 = p ∧ a.key.map (fun k => (k.line, k.stripe)) = some (slice d 37 7, slice d 25 12))
      && (match a.timeout with
        | some t => decide (s.now < t)
        | none => true))

/-- FIT_DONE_ITEM: the unit reads DONE_Q. -/
def execFitDoneItem (s : State) : Res :=
  match popItem (doneQ s) s with
  | (none, s) => .next s
  | (some (_, d), s) => match fitMatch d s with
    | some p => .next (toFlushing p true s)
    | none => .next (violate blkSPC 0x08 .device 0 d (doneQ s) s)

/-- FIT_TIMEOUT: FIT_TMO ms have passed since the notice of a port's stripe. -/
def execFitTimeout (p : Fin 16) (s : State) : Res :=
  let a := areaOf p s
  match a.timeout with
  | some t => if a.state = 2 then
      .next (raise 252 (bump SPC_CNT_TIMEOUTS p (toFlushing p false (advanceTo t s)))) else .next s
  | none => .next s

/-- The 64 words of a stripe position as the unit reads them, with FITTED and NOFIT in word 63, and SAT when one of them is uncorrectable
(R189, R303). -/
def recordWords (p c : Nat) (fitted : Bool) (s : State) : List Nat × State :=
  let places := (List.range 56).map (fun b => binWord p c b) ++ (List.range 8).map (fun i => resWord p c (56 + i))
  let (ws, bad, s) := places.foldl (fun (acc : List Nat × Bool × State) a =>
    let (r, s) := warpRead reqSPC a acc.2.2
    ((spcTake r).1 :: acc.1, acc.2.1 || (spcTake r).2, s)) ([], false, s)
  let ws := ws.reverse
  let w63 := ws.getD 63 0
  (ws.take 63 ++ [setBitTo (setBitTo (setBitTo w63 18 (bad || bitOf w63 18)) 13 fitted) 12 (!fitted)], s)

/-- The system byte address of a cell's record. -/
def recordAt (cell : Nat) (s : State) : Nat := 4096 * rd SPC_REC_BASE_REC_BASE 0 s + 384 * (cell - 0x400000)

/-- One record is written to SDRAM; the answer is its words 56 to 59. A cell below the records' range has no record (log entry 42), and
one outside the declared regions is not written (R400). -/
def flushRecord (p : Nat) (fitted : Bool) (cell c : Nat) (s : State) : List Nat × State :=
  let (ws, s) := recordWords p c fitted s
  ((ws.drop 56).take 4,
    if cell < 0x400000 ∨ !(insideRegions (recordAt cell s) 384 s) then s else dramWriteWords (recordAt cell s) ws s)

/-- Whether the flush of cells falls outside the declared regions. -/
def flushOutside (cell n : Nat) (s : State) : Bool :=
  (List.range n).any (fun i => decide (0x400000 ≤ cell + i) && !(insideRegions (recordAt (cell + i) s) 384 s))

/-- The header of the result frame (R372). -/
def spcHeader (p : Nat) (a : SpcArea) (k : SpcKey) (cell : Nat) : List Nat :=
  [place p 44 4 + place k.line 37 7 + place k.stripe 25 12 + place a.cells 12 13 + place k.lo 6 6
      + place (b2n a.sweep) 5 1 + place (b2n a.fitted) 4 1 + place (b2n a.nofit) 3 1,
    a.pick % 2 ^ 48, place cell 23 25]

/-- STRIPE_FLUSH_START: the first area that entered FLUSHING is written out, once no other is. The cells and the records' places come from
the line's geometry as it then stands, also where that was rewritten since the stripe was staged (DESIGN CHOICE, log entry 96). A flush
outside the declared regions is one violation a stripe (R400); in HOLD it waits. -/
def execStripeFlushStart (s : State) : Res :=
  match s.spc.flush, s.spc.flushQ with
  | none, p :: t =>
    if devState s = stHOLD then .next s else
    let a := areaOf p s
    match a.key with
    | none => .next { s with spc := { s.spc with flushQ := t } }
    | some k =>
      let x := spcLine k.line s
      let cell := x.baseS + x.sc * k.stripe
      let s := if flushOutside cell a.cells s then violate blkDRM 0x0F .device 0 0 0 s else s
      let (ws, s) := (List.range a.cells).foldl (fun (acc : List (List Nat) × State) c =>
        let (w, s) := flushRecord p a.fitted (cell + c) c acc.2
        (w :: acc.1, s)) ([], s)
      .next { s with spc := { s.spc with
        flushQ := t, flush := some { port := p, items := spcHeader p a k cell ++ ws.reverse.flatten } } }
  | _, _ => .next s

/-- STRIPE_FRAME_PUSHED: the frame's items enter queue 32 + p as it accepts them; after the last one the area is IDLE. -/
def execStripeFramePushed (s : State) : Res :=
  match s.spc.flush with
  | none => .next s
  | some f =>
    let q := 32 + f.port
    let k := minN (qRoom q s) f.items.length
    let s := if k = 0 then s else pushItems q 8 (f.items.take k) s
    let rest := f.items.drop k
    if rest.isEmpty then
      .next (bump SPC_CNT_STRIPES f.port (setArea f.port {} { s with spc := { s.spc with flush := none } }))
    else .next { s with spc := { s.spc with flush := some { f with items := rest } } }

/-! ### Register windows (R181, R197) -/

/-- An access to SPC_LO_DATA advances the address (R197, R578). -/
def spcLoAdvance (s : State) : State :=
  let k := (2 * rd SPC_LO_ADDR_ENTRY 0 s + rd SPC_LO_ADDR_WORD 0 s + 1) % 128
  wr SPC_LO_ADDR_WORD 0 (k % 2) (wr SPC_LO_ADDR_ENTRY 0 (k / 2) s)

/-- An access to SPC_LO_DATA: a write is in force at once when not WEAVING, else staged, or held behind a prepared set (R178, R222). Bits
47 to 32 of word 0 stay zero. -/
def spcLoData (w : Option Qword) (s : State) : State :=
  let k := 2 * rd SPC_LO_ADDR_ENTRY 0 s + rd SPC_LO_ADDR_WORD 0 s
  spcLoAdvance <| match w with
    | none => s
    | some v =>
      let d := v.toNat % 2 ^ (if k % 2 = 0 then 32 else 48)
      if weaving s then
        if setPrepared s then holdWrite (.lo k d) s
        else { s with spc := { s.spc with loStg := s.spc.loStg.put 0 k d } }
      else { s with spc := { s.spc with lo := s.spc.lo.put 0 k d, loStg := s.spc.loStg.put 0 k d } }

/-- What SPC_LO_DATA shows: the staged word. -/
def spcLoShow (s : State) : Nat := s.spc.loStg.get 0 (2 * rd SPC_LO_ADDR_ENTRY 0 s + rd SPC_LO_ADDR_WORD 0 s)

/-- SPC_LO_DATA_ACCESS. -/
def execSpcLoDataAccess (w : Option (BitVec 64)) (s : State) : Res :=
  if s.sys.inReset then .next (resetAccess 8 w.isNone s) else
  match w with
  | some v => .next (spcLoData (some v) s)
  | none => .next (emit (.readData (BitVec.ofNat 64 (spcLoShow s))) (spcLoData none s))

/-- A write of SPC_LINE_SPAN (0), SPC_LINE_SHAPE (1) or SPC_LINE_STRIPE (2): only while the line's port is STOPPED or GATED; it resets
the line's cursor (R181). -/
def spcLineWrite (org : Origin) (r : Nat) (v : Qword) (s : State) : State :=
  let j := rd SPC_LINE_ADDR_LINE 0 s
  let n := v.toNat
  if !(portIdle (j / 8) s) then writeIgnored org (0x2838 + 8 * r) v s
  else
    let x := { spcLine j s with curStripe := 0, curCount := 0 }
    let x := if r = 0 then { x with firstS := slice n 24 24, cellsS := slice n 0 19 }
      else if r = 1 then { x with kS := slice n 41 7, accum := slice n 25 16, baseS := slice n 0 25 }
      else { x with sc := slice n 0 13 }
    setSpcLine j x s

/-- What SPC_LINE_SPAN, SPC_LINE_SHAPE and SPC_LINE_STRIPE show. -/
def spcLineShow (r : Nat) (s : State) : Nat :=
  let j := rd SPC_LINE_ADDR_LINE 0 s
  let x := spcLine j s
  if r = 0 then place x.firstS 24 24 + place x.cellsS 0 19
  else if r = 1 then place x.kS 41 7 + place x.accum 25 16 + place x.baseS 0 25
  else place x.curStripe 36 12 + place x.curCount 20 16 + place (b2n (spcGeomOk j s)) 13 1 + place x.sc 0 13

/-- SPC_LINE_WRITE. -/
def execSpcLineWrite (r : Fin 3) (v : BitVec 64) (s : State) : Res :=
  if s.sys.inReset then .next s else
  .next (spcLineWrite .pcie r v s)

end Sys2Proof.Machine
end

