-- ==== Sys2Proof/Machine/Tsu.lean ====
section
/-!
DEFINITION. The timestamp unit (chapter 15), launch stamps (R28, R432, R433) and the discipline of the time of day (R34 to R42).
-/

set_option autoImplicit false

namespace Sys2Proof.Machine

/-- The timestamp unit's state is changed. -/
def onTsu (f : Tsu → Tsu) (s : State) : State := { s with tsu := f s.tsu }

/-! ### Stamping (R449 to R451) -/

/-- The time of one run in cc (R518). -/
def runCc (kind : Nat) : Nat := if kind = 0 then 120000000 else if kind = 1 then 104857600 else if kind = 3 then 40000000 else 0

/-- When the runs of a pair that are still to come end, if they follow at once; a replica's run has no length of its own. -/
def runsEnd (c : CalPair) : Nat := c.since + (if c.first.isSome then 1 else 2) * runCc c.kind

/-- Whether a run of a pair is in progress. -/
def running (c : CalPair) (s : State) : Bool := c.second.isNone && (decide (c.kind = 2) || decide (s.now < runsEnd c))

/-- Whether a line's input is switched to CALCLK: during the two runs of bring-up (R453, R542). In service the spare takes the input's
place. -/
def onCalclk (l : Nat) (s : State) : Bool := s.cal.pairs.any (fun c => decide (c.kind = 1 ∧ c.idx = l) && c.boot && running c s)

/-- The cycle of a line's last input edge of any kind, stamped or not (R453). -/
def noteEdge (l : Nat) (s : State) : State := onTsu (fun t => { t with seen := t.seen.put 0 l s.now }) s

/-- The line that serves a line's input: the spare while it stands in (R453). -/
def servingLine (l : Nat) (s : State) : Nat := if rd TSU_STAT_SPARE_FOR 0 s = l then 28 else l

/-- The raw time of an edge on a line whose last reached tap at core-clock edge `k` is `tap` (R450), without an input's trim. -/
def edgeRaw (l k tap : Nat) (s : State) : Int :=
  256 * (k : Int) - divRound ((s.tsu.maps.get 0 (512 * servingLine l s + tap) : Nat) : Int) 4

/-- An edge on a line: its raw time when the line stamps it, none in the dead time after the line's last stamped edge (R451). -/
def lineEdge (l k tap : Nat) (s : State) : Option Nat × State :=
  let raw := (edgeRaw l k tap s).toNat
  let last := s.tsu.last.get 0 l
  if last ≠ 0 ∧ raw + 1 < last + 640 then (none, s)
  else (some raw, onTsu (fun t => { t with last := t.last.put 0 l (raw + 1) }) s)

/-- Whether an input stamps an edge of a direction (R449, R466). -/
def edgeWanted (i : Nat) (fall : Bool) (s : State) : Bool :=
  if i ≤ 16 then !fall
  else
    let e := rd TSU_IN_EDGE i s
    rdB TSU_IN_EN i s && (if e = 1 then fall else if e = 2 then true else !fall)

/-- The edge of an input: its stamp with the input's trim, counted; an edge in the dead time counts in DEAD (R450, R451). -/
def inputEdge (i k tap : Nat) (fall : Bool) (s : State) : Option Nat × State :=
  if edgeWanted i fall s then
    match lineEdge i k tap s with
    | (none, s) => (none, bump TSU_IN_CNT_DEAD i s)
    | (some raw, s) => (some ((raw : Int) - rdZ TSU_IN_DELAY i s).toNat, bump TSU_IN_CNT_STAMPS i s)
  else (none, s)

/-- Event 217, at most once in 1 ms (R461). -/
def overEvent (s : State) : State :=
  let due := match s.tsu.overAt with
    | some t => decide (t + ccMs ≤ s.now)
    | none => true
  if due then raise 217 (onTsu (fun x => { x with overAt := some s.now }) s) else s

/-- A stamp waits for its window decision, unless its input's buffer is full (R452). -/
def stampBuffer (x : Stamp) (s : State) : State :=
  if !(rdB TSU_IN_DELIVER x.input s) then s
  else if 16 ≤ (s.tsu.stamps.filter (fun y => decide (y.input = x.input))).length then
    overEvent (bump TSU_IN_CNT_OVER x.input s)
  else onTsu (fun t => { t with stamps := t.stamps ++ [x] }) s

/-! ### Launch stamps (R28, R432, R433) -/

/-- Whether a launch-monitor stamp lies in a launch's window. -/
def inLaunch (p raw : Nat) (y : PortPick) : Bool := decide (y.port = p ∧ y.launchRaw ≤ raw ∧ raw < y.windowEnd)

/-- A launch-monitor stamp: the first in a launch's window is the launch's stamp and ends the run of missing ones; one in no window is
spurious (R432, R433). -/
def launchEdge (p raw : Nat) (s : State) : State :=
  if s.trd.picks.any (fun x => x.ports.any (inLaunch p raw)) then
    wr SRC_MON_RUN p 0 (mapParts (fun _ y => if inLaunch p raw y && y.stamp.isNone then { y with stamp := some raw } else y) s)
  else
    let n := rd SYS_PICK_NUM_NUM 0 s
    let s := bump SRC_MON_SPURIOUS p s
    if s.src.spurious.get 0 p = n + 1 then s
    else raise 214 { s with src := { s.src with spurious := s.src.spurious.put 0 p (n + 1) } }

/-- The pick and launch of a port whose window closes first without a stamp. -/
def windowDue (p : Nat) (s : State) : Option (PickCtx × PortPick) :=
  s.trd.picks.findSome? (fun x => (x.ports.find? (fun y => decide (y.port = p) && y.windowOpen && y.stamp.isNone)).map (fun y => (x, y)))

/-- The RUN-th missing stamp in a row faults the port (R432). -/
def stampFault (p n : Nat) (s : State) : State :=
  let s := raise 208 (eventRecord 0x20 208 (place p 20 4) n (rd SRC_MON_MISSED p s) 0 (wr PRT_STAT_STAMP_FAULT p 1 s))
  if portSt p s = pRUNNING then portFault p s else s

/-- LAUNCH_WINDOW_END: a launch window of a port closes without a stamp; with MON_EN = 1 the launch is missing. The port faults when RUN
reaches MISS_M1 + 1, and at the next missing stamp when a lowered MISS_M1 has left RUN beyond it without a fault. -/
def execLaunchWindowEnd (p : Fin 16) (s : State) : Res :=
  match windowDue p s with
  | none => .next s
  | some (x, y) =>
    let s := setPart x.tick { y with windowOpen := false } (advanceTo (windowDecided y s) s)
    if rdB SRC_LAUNCH_MON_EN p s then
      let run := rd SRC_MON_RUN p s + 1
      let s := wr SRC_MON_RUN p (minN run 16) (bump SRC_MON_MISSED p s)
      let thr := rd SRC_CTL_MISS_M1 0 s + 1
      .next (if run = thr ∨ (thr < run ∧ rdB PRT_STAT_STAMP_FAULT p s = false) then stampFault p x.n s else s)
    else .next s

/-! ### Gates (R455 to R457) -/

/-- The windows of a gate. -/
def gateWins (g : Nat) (s : State) : List Window := s.tsu.gates.get [] g

/-- The windows of a gate are replaced. -/
def setGateWins (g : Nat) (l : List Window) (s : State) : State := onTsu (fun t => { t with gates := t.gates.put [] g l }) s

/-- Whether a stamp of an input lies in a window (R456). -/
def inWindow (i raw : Nat) (w : Window) : Bool :=
  bitOf w.inputs i && decide (w.open_ ≤ raw) && (match w.close with
    | some c => decide (raw < c)
    | none => true)

/-- The lowest-numbered gate with a window that holds a stamp, and that window's place among the gate's windows. -/
def winOf (i raw : Nat) (s : State) : Option (Nat × Nat) :=
  (List.range 4).findSome? (fun g =>
    ((List.range (gateWins g s).length).find? (fun k => ((gateWins g s).drop k).head?.any (inWindow i raw))).map (fun k => (g, k)))

/-- Whether a stamp lies within 2 units of a boundary of a window that tests its input (R456). -/
def edgeNear (i raw : Nat) (s : State) : Bool :=
  let near := fun (b : Nat) => decide (raw ≤ b + 2 ∧ b ≤ raw + 2)
  (List.range 4).any (fun g => (gateWins g s).any (fun w =>
    bitOf w.inputs i && (near w.open_ || (match w.close with
      | some c => near c
      | none => false))))

/-- The k-th member of a list is changed. -/
def setNth {α : Type} (f : α → α) : Nat → List α → List α
  | _, [] => []
  | 0, a :: t => f a :: t
  | k + 1, a :: t => a :: setNth f k t

/-- The timestamp words of a raw time (R35). -/
def rawStamp (raw src flags : Nat) (s : State) : Nat × Nat :=
  (tsHigh (taiOf raw s) false s, tsLow (taiOf raw s) src + flags)

/-- An event record of queue 56 whose time is given. -/
def eventRecordAt (kind ev p pick : Nat) (ts : Nat × Nat) (a b : Nat) (s : State) : State :=
  let lost := satU 8 (queueOf 56 s).lostRecs
  pushRecord 56 [place kind 40 8 + place ev 32 8 + place lost 24 8 + place p 0 24, pick % 2 ^ 48, ts.1, ts.2,
    a % 2 ^ 48, b % 2 ^ 48] s

/-- The stamps of one input beyond the limit of a window that closed at a raw time are reported (R462). -/
def overRecord (g i n close : Nat) (s : State) : State :=
  eventRecordAt 0x32 216 (place g 5 2 + place i 0 5) (rd SYS_PICK_NUM_NUM 0 s) (rawStamp close srcInternal 0 s) n 0 s

/-- A stamp that comes to its decision only after its window closed goes beyond the limit: a report of its own, and event 216 where the
close raised none (R457). -/
def lateOver (g i : Nat) (w : Window) (s : State) : State :=
  match w.close with
  | none => s
  | some c =>
    let s := overRecord g i 1 c s
    if w.beyond.isEmpty then raise 216 (bump TSU_GATE_STAT_OVER_WIN g s) else s

/-- A stamp counts against the limit of its window; the answer says whether it may be delivered (R457). -/
def windowTake (i g k : Nat) (s : State) : Bool × State :=
  match (gateWins g s).drop k with
  | [] => (true, s)
  | w :: _ =>
    if w.sent.get 0 i < 16 then
      (true, setGateWins g (setNth (fun w => { w with sent := w.sent.put 0 i (w.sent.get 0 i + 1) }) k (gateWins g s)) s)
    else
      (false, lateOver g i w <| bump TSU_IN_CNT_OVER i
        (setGateWins g (setNth (fun w => { w with beyond := w.beyond.put 0 i (w.beyond.get 0 i + 1) }) k (gateWins g s)) s))

/-- Whether `x` goes before `y` into queue 58 (R452). -/
def stampBefore (x y : Stamp) : Bool := decide (x.raw < y.raw ∨ (x.raw = y.raw ∧ x.input < y.input))

/-- The stamp that goes first. -/
def firstStamp : List Stamp → Option Stamp
  | [] => none
  | x :: t => match firstStamp t with
    | some y => if stampBefore y x then some y else some x
    | none => some x

/-- The stamps that still wait and lie in a gate's newest window beyond its limit are taken out when the window closes. -/
def settleWindow (g : Nat) (s : State) : State :=
  match gateWins g s with
  | [] => s
  | w :: _ =>
    s.tsu.stamps.foldl (fun s x =>
      if inWindow x.input x.raw w && decide (winOf x.input x.raw s = some (g, 0)) then
        let sent := match gateWins g s with
          | v :: _ => v.sent.get 0 x.input
          | [] => 0
        let mine := (s.tsu.stamps.filter (fun y => decide (y.input = x.input)
          && decide (winOf y.input y.raw s = some (g, 0)) && stampBefore y x)).length
        if sent + mine < 16 then s
        else
          onTsu (fun t => { t with stamps := t.stamps.filter (fun y => !(decide (y = x))) })
            (bump TSU_IN_CNT_OVER x.input (setGateWins g
              (setNth (fun v => { v with beyond := v.beyond.put 0 x.input (v.beyond.get 0 x.input + 1) }) 0 (gateWins g s)) s))
      else s) s

/-- The newest window of a gate closes at a raw time (R455, R457, R461). -/
def gateClose (g raw : Nat) (trunc : Bool) (s : State) : State :=
  match gateWins g s with
  | [] => s
  | w :: rest =>
    if w.close.isSome then s
    else
      let s := settleWindow g (setGateWins g ({ w with close := some raw } :: rest) s)
      let beyond := match gateWins g s with
        | v :: _ => v.beyond
        | [] => []
      let s := beyond.foldl (fun s e => overRecord g e.1 e.2 raw s) s
      let s := if beyond.isEmpty then s else raise 216 (bump TSU_GATE_STAT_OVER_WIN g s)
      let s := bump TSU_GATE_STAT_WINDOWS g (wr TSU_GATE_STAT_OPEN g 0 s)
      let s := if trunc then wr TSU_GATE_STAT_TRUNC g 1 s else s
      let s := if rdB TSU_GATE_CONT g s then s else wr TSU_GATE_ARM g 0 s
      if rdB TSU_GATE_CLOSE_EV g s then raise 220 s else s

/-- GATE_OPEN: a rising edge of GATE_IN[g] whose last reached tap at core-clock edge `k` is `tap`. -/
def execGateOpen (g : Fin 4) (k : Nat) (tap : Fin 320) (s : State) : Res :=
  let s := noteEdge (24 + g) (advanceTo k s)
  if onCalclk (24 + g) s then .next s else
  match lineEdge (24 + g) s.now tap s with
  | (none, s) => .next s
  | (some raw, s) =>
    if rdB TSU_GATE_ARM g s && !(rdB TSU_GATE_STAT_OPEN g s) then
      let w : Window := { open_ := raw, edge := s.now, inputs := rd TSU_GATE_INPUTS g s, maxLen := rd TSU_GATE_MAX_LEN g s }
      .next (wr TSU_GATE_STAT_OPEN g 1 (setGateWins g (w :: gateWins g s) s))
    else .next s

/-- The opening of a gate's window, where that opened in the present core cycle. -/
def openedNow (g : Nat) (s : State) : Option Nat :=
  match gateWins g s with
  | [] => none
  | w :: _ => if w.close.isNone ∧ w.edge = s.now then some w.open_ else none

/-- GATE_CLOSE: a falling edge of GATE_IN[g]; the one after a close by MAX_LEN finds no open window. An edge in the cycle in which the window
opened leaves it of zero length (R460); a later one in the dead time is ignored (R451). -/
def execGateClose (g : Fin 4) (k : Nat) (tap : Fin 320) (s : State) : Res :=
  let s := noteEdge (24 + g) (advanceTo k s)
  if onCalclk (24 + g) s then .next s else
  match openedNow g s with
  | some raw => .next (gateClose g raw false s)
  | none =>
    match lineEdge (24 + g) s.now tap s with
    | (none, s) => .next s
    | (some raw, s) => .next (if rdB TSU_GATE_STAT_OPEN g s then gateClose g raw false s else s)

/-- GATE_MAX_LEN: an open window reaches its MAX_LEN. -/
def execGateMaxLen (g : Fin 4) (s : State) : Res :=
  match gateWins g s with
  | [] => .next s
  | w :: _ =>
    if w.close.isSome ∨ w.maxLen = 0 then .next s
    else
      let raw := w.open_ + 256000 * w.maxLen
      .next (gateClose g raw true (advanceTo ((raw + 255) / 256) s))

/-- The write of TSU_GATE: ARM = 0 closes an open window at the raw time of the write, taken as a whole cc (R455), and one that opened in
the same cycle at its opening (R460). -/
def tsuGateWrite (g : Nat) (v : Qword) (s : State) : State :=
  let s := regWrite TSU_GATE g v s
  if bitOf v.toNat 1 || !(rdB TSU_GATE_STAT_OPEN g s) then s else gateClose g ((openedNow g s).getD (256 * s.now)) true s

/-- TSU_GATE_WRITE. -/
def execTsuGateWrite (g : Fin 4) (v : BitVec 64) (s : State) : Res :=
  if s.sys.inReset then .next s else
  .next (tsuGateWrite g v s)

/-! ### Delivery (R452, R458) -/

/-- Closed windows that no stamp can lie in or near any more are forgotten. -/
def pruneWindows (s : State) : State :=
  if s.tsu.stamps.isEmpty then
    (List.range 4).foldl (fun s g => setGateWins g ((gateWins g s).filter (fun w => match w.close with
      | some c => decide (256 * s.now < c + 256000)
      | none => true)) s) s
  else s

/-- The record of a stamp of raw time `raw` enters queue 58, or is discarded (R369, R458). Of the first discarded one the time is kept for
the gap's record, in the words of queue 56 (R373). -/
def stampPush (raw : Nat) (ts : Nat × Nat) (s : State) : State :=
  if 2 ≤ qRoom 58 s then
    let s := pushRecord 58 [ts.1, ts.2] (bump TSU_CNT_DELIVERED 0 s)
    if s.tsu.lost = 0 then s
    else onTsu (fun t => { t with lost := 0, lossDue := t.lossDue ++ [(t.lost, t.lostFirst)] }) s
  else
    let s := pushRecord 58 [ts.1, ts.2] (bump TSU_CNT_LOST 0 s)
    onTsu (fun t => { t with lost := t.lost + 1, lostFirst := if t.lost = 0 then rawStamp raw srcInternal 0 s else t.lostFirst }) s

/-- STAMP_DELIVER: the first of the stamps that wait gets its window decision, 96 cc after its sampling edge, and goes to queue 58. -/
def execStampDeliver (s : State) : Res :=
  match firstStamp s.tsu.stamps with
  | none => .next s
  | some x =>
    let s := advanceTo (x.edge + 96) (onTsu (fun t => { t with stamps := t.stamps.filter (fun y => !(decide (y = x))) }) s)
    let w := winOf x.input x.raw s
    let flags := 16 * b2n (edgeNear x.input x.raw s) + 8 * b2n x.fall + (match w with
      | some (g, _) => 4 + g
      | none => 0)
    let (ok, s) := match w with
      | some (g, k) => windowTake x.input g k s
      | none => (true, s)
    .next (pruneWindows (if ok then stampPush x.raw (rawStamp x.raw x.input flags s) s else s))

/-- STAMP_LOSS: queue 58 accepted a record after a gap; the gap's record is posted. -/
def execStampLoss (s : State) : Res :=
  match s.tsu.lossDue with
  | [] => .next s
  | (n, ts) :: rest =>
    .next (raise 219 (eventRecordAt 0x30 219 0 (rd SYS_PICK_NUM_NUM 0 s) ts n 0 (onTsu (fun t => { t with lossDue := rest }) s)))

/-! ### The time of day (R34, R37 to R42) -/

/-- The time counter's state is changed. -/
def onTod (f : Tod → Tod) (s : State) : State := { s with tod := f s.tod }

/-- The update point moves to a raw time, the mapping staying as it is there. -/
def rebase (raw : Nat) (s : State) : State :=
  let t := taiExact raw s
  onTod (fun d => { d with tU := t, rawU := raw }) s

/-- A time of day is applied: SEC at a raw time (R40). -/
def todApply (sec raw : Nat) (s : State) : State :=
  raise 6 (wr SYS_DISC_STAT_VALID 0 1 (onTod (fun d => { d with tU := ((sec * secUnits : Nat) : Rat), rawU := raw, armed := none }) s))

/-- A write of SYS_TOD_SET with ARM = 1, or TIME_SET: an armed value is replaced, and the TIME_SET that armed it ends CANCELLED (R40,
R345). -/
def todSet (sec : Nat) (imm : Bool) (s : State) : State :=
  let s := if s.tod.armed.isSome then finishCmd 0x16 1 2 0 0 s else s
  if imm then todApply sec (256 * s.now) s else onTod (fun d => { d with armed := some sec }) s

/-- The write of SYS_TOD_SET. -/
def todSetWrite (v : Qword) (s : State) : State :=
  let s := regWrite SYS_TOD_SET 0 v s
  if bitOf v.toNat 0 then todSet (SYS_TOD_SET_SEC.ofQ v) (bitOf v.toNat 1) s else s

/-- TOD_ARM: a SYS_TOD_SET write with ARM = 1 and IMM = 0. -/
def execTodArm (sec : BitVec 40) (s : State) : Res :=
  if s.sys.inReset then .next s else
  .next (todSetWrite (BitVec.ofNat 64 (sec.toNat * 256 + 1)) s)

/-- TOD_SET_IMM: a SYS_TOD_SET write with ARM = 1 and IMM = 1. -/
def execTodSetImm (sec : BitVec 40) (s : State) : Res :=
  if s.sys.inReset then .next s else
  .next (todSetWrite (BitVec.ofNat 64 (sec.toNat * 256 + 3)) s)

/-- A read of SYS_TIME_HI: the high word now; the low word is latched (R41). -/
def timeHiRead (s : State) : Nat × State :=
  let (hi, lo) := nowStamp s
  (hi, onTod (fun d => { d with latchedLo := lo }) s)

/-- SYS_TIME_HI_READ. -/
def execSysTimeHiRead (s : State) : Res :=
  if s.sys.inReset then .next (resetAccess 8 true s) else
  let (hi, s) := timeHiRead s
  .next (emit (.readData (BitVec.ofNat 64 hi)) s)

/-- The write of SYS_DISC_CTL (R42): PPS_EN written 0 keeps FREQ, ends SLEW and clears LOCKED and HOLDOVER; set to 1 it makes the next
edge the first. -/
def discCtlWrite (v : Qword) (s : State) : State :=
  let was := rdB SYS_DISC_CTL_PPS_EN 0 s
  let s := regWrite SYS_DISC_CTL 0 v s
  if bitOf v.toNat 0 then
    if was then s else onTod (fun d => { d with ppsFirst := true, lockRun := 0, lastAccept := s.now }) s
  else
    let s := rebase (256 * s.now) s
    wr SYS_DISC_STAT_LOCKED 0 0 (wr SYS_DISC_STAT_HOLDOVER 0 0 (onTod (fun d => { d with slew := 0, lockRun := 0 }) s))

/-- DISC_CTL_WRITE. -/
def execDiscCtlWrite (v : BitVec 64) (s : State) : Res :=
  if s.sys.inReset then .next s else
  .next (discCtlWrite v s)

/-- PPS_HOLDOVER: 1.5 s without an accepted edge while PPS_EN is 1 (R39). The spec leaves open whether this, or PPS_EN = 0, restarts the
count of accepted edges that R38 needs for LOCKED: here both do (DESIGN CHOICE, log entry 98). -/
def execPpsHoldover (s : State) : Res :=
  if rdB SYS_DISC_CTL_PPS_EN 0 s && !(rdB SYS_DISC_STAT_HOLDOVER 0 s) then
    let s := advanceTo (s.tod.lastAccept + 1500000000) s
    let s := rebase (256 * s.now) s
    .next (raise 8 (wr SYS_DISC_STAT_LOCKED 0 0 (wr SYS_DISC_STAT_HOLDOVER 0 1 (onTod (fun d => { d with slew := 0, lockRun := 0 }) s))))
  else .next s

/-- The nearest whole second to a time, in units of 1/256 ns. -/
def nearSecond (t : Int) : Int := divRound t secUnits * (secUnits : Int)

/-- Whether a PPS edge is accepted (R37); `prev` is the previous edge. -/
def ppsAccept (raw : Nat) (prev : Option Nat) (s : State) : Bool :=
  if rdB SYS_DISC_STAT_LOCKED 0 s then
    decide ((taiOf raw s - nearSecond (taiOf raw s)).natAbs ≤ 2560000)
  else s.tod.ppsFirst || (match prev with
    | some t => decide (255744000000 ≤ raw - t ∧ raw - t ≤ 256256000000)
    | none => false)

/-- FREQ moves by −e / (4 · T²); its register's last bit is not specified further (log entry 1), and it is clamped to ±2^−12 (R38). -/
def freqStep (e : Int) (t : Nat) (s : State) : State :=
  let q : Rat := (rdZ SYS_DISC_FREQ_FREQ 0 s : Rat) - mkRat (e * 2 ^ 48) (secUnits * 4 * t * t)
  let lo := q.floor
  let (up, s) := drawBit s
  let v := if up && decide ((lo : Rat) ≠ q) then lo + 1 else lo
  wrZ SYS_DISC_FREQ_FREQ 0 (clampZ (-(2 ^ 36)) (2 ^ 36) v) s

/-- LOCKED after an accepted edge of offset e (R38). -/
def lockStep (e : Int) (s : State) : State :=
  if e.natAbs ≤ 25600 then
    let s := onTod (fun d => { d with lockRun := d.lockRun + 1 }) s
    if 4 ≤ s.tod.lockRun ∧ rd SYS_DISC_STAT_LOCKED 0 s = 0 then raise 7 (wr SYS_DISC_STAT_LOCKED 0 1 s) else s
  else wr SYS_DISC_STAT_LOCKED 0 0 (onTod (fun d => { d with lockRun := 0 }) s)

/-- The treatment of R38: a step, or the steering of FREQ and SLEW. -/
def steer (raw : Nat) (e : Int) (s : State) : State :=
  let t := 2 ^ minN 10 (rd SYS_DISC_CTL_TC 0 s)
  let s := wrZ SYS_DISC_STAT_PHASE_ERR 0 (satS 32 e) (wr SYS_DISC_STAT_HOLDOVER 0 0 s)
  let sec := nearSecond (taiOf raw s)
  if maxN 100 (rd SYS_DISC_CTL_STEP_THR 0 s) * 256 < e.natAbs then
    raise 5 (wr SYS_DISC_STAT_STEPPED 0 1 (onTod (fun d => { d with tU := (sec : Rat), rawU := raw, slew := 0 }) s))
  else
    freqStep e t (onTod (fun d => { d with slew := -(mkRat e (secUnits * t)) }) (rebase raw s))

/-- An accepted edge aligns a waiting PPSA when its stamp lies 100 µs or more after the PPSA (R226). -/
def ppsAlign (raw : Nat) (s : State) : State :=
  match s.trd.ppsWait with
  | none => s
  | some (at_, ofs) =>
    if 256 * (at_ + 100 * ccUs) ≤ raw then
      let g := (raw + 511) / 512 + ofs
      let first := s.trd.firstPick
      let s := ppsaResume s.now (onTrd (fun t => { t with anchorB := t.pickN, anchorG := g }) s)
      budgetEnd (s.trd.pc - 1) (raise 69 (if first then gridBegin g s else s))
    else s

/-- An accepted edge: an armed time is applied first, then the discipline acts on the mapped time (R38, R40). -/
def ppsAccepted (raw : Nat) (s : State) : State :=
  let s := match s.tod.armed with
    | some sec => finishCmd 0x16 1 0 0 0 (todApply sec raw s)
    | none => s
  let e := taiOf raw s - nearSecond (taiOf raw s)
  ppsAlign raw (lockStep e (steer raw e (onTod (fun d => { d with lastAccept := (raw + 255) / 256, ppsFirst := false }) s)))

/-- A rejected edge (R459). -/
def ppsRejected (raw : Nat) (prev : Option Nat) (s : State) : State :=
  let e := taiOf raw s - nearSecond (taiOf raw s)
  let s := onTod (fun d => { d with ppsFirst := false }) (bump TSU_CNT_PPS_REJECTS 0 s)
  let gap := match prev with
    | some t => satU 48 ((raw - t) / 256)
    | none => 2 ^ 48 - 1
  raise 218 (eventRecordAt 0x31 218 (rd SYS_DISC_STAT_LOCKED 0 s) (rd SYS_PICK_NUM_NUM 0 s) (rawStamp raw srcInternal 0 s) gap (ux 48 (satS 48 e)) s)

/-- A stamped PPS edge: the discipline acts on it while PPS_EN is 1 (R37). -/
def ppsStamped (raw : Nat) (s : State) : State :=
  let prev := s.tod.prevPps
  let s := onTod (fun d => { d with prevPps := some raw }) s
  if rdB SYS_DISC_CTL_PPS_EN 0 s then
    if ppsAccept raw prev s then ppsAccepted raw s else ppsRejected raw prev s
  else s

/-! ### The edges -/

/-- An edge of a stamp input whose last reached tap at core-clock edge `k` is `tap` (R449 to R452). -/
def stampEdge (i k tap : Nat) (fall : Bool) (s : State) : State :=
  let s := noteEdge i (advanceTo k s)
  if onCalclk i s then s else
  match inputEdge i s.now tap fall s with
  | (none, s) => s
  | (some raw, s) =>
    let s := if i < 16 then launchEdge i raw s else if i = 16 then ppsStamped raw s else s
    stampBuffer { input := i, raw := raw, fall := fall, edge := s.now } s

/-- PPS_EDGE: a rising edge of PPS_IN. -/
def execPpsEdge (k : Nat) (tap : Fin 320) (s : State) : Res := .next (stampEdge 16 k tap false s)

/-- STAMP_EDGE. -/
def execStampEdge (i : Fin 24) (k : Nat) (tap : Fin 320) (fall : Bool) (s : State) : Res := .next (stampEdge i k tap fall s)

/-! ### The spare line and the map window (R453, R465) -/

/-- The end of a launch window of a port that holds a raw time. -/
def windowAround (p raw : Nat) (s : State) : Option Nat :=
  s.trd.picks.findSome? (fun x => (x.ports.find? (inLaunch p raw)).map (·.windowEnd))

/-- SPARE_LINE_CHANGE: the spare line takes or leaves service, after 64 ns of quiet and outside the launch window of a launch monitor. -/
def execSpareLineChange (s : State) : Res :=
  match s.tsu.spareNext with
  | none => .next s
  | some t =>
    let l := if t = 0x1F then rd TSU_STAT_SPARE_FOR 0 s else t
    let s := advanceTo (s.tsu.seen.get 0 l + 64) s
    let s := match windowAround l (256 * s.now) s with
      | some e => if l < 16 then advanceTo ((e + 255) / 256) s else s
      | none => s
    .next (raise 222 (wr TSU_STAT_SPARE_FOR 0 t (onTsu (fun x => { x with spareNext := none }) s)))

/-- Whether a line serves: every line but the spare and the one it stands in for, or the spare while it does. -/
def lineServes (l : Nat) (s : State) : Bool :=
  let f := rd TSU_STAT_SPARE_FOR 0 s
  if l = 28 then f ≠ 0x1F else l ≠ f

/-- Whether a line is being calibrated. -/
def lineCalibrates (l : Nat) (s : State) : Bool := s.cal.pairs.any (fun c => decide (c.kind = 1 ∧ c.idx = l))

/-- Every access to TSU_MAP_DATA advances TAP (R465, R578). -/
def tsuMapAdvance (s : State) : State :=
  let t := rd TSU_MAP_ADDR_TAP 0 s
  wr TSU_MAP_ADDR_TAP 0 (if 319 ≤ t ∧ t < 320 then 0 else (t + 1) % 512) s

/-- An access to TSU_MAP_DATA (R465, R530). -/
def tsuMapData (org : Origin) (w : Option Qword) (s : State) : State :=
  let l := rd TSU_MAP_ADDR_LINE 0 s
  let t := rd TSU_MAP_ADDR_TAP 0 s
  tsuMapAdvance <| match w with
    | none => s
    | some v =>
      if 320 ≤ t ∨ 29 ≤ l ∨ (lineServes l s && weaving s) = true ∨ (l = 28 ∧ lineCalibrates 28 s = true) then
        writeIgnored org 0x4C18 v s
      else
        setCalRec 1 l { calRec 1 l s with source := 3 } (wr TSU_STAT_LINE_OK 0 (setBitTo (rd TSU_STAT_LINE_OK 0 s) l false) <|
          onTsu (fun x => { x with maps := x.maps.put 0 (512 * l + t) (v.toNat % 4096) }) s)

/-- What TSU_MAP_DATA shows. -/
def tsuMapShow (s : State) : Nat :=
  let l := rd TSU_MAP_ADDR_LINE 0 s
  let t := rd TSU_MAP_ADDR_TAP 0 s
  if 320 ≤ t ∨ 29 ≤ l then 0 else s.tsu.maps.get 0 (512 * l + t)

/-- TSU_MAP_DATA_ACCESS. -/
def execTsuMapDataAccess (w : Option (BitVec 64)) (s : State) : Res :=
  if s.sys.inReset then .next (resetAccess 8 w.isNone s) else
  match w with
  | some v => .next (tsuMapData .pcie (some v) s)
  | none => .next (emit (.readData (BitVec.ofNat 64 (tsuMapShow s))) (tsuMapData .pcie none s))

end Sys2Proof.Machine
end

