-- ==== Sys2Proof/Machine/Anchor.lean ====
section
/-!
DEFINITION. The anchor channels (chapter 16): the sequencing table, conversions and their records, wire breaks and the impedance
check, the anchor quads.
-/

set_option autoImplicit false

namespace Sys2Proof.Machine

/-- The anchor unit's state is changed. -/
def onAnc (f : Anchor → Anchor) (s : State) : State := { s with anc := f s.anc }

/-! ### Entries (R475) -/

/-- The channel of an entry word; 26 to 31 make the entry a pause. -/
def entryCh (w : Nat) : Nat := slice w 43 5

/-- DELAY of an entry word, in cc. -/
def entryDelay (w : Nat) : Nat := slice w 11 16 * 10 * ccUs

/-- Whether an entry in use names a channel. -/
def ancNamed (ch : Nat) (s : State) : Bool :=
  (List.range (rd ANC_CTL_LEN_M1 0 s + 1)).any (fun e => decide (entryCh (s.anc.tbl.get 0 e) = ch))

/-- The codes of TABLE (R491). -/
def ancSTOPPED : Nat := 0
def ancRUNNING : Nat := 1
def ancCLOSING : Nat := 2

/-- The state of the table. -/
def ancTable (s : State) : Nat := rd ANC_STAT_TABLE 0 s

/-- The codes of a channel's STATE (R494). -/
def chVALID : Nat := 0
def chBROKEN : Nat := 1
def chCHECKING : Nat := 2

/-- The state of an external channel. -/
def ancChState (ch : Nat) (s : State) : Nat := rd ANC_CH_STAT_STATE ch s

/-- A channel's state is set, and with it its bit of ANC_STAT.BROKEN. -/
def setAncChState (ch v : Nat) (s : State) : State :=
  wr ANC_STAT_BROKEN 0 (setBitTo (rd ANC_STAT_BROKEN 0 s) ch (decide (v = chBROKEN))) (wr ANC_CH_STAT_STATE ch v s)

/-! ### The settings of a conversion (R468, R472, R486) -/

/-- The settings a conversion takes at its start: EXC, NOTCH, AVG_M1, SETTLE, RATIO, IMIN, IMAX, LEVEL, FREQ, PHASE. -/
def chSettings (ch : Nat) (s : State) : List Nat :=
  [rd ANC_CH_CFG_EXC ch s, rd ANC_CH_CFG_NOTCH ch s, rd ANC_CH_CFG_AVG_M1 ch s, rd ANC_CH_CFG_SETTLE ch s,
    rd ANC_CH_EXC_RATIO ch s, rd ANC_CH_EXC_IMIN ch s, rd ANC_CH_EXC_IMAX ch s, rd ANC_CH_EXC_LEVEL ch s, rd ANC_CH_EXC_FREQ ch s,
    rd ANC_CH_EXC_PHASE ch s]

/-- The settings in force of a channel: those of its conversion in progress, else its registers. -/
def chInForce (ch : Nat) (s : State) : List Nat :=
  if s.anc.phase = .convert ∧ entryCh s.anc.word = ch then s.anc.cfg else chSettings ch s

/-- T_N in cc (R472). -/
def notchCc (notch : Nat) : Nat :=
  if notch = 0 then 1000000 else if notch = 1 then 20000000 else if notch = 2 then 16666700 else 100000000

/-- T_W in cc. -/
def windowCc (cfg : List Nat) : Nat := notchCc (cfg.getD 1 0) * (cfg.getD 2 0 + 1)

/-- SETTLE in cc. -/
def settleCc (cfg : List Nat) : Nat := cfg.getD 3 0 * 500000

/-- The conversion time of a channel in cc (R472, R473). -/
def convCc (ch : Nat) (cfg : List Nat) : Nat :=
  if 16 ≤ ch then 2100000
  else if cfg.getD 0 0 = 1 then 2 * (settleCc cfg + windowCc cfg) else settleCc cfg + 2 * windowCc cfg

/-- The midpoint of a conversion's measuring samples after its start, in 1/256 ns (R474). -/
def convMid (ch : Nat) (cfg : List Nat) : Nat :=
  if 16 ≤ ch then 256 * 1100000
  else if cfg.getD 0 0 = 1 then 128 * (3 * settleCc cfg + 2 * windowCc cfg) else 256 * (settleCc cfg + windowCc cfg)

/-- Whether a channel's excitation is on (R469); it is off while VDD_DRV lies outside its range (R565). -/
def excOn (ch : Nat) (s : State) : Bool :=
  decide (ancTable s ≠ ancSTOPPED ∧ ancChState ch s = chVALID) && ancNamed ch s
    && decide ((chInForce ch s).getD 0 0 = 1 ∨ (chInForce ch s).getD 0 0 = 2)
    && decide (devState s = stIDLE ∨ devState s = stWEAVING ∨ devState s = stFAULT) && !(bitOf s.sys.supplyOut 4)

/-- What a channel drives on its excitation pair (R468): nothing, a DC voltage in mV, or a sine of that peak at a frequency in Hz. -/
inductive ExcDrive where
  | off
  | dc (mv : Int)
  | sine (mv hz : Nat)
deriving DecidableEq, Repr

/-- Whether a reversing channel is in the negative phase of its own conversion (R469, R472). -/
def excNegative (ch : Nat) (s : State) : Bool :=
  decide (s.anc.phase = .convert ∧ entryCh s.anc.word = ch ∧ s.anc.since + settleCc s.anc.cfg + windowCc s.anc.cfg ≤ s.now)

/-- The excitation a channel drives now; LEVEL and FREQ act within their limits (R468, R469, R493). -/
def excDrive (ch : Nat) (s : State) : ExcDrive :=
  let cfg := chInForce ch s
  let mv := 20 * clampN 1 250 (cfg.getD 7 0)
  if !(excOn ch s) then .off
  else if cfg.getD 0 0 = 1 then .dc (if excNegative ch s then -mv else mv)
  else .sine mv (clampN 500 10000 (cfg.getD 8 0))

/-! ### The table's course (R476 to R480, R523) -/

/-- An entry starts: its DELAY runs (R476); internal channels convert at range 000 (R473). -/
def ancEnter (e : Nat) (s : State) : State :=
  let w := s.anc.tbl.get 0 e
  let s := wr ANC_STAT_ENTRY 0 e s
  onAnc (fun a => { a with
    phase := .delay, since := s.now, word := w, range := if entryCh w < 16 then a.cur.get 0 e else 0, left := slice w 35 8 + 1,
    beyond := false, maxAbs := 0, spoilt := false, rewritten := false }) s

/-- The table starts at entry 0 (R476). -/
def ancStart (s : State) : State :=
  ancEnter 0 (wr ANC_STAT_TABLE 0 ancRUNNING (wr ANC_STAT_START_PENDING 0 0 (onAnc (fun a => { a with startAt := s.now }) s)))

/-- The table stops: STOPPED, or at entry 0 again where a start was deferred (R68, R476). -/
def ancStopped (s : State) : State :=
  let s := wr ANC_STAT_TABLE 0 ancSTOPPED (onAnc (fun a => { a with phase := .idle }) s)
  if rdB ANC_STAT_START_PENDING 0 s then ancStart s else s

/-- The next entry starts; a return to entry 0 counts a pass (R476). -/
def ancNext (s : State) : State :=
  let e := rd ANC_STAT_ENTRY 0 s
  if rd ANC_CTL_LEN_M1 0 s ≤ e then ancEnter 0 (raise 227 (bump ANC_CNT_PASSES 0 s)) else ancEnter (e + 1) s

/-- Whether the anchor converter's calibration waits and may run (R516, R523). -/
def ancCalDue (s : State) : Bool :=
  s.cal.queue.any (fun o => decide (o.1 = 3)) && decide (devState s = stIDLE ∨ devState s = stWEAVING)
    && !(rdB CAL_STAT_REF_BAD 0 s)

/-- After the boundary's check: the table stops when CLOSING, waits for a calibration of its converter, or goes on. -/
def ancAfterCheck (s : State) : State :=
  if ancTable s = ancCLOSING then ancStopped s
  else if ancCalDue s then onAnc (fun a => { a with phase := .calWait, since := s.now }) s
  else ancNext s

/-- The table goes on after a calibration it waited for, or when that calibration is not to run. -/
def ancCalResume (s : State) : State :=
  if s.anc.phase = .calWait then
    if ancTable s = ancCLOSING then ancStopped s else ancNext s
  else s

/-- Whether a check of a channel is due (R480): a channel never checked counts from the table's last start (log entry 83). -/
def checkDue (ch : Nat) (s : State) : Bool :=
  let last := s.anc.checked.get 0 ch
  if ancChState ch s = chBROKEN then s.anc.broke.contains ch || decide (last + ccSec ≤ s.now)
  else rdB ANC_CH_EXC_CHK_EN ch s && decide (rd ANC_CTL_CHK_PERIOD 0 s ≠ 0)
    && decide ((if last = 0 then s.anc.startAt else last) + rd ANC_CTL_CHK_PERIOD 0 s * ccSec ≤ s.now)

/-- The channel a boundary checks: the lowest BROKEN one that is due, else the lowest that is due (R480). -/
def checkPick (s : State) : Option Nat :=
  let due := (List.range 16).filter (fun ch => checkDue ch s)
  match due.filter (fun ch => decide (ancChState ch s = chBROKEN)) with
  | ch :: _ => some ch
  | [] => due.head?

/-- The new range step after an entry (R477). -/
def autoStep (r maxAbs : Nat) (beyond : Bool) : Nat :=
  if beyond then r - 2 else if 7549746 < maxAbs then r - 1 else if maxAbs < 3355443 then minN 7 (r + 1) else r

/-- An entry's last conversion ended: event 226, the range of its next start, one check unless the table is CLOSING (R476, R477, R480).
An entry rewritten meanwhile keeps the step its write gave it. -/
def ancBoundary (s : State) : State :=
  let a := s.anc
  let e := rd ANC_STAT_ENTRY 0 s
  let s := if a.beyond then raise 226 s else s
  let s :=
    if bitOf a.word 10 && decide (entryCh a.word < 16) && !a.rewritten then
      onAnc (fun x => { x with cur := x.cur.put 0 e (autoStep a.range a.maxAbs a.beyond) }) s
    else s
  match (if ancTable s = ancCLOSING then none else checkPick s) with
  | none => ancAfterCheck s
  | some ch =>
    let was := decide (ancChState ch s = chBROKEN)
    wr ANC_STAT_CHECKING 0 1 (setAncChState ch chCHECKING
      (onAnc (fun x => { x with phase := .check, since := s.now, checkCh := ch, wasBroken := was, tripped := false }) s))

/-- The next conversion of the entry in progress starts. -/
def ancConvert (s : State) : State :=
  let ch := entryCh s.anc.word
  onAnc (fun a => { a with
    phase := .convert, since := s.now, cfg := if ch < 16 then chSettings ch s else [],
    spoilt := decide (ch < 16 ∧ ancChState ch s ≠ chVALID) }) s

/-- ENTRY_DELAY_END: the first conversion starts, or a pause ends. -/
def execEntryDelayEnd (s : State) : Res :=
  if s.anc.phase = .delay then
    let s := advanceTo (s.anc.since + entryDelay s.anc.word) s
    .next (if entryCh s.anc.word < 26 then ancConvert s else ancBoundary s)
  else .next s

/-! ### Results (R471 to R474, R484) -/

/-- The queue of a channel's records (R377). -/
def ancQueue (ch : Nat) : Nat := if ch < 16 then 48 + ch / 4 else 52

/-- Item 0 of an anchor record (R378), without LOSS. -/
def ancItem (kind : Nat) (inv beyond : Bool) (ch range entry value : Nat) : Nat :=
  place kind 47 1 + place (b2n inv) 46 1 + place (b2n beyond) 45 1 + place ch 39 5 + place range 36 3 + place entry 30 6
    + place value 0 24

/-- An item 0 with its LOSS (R474): records of the queue were discarded since one was pushed. -/
def withLoss (q item : Nat) (s : State) : Nat := item + place (b2n (decide ((queueOf q s).lostRecs ≠ 0))) 44 1

/-- The Warp word of a channel's quad (R482). -/
def ancQuadAt (ch : Nat) (s : State) : Nat := rd ANC_CELL_BASE_CELL_BASE 0 s + 4 * ch

/-- The declared REFIN as acted on, in µV (R535). -/
def refinUv (s : State) : Nat := clampN 1000000 3000000 (rd CAL_REF_REFIN 0 s)

/-- A quotient of integers rounded to nearest, ties away from zero; the divisor is not zero. -/
def quotRound (a b : Int) : Int := if 0 < b then divRound a b.toNat else divRound (-a) (-b).toNat

/-- One 256th of a turn, and any number of them, as complex numbers scaled by 2^64 (log entry 70). -/
def root256 : Cx := times 6 (fun z => unitC (z.1 + 2 ^ 64, z.2)) (0, 2 ^ 64)
def cis256 (k : Nat) : Cx :=
  times k (fun z => (divRound (z.1 * root256.1 - z.2 * root256.2) (2 ^ 64), divRound (z.1 * root256.2 + z.2 * root256.1) (2 ^ 64)))
    (2 ^ 64, 0)

/-- V_in of a conversion as a fraction (R468): the voltage itself; the halved difference of the two polarities; or, of a sine, whose
components in phase with the excitation and a quarter turn ahead of it are given, the component at PHASE. -/
def ancVin (cfg : List Nat) (v1 v2 : Int) : Int × Nat :=
  if cfg.getD 0 0 = 1 then (v1 - v2, 2)
  else if cfg.getD 0 0 = 2 then
    let c := cis256 (cfg.getD 9 0)
    (v1 * c.1 + v2 * c.2, 2 ^ 64)
  else (v1, 1)

/-- VALUE of an external conversion before saturation (R471): voltages in pV. Where the ratio's excitation voltage is zero the rule
states no value, and it is free. -/
def ancValue (ratio : Bool) (v : Int × Nat) (vexc : Int) (r : Nat) (s : State) : Int × State :=
  if ratio then
    if vexc = 0 then
      let (v, s) := drawBelow (2 ^ 24) s
      (sx 24 v, s)
    else (quotRound (v.1 * 2 ^ (23 + r)) (vexc * v.2), s)
  else (quotRound (v.1 * 2 ^ (23 + r)) ((refinUv s * 1000000 * v.2 : Nat) : Int), s)

/-- ENG of an external conversion (R484). -/
def ancEng (ch r : Nat) (value : Int) (s : State) : Int :=
  let num := (value - rdZ ANC_CH_ENG_ZERO ch s * 2 ^ r) * rdZ ANC_CH_ENG_SCALE ch s
  satS 48 (divRound num (2 ^ (16 + r)))

/-- CONVERSION_END: the record, the anchor quad, and the next conversion or the entry boundary. The voltages the converter measured are
given in pV: the first of `v`, for a reversing channel the one of the positive phase, the second that of the negative phase, for a sine
the component a quarter turn ahead; `vexc` that of the excitation. For an internal channel the first is the quantity in the unit of
R473. -/
def execConversionEnd (v : Int × Int) (vexc : Int) (clip : Bool) (s : State) : Res :=
  let (v1, v2) := v
  if s.anc.phase = .convert then
    let a := s.anc
    let ch := entryCh a.word
    let e := rd ANC_STAT_ENTRY 0 s
    let r := a.range
    let mid := 256 * a.since + convMid ch a.cfg
    let s := advanceTo (a.since + convCc ch a.cfg) s
    let (raw, s) := if ch < 16 then ancValue (decide (a.cfg.getD 4 0 = 1)) (ancVin a.cfg v1 v2) vexc r s else (v1, s)
    let value := satS 24 raw
    let beyond := clip || decide (value ≠ raw)
    let inv := a.spoilt
    let q := ancQueue ch
    let item := withLoss q (ancItem 0 inv beyond ch r e (ux 24 value)) s
    let ts := rawStamp mid 0x18 0 s
    let s := pushRecord q [item, ts.1, ts.2] s
    let eng := if ch < 16 then ancEng ch r value s else value
    let s := warpStoreQuad (ancQuadAt ch s / 4) ([ux 48 eng, item, ts.1, ts.2].map encodeWord) s
    let s := bump ANC_CNT_CONVERSIONS 0 s
    let good := !inv && !beyond
    let s := onAnc (fun x => { x with
      beyond := x.beyond || beyond, maxAbs := maxN x.maxAbs value.natAbs, left := x.left - 1,
      valid := if good then x.valid.put 0 ch s.now else x.valid,
      stale := if good then x.stale.filter (fun c => c ≠ ch) else x.stale }) s
    .next (if s.anc.left = 0 then ancBoundary s else if ancTable s = ancCLOSING then ancStopped s else ancConvert s)
  else .next s

/-! ### Wire breaks and checks (R470, R478 to R481) -/

/-- A VALID channel becomes BROKEN (R478, R489). `byCheck` is 1 for a failed check; `a` is the current in µA, or |Z|. -/
def wireBreak (ch byCheck a : Nat) (open_ short : Bool) (s : State) : State :=
  let s := onAnc (fun a => { a with broke := ch :: a.broke }) (bump ANC_CH_STAT_BREAKS ch (setAncChState ch chBROKEN s))
  raise 224 (eventRecord 0x40 224 (place byCheck 5 1 + place ch 0 5) (rd SYS_PICK_NUM_NUM 0 s) (satU 48 a)
    (2 * b2n short + b2n open_) s)

/-- EXCITATION_TRIP: a channel's excitation current, in µA, lay outside its window for 5 µs. -/
def execExcitationTrip (ch : Fin 16) (current : Nat) (s : State) : Res :=
  let cfg := chInForce ch s
  let low := decide (current < cfg.getD 5 0 * 100)
  let high := decide (cfg.getD 6 0 * 500 < current)
  let checking := s.anc.phase = .check ∧ s.anc.checkCh = ch.val
  if (low || high) && (excOn ch s || decide checking) then
    let s := if low then wr ANC_CH_STAT_OPEN ch 1 s else s
    let s := if high then wr ANC_CH_STAT_SHORT ch 1 s else s
    if checking then .next (onAnc (fun a => { a with tripped := true }) s)
    else
      .next (wireBreak ch 0 current low high (onAnc (fun a => { a with
        spoilt := a.spoilt || decide (a.phase = .convert ∧ entryCh a.word = ch.val) }) s))
  else .next s

/-- A check's outcome (R479). -/
def checkEnd (ch z : Nat) (pass : Bool) (s : State) : State :=
  let was := s.anc.wasBroken
  let s := wr ANC_STAT_CHECKING 0 0 (wr ANC_CH_STAT_LAST_Z ch z (onAnc (fun a => { a with
    checked := a.checked.put 0 ch s.now, broke := a.broke.filter (fun c => c ≠ ch) }) s))
  if pass then
    let s := setAncChState ch chVALID s
    if was then raise 225 (eventRecord 0x41 225 (place ch 0 5) (rd SYS_PICK_NUM_NUM 0 s) z 0 s) else s
  else if was then setAncChState ch chBROKEN s
  else wireBreak ch 1 z false false (bump ANC_CH_STAT_CHK_FAILS ch s)

/-- IMPEDANCE_CHECK_END: the check that runs measured |Z| in ohms. The record's time is the midpoint of the 16 ms of demodulation. -/
def execImpedanceCheckEnd (z : Nat) (s : State) : Res :=
  if s.anc.phase = .check then
    let ch := s.anc.checkCh
    let mid := 256 * (s.anc.since + 12000000)
    let s := advanceTo (s.anc.since + 20000000) s
    let z := minN z 65535
    let pass := decide (rd ANC_CH_CFG_ZMIN ch s ≤ z ∧ z ≤ rd ANC_CH_CFG_ZMAX ch s) && !s.anc.tripped
    let q := ancQueue ch
    let item := withLoss q (ancItem 1 (!pass) false ch 0 (rd ANC_STAT_ENTRY 0 s) z) s
    let ts := rawStamp mid 0x18 0 s
    .next (ancAfterCheck (checkEnd ch z pass (pushRecord q [item, ts.1, ts.2] s)))
  else .next s

/-- What a channel's stale time counts from: its last valid conversion, or the table's last start where it has made none (log
entry 83). -/
def staleFrom (ch : Nat) (s : State) : Nat := if s.anc.valid.get 0 ch = 0 then s.anc.startAt else s.anc.valid.get 0 ch

/-- When a channel's stale time ends (R481). -/
def staleAt (ch : Nat) (s : State) : Nat := staleFrom ch s + rd ANC_CTL_STALE 0 s * 100 * ccMs

/-- ANC_STALE: a channel named in the table made no valid conversion for the stale time (R481). Where its quad's w1 cannot be read,
the bits beside INVALID are free. -/
def execAncStale (ch : Fin 26) (s : State) : Res :=
  if rd ANC_CTL_STALE 0 s ≠ 0 ∧ ancNamed ch s = true ∧ !(s.anc.stale.contains ch.val) then
    let from_ := staleFrom ch s
    let s := advanceTo (staleAt ch s) s
    let w := ancQuadAt ch s + 1
    let (k, s) := drawBelow 6 s
    let (r, s) := warpRead (reqOther k) w s
    let (d, s) := match r with
      | .clean d => (d, s)
      | .corrected d => (d, s)
      | .bare => drawBelow (2 ^ 48) s
      | .bareUpset => drawBelow (2 ^ 48) s
      | .bad => drawBelow (2 ^ 48) s
    let s := bump ANC_CNT_STALE_MARKS 0 (warpWrite w (setBitTo d 46 true) (onAnc (fun a => { a with stale := ch.val :: a.stale }) s))
    .next (raise 228 (eventRecord 0x42 228 (place ch 0 5) (rd SYS_PICK_NUM_NUM 0 s) (satU 48 ((s.now - from_) / ccMs)) 0 s))
  else .next s

/-! ### Registers (R476, R486, R487, R492) -/

/-- The table stops at once and every channel is VALID again: the entry of HOLD (R486). -/
def ancHold (s : State) : State :=
  let s := wr ANC_STAT_TABLE 0 ancSTOPPED (wr ANC_STAT_START_PENDING 0 0 (wr ANC_STAT_CHECKING 0 0
    (onAnc (fun a => { a with phase := .idle, spoilt := false, tripped := false, broke := [] }) s)))
  (List.range 16).foldl (fun s ch => setAncChState ch chVALID s) s

/-- The write of ANC_CTL: EN starts and stops the table (R476, R68). The table runs only in IDLE, WEAVING and FAULT (R549, R552). -/
def ancCtlWrite (v : Qword) (s : State) : State :=
  let s := regWrite ANC_CTL 0 v s
  let t := ancTable s
  if bitOf v.toNat 0 then
    if t = ancSTOPPED then
      if devState s = stIDLE ∨ devState s = stWEAVING ∨ devState s = stFAULT then ancStart s else s
    else if t = ancCLOSING then wr ANC_STAT_START_PENDING 0 1 s
    else s
  else if t = ancRUNNING then
    if s.anc.phase = .convert ∨ s.anc.phase = .check then wr ANC_STAT_TABLE 0 ancCLOSING s else ancStopped s
  else wr ANC_STAT_START_PENDING 0 0 s

/-- The write of ANC_CELL_BASE (R487, R491). -/
def ancCellBaseWrite (org : Origin) (v : Qword) (s : State) : State :=
  let b := ANC_CELL_BASE_CELL_BASE.ofQ v
  if ancTable s = ancSTOPPED ∧ b % 4 = 0 ∧ 0x1600000 ≤ b ∧ b ≤ 0x17FFF98 then regWrite ANC_CELL_BASE 0 v s
  else writeIgnored org (ANC_CELL_BASE.off 0) v s

/-- What ANC_TBL_DATA shows: the entry with its present CUR_RANGE. -/
def ancTblShow (s : State) : Nat :=
  let e := rd ANC_TBL_ADDR_ENTRY 0 s
  s.anc.tbl.get 0 e + place (s.anc.cur.get 0 e) 4 3

/-- Every access to ANC_TBL_DATA advances ENTRY (R492, R578). -/
def ancTblAdvance (s : State) : State := wr ANC_TBL_ADDR_ENTRY 0 ((rd ANC_TBL_ADDR_ENTRY 0 s + 1) % 64) s

/-- An access to ANC_TBL_DATA: a write sets the entry and its CUR_RANGE, unless a reserved field is not zero; ENTRY advances (R475,
R487, R492). -/
def ancTblData (org : Origin) (w : Option Qword) (s : State) : State :=
  let e := rd ANC_TBL_ADDR_ENTRY 0 s
  ancTblAdvance <| match w with
    | none => s
    | some v =>
      let d := v.toNat % 2 ^ 48
      if slice d 27 8 ≠ 0 ∨ slice d 0 4 ≠ 0 then writeIgnored org (ANC_TBL_DATA.off 0) v s
      else onAnc (fun a => { a with
        tbl := a.tbl.put 0 e (d - place (slice d 4 3) 4 3), cur := a.cur.put 0 e (slice d 7 3),
        rewritten := a.rewritten || decide (rd ANC_STAT_ENTRY 0 s = e) }) s

/-- ANC_EN_WRITE: a write of ANC_CTL. -/
def execAncEnWrite (v : BitVec 64) (s : State) : Res :=
  if s.sys.inReset then .next s else
  .next (ancCtlWrite v s)

/-- ANC_TBL_DATA_ACCESS. -/
def execAncTblDataAccess (w : Option (BitVec 64)) (s : State) : Res :=
  if s.sys.inReset then .next (resetAccess 8 w.isNone s) else
  let x := ancTblShow s
  let s := ancTblData .pcie w s
  .next (if w.isSome then s else emit (.readData (BitVec.ofNat 64 x)) s)

end Sys2Proof.Machine
end

