-- ==== Sys2Proof/Machine/Inflate.lean ====
section
/-!
DEFINITION. The decoder of RFC 1951 (DEFLATE) that the Bobbin checks its blocks with (R500 to R502): one block's bits to its bytes, and
the whole code words the bits are made of (R506). Bits are a list, in stream order.
-/

set_option autoImplicit false

namespace Sys2Proof.Machine

/-- The first `n` bits as a number, the first bit least significant, and the bits that follow. -/
def takeBits : Nat → List Bool → Option (Nat × List Bool)
  | 0, bs => some (0, bs)
  | _ + 1, [] => none
  | n + 1, b :: bs =>
    match takeBits n bs with
    | none => none
    | some (v, rest) => some (2 * v + b2n b, rest)

/-- How many symbols have a code of a length. -/
def lenCount (lens : List Nat) (l : Nat) : Nat := (lens.filter (fun x => x = l)).length

/-- The symbols that have codes, by rising length and then by number. -/
def symOrder (lens : List Nat) : List Nat :=
  ((List.range 15).map (fun l => (List.range lens.length).filter (fun i => lens.getD i 0 = l + 1))).flatten

/-- What a set of code lengths leaves unused of the 2^15 codes of length 15; negative when it is over-subscribed. -/
def codeSlack (lens : List Nat) : Int :=
  (2 ^ 15 : Int) - (sumN ((List.range 15).map (fun l => lenCount lens (l + 1) * 2 ^ (14 - l))) : Nat)

/-- One symbol of a canonical code: bits are read most significant first. -/
def symGo (lens : List Nat) : Nat → Nat → Nat → Nat → Nat → List Bool → Option (Nat × List Bool)
  | 0, _, _, _, _, _ => none
  | _ + 1, _, _, _, _, [] => none
  | k + 1, len, code, first, index, b :: bs =>
    let code := code + b2n b
    let n := lenCount lens len
    if code < first + n then (symOrder lens)[index + (code - first)]? |>.map (fun y => (y, bs))
    else symGo lens k (len + 1) (2 * code) (2 * (first + n)) (index + n) bs

/-- One symbol of the code with these lengths. -/
def decodeSym (lens : List Nat) (bs : List Bool) : Option (Nat × List Bool) := symGo lens 15 1 0 0 0 bs

/-- The base length and extra bits of the length symbols 257 to 285. -/
def lenBase (y : Nat) : Option (Nat × Nat) :=
  [(3, 0), (4, 0), (5, 0), (6, 0), (7, 0), (8, 0), (9, 0), (10, 0), (11, 1), (13, 1), (15, 1), (17, 1), (19, 2), (23, 2), (27, 2),
    (31, 2), (35, 3), (43, 3), (51, 3), (59, 3), (67, 4), (83, 4), (99, 4), (115, 4), (131, 5), (163, 5), (195, 5), (227, 5),
    (258, 0)][y - 257]?

/-- The base distance and extra bits of the distance symbols 0 to 29. -/
def distBase (y : Nat) : Option (Nat × Nat) :=
  if y < 4 then some (y + 1, 0)
  else if y < 30 then some ((2 + y % 2) * 2 ^ (y / 2 - 1) + 1, y / 2 - 1)
  else none

/-- A match is copied onto the bytes so far, newest first. -/
def copyMatch (d : Nat) : Nat → List Nat → List Nat
  | 0, rev => rev
  | n + 1, rev => copyMatch d n (rev.getD (d - 1) 0 :: rev)

/-- The bits consumed between two points, as one code word: its length and its value, first bit least significant. -/
def wordBetween (a b : List Bool) : Nat × Nat :=
  let n := a.length - b.length
  (n, (a.take n).foldr (fun b v => 2 * v + b2n b) 0)

/-- What a block's symbols give: the bytes, newest first, on top of those given; the code words, newest first; the bits that follow. -/
def blockGo (lit dist : List Nat) : Nat → List Bool → List Nat → List (Nat × Nat) → Option (List Nat × List (Nat × Nat) × List Bool)
  | 0, _, _, _ => none
  | k + 1, bs, rev, ws =>
    match decodeSym lit bs with
    | none => none
    | some (y, r1) =>
      if y < 256 then blockGo lit dist k r1 (y :: rev) (wordBetween bs r1 :: ws)
      else if y = 256 then some (rev, wordBetween bs r1 :: ws, r1)
      else match lenBase y with
        | none => none
        | some (base, eb) => match takeBits eb r1 with
          | none => none
          | some (x, r2) => match decodeSym dist r2 with
            | none => none
            | some (dy, r3) => match distBase dy with
              | none => none
              | some (db, de) => match takeBits de r3 with
                | none => none
                | some (dx, r4) =>
                  if db + dx ≤ rev.length ∧ db + dx ≤ 32768 then
                    blockGo lit dist k r4 (copyMatch (db + dx) (base + x) rev) (wordBetween r2 r4 :: wordBetween bs r2 :: ws)
                  else none

/-- The code lengths of the static block type. -/
def staticLit : List Nat := List.replicate 144 8 ++ List.replicate 112 9 ++ List.replicate 24 7 ++ List.replicate 8 8

/-- The distance code lengths of the static block type. -/
def staticDist : List Nat := List.replicate 30 5

/-- The order in which the lengths of the code-length code are sent. -/
def clOrder : List Nat := [16, 17, 18, 0, 8, 7, 9, 6, 10, 5, 11, 4, 12, 3, 13, 2, 14, 1, 15]

/-- `n` groups of three bits. -/
def threeBits : Nat → List Bool → Option (List Nat × List Bool)
  | 0, bs => some ([], bs)
  | n + 1, bs => match takeBits 3 bs with
    | none => none
    | some (v, r) => match threeBits n r with
      | none => none
      | some (l, r) => some (v :: l, r)

/-- The run-length coded code lengths of a dynamic block, newest first, until `n` are read. -/
def lensGo (cl : List Nat) (n : Nat) : Nat → List Bool → List Nat → Option (List Nat × List Bool)
  | 0, _, _ => none
  | k + 1, bs, acc =>
    if n ≤ acc.length then (if acc.length = n then some (acc, bs) else none)
    else match decodeSym cl bs with
      | none => none
      | some (y, r) =>
        if y < 16 then lensGo cl n k r (y :: acc)
        else
          let eb := if y = 16 then 2 else if y = 17 then 3 else 7
          match takeBits eb r with
          | none => none
          | some (x, r) =>
            if y = 16 then
              if acc.isEmpty then none else lensGo cl n k r (List.replicate (3 + x) (acc.headD 0) ++ acc)
            else lensGo cl n k r (List.replicate ((if y = 17 then 3 else 11) + x) 0 ++ acc)

/-- Whether the two codes of a dynamic block are usable: complete, or a distance code of at most one symbol. -/
def codesOk (lit dist : List Nat) : Bool :=
  decide (codeSlack lit = 0) && decide (lit.getD 256 0 ≠ 0)
    && (decide (codeSlack dist = 0) || (decide (0 ≤ codeSlack dist) && decide ((dist.filter (· ≠ 0)).length ≤ 1)))

/-- The code tables of a dynamic block and the bits that follow. -/
def dynTables (bs : List Bool) : Option (List Nat × List Nat × List Bool) :=
  match takeBits 5 bs with
  | none => none
  | some (hlit, r) => match takeBits 5 r with
    | none => none
    | some (hdist, r) => match takeBits 4 r with
      | none => none
      | some (hclen, r) => match threeBits (hclen + 4) r with
        | none => none
        | some (cls, r) =>
          let cl := (List.range 19).map (fun y => match clOrder.findIdx? (· = y) with
            | some i => cls.getD i 0
            | none => 0)
          let n := hlit + 257
          let m := hdist + 1
          match lensGo cl (n + m) (n + m + 1) r [] with
          | none => none
          | some (acc, r) =>
            let all := acc.reverse
            if 286 < n ∨ 30 < m ∨ codeSlack cl ≠ 0 ∨ codesOk (all.take n) (all.drop n) = false then none
            else some (all.take n, all.drop n, r)

/-- One compressed block (BTYPE 01 or 10) that follows the bytes `win`: BFINAL, BTYPE, its bytes, and its code words in order. The
block must take every bit given. -/
def inflateBlock (win : List Nat) (bs : List Bool) : Option (Nat × Nat × List Nat × List (Nat × Nat)) :=
  match takeBits 1 bs with
  | none => none
  | some (fin, r) => match takeBits 2 r with
    | none => none
    | some (bt, r) =>
      let head := wordBetween bs r
      let body := fun (lit dist : List Nat) (ws : List (Nat × Nat)) (r : List Bool) =>
        match blockGo lit dist (r.length + 1) r win.reverse ws with
        | none => none
        | some (rev, ws, rest) =>
          if rest.isEmpty then some (fin, bt, (rev.take (rev.length - win.length)).reverse, ws.reverse) else none
      if bt = 1 then body staticLit staticDist [head] r
      else if bt = 2 then
        match dynTables r with
        | none => none
        | some (lit, dist, r2) => body lit dist [wordBetween r r2, head] r2
      else none

end Sys2Proof.Machine
end

