-- ==== Sys2Proof/Machine/Bobbin.lean ====
section
/-!
DEFINITION. Bobbin compression (chapter 17): the shaper, blocks and their status records, flushes and the end of a stream, the output
buffer, the context commands, and the saved contexts. The bits a context compresses a block into are free (log entry 60): what the
model fixes is that they decode to the block's input.
-/

set_option autoImplicit false

namespace Sys2Proof.Machine

/-- A context beside its registers is changed. -/
def onBob (x : Nat) (f : BobCtx → BobCtx) (s : State) : State := setBob x (f (bobOf x s)) s

/-! ### The output buffer (R506) -/

/-- The bits the buffer holds at most: 128 KiB. -/
def bobBufBits : Nat := 8 * 131072

/-- One code word enters the buffer. -/
def bobPut (c : BobCtx) (n v : Nat) : BobCtx :=
  let all := c.part + v % 2 ^ n * 2 ^ c.partN
  let m := c.partN + n
  { c with out := c.out ++ (List.range (m / 8)).map (fun i => slice all (8 * i) 8), part := all / 2 ^ (8 * (m / 8)), partN := m % 8 }

/-- Waiting code words enter the buffer while it has room for the next whole one. -/
def bobFill : List (Nat × Nat) → BobCtx → BobCtx
  | [], c => { c with held := [] }
  | (n, v) :: t, c => if 8 * c.out.length + c.partN + n ≤ bobBufBits then bobFill t (bobPut c n v) else { c with held := (n, v) :: t }

/-- The buffer takes what it can, and WAIT_OUT shows whether a code word is held. -/
def bobSettle (x : Nat) (s : State) : State :=
  let c := bobFill (bobOf x s).held (bobOf x s)
  wrB BOB_CTX_STAT_WAIT_OUT x (!c.held.isEmpty) (setBob x c s)

/-- Code words are appended to a stream. -/
def bobEmit (x : Nat) (ws : List (Nat × Nat)) (s : State) : State :=
  bobSettle x (onBob x (fun c => { c with held := c.held ++ ws, bits := c.bits + sumN (ws.map (fun w => w.1)) }) s)

/-! ### Blocks (R500 to R505) -/

/-- A stored block at a stream position: header, then the padding with LEN, NLEN and the data. -/
def storedBlock (bits fin : Nat) (bytes : List Nat) : List (Nat × Nat) :=
  let pad := (8 - (bits + 3) % 8) % 8
  let n := bytes.length
  [(3, fin), (pad + 32 + 8 * n, (n + (65535 - n) * 65536 + leNum bytes * 2 ^ 32) * 2 ^ pad)]

/-- Bits given by a number, first bit least significant. -/
def bitsOf (v n : Nat) : List Bool := (List.range n).map (fun i => bitOf v i)

/-- What a context makes of a block: its code words and type, whether they replace a mismatch, and whether the stream is to be
aborted. -/
structure BobBlock where
  words : List (Nat × Nat)
  btype : Nat
  fallback : Bool := false
  bad : Bool := false
deriving DecidableEq, Repr

/-- The length of a block in bits. -/
def BobBlock.len (b : BobBlock) : Nat := sumN (b.words.map (fun w => w.1))

/-- The encoder's static (1) or dynamic (2) form of a block: its bits are free. Bits that are no such block, or do not decode to the input,
give none. -/
def bobTry (bt fin : Nat) (win bytes : List Nat) (s : State) : Option BobBlock × State :=
  let (n, s) := drawBelow (16 * bytes.length + 8192) s
  let (v, s) := draw s
  (match inflateBlock win (bitsOf v n) with
    | none => none
    | some (f, t, out, ws) => if f = fin ∧ out = bytes ∧ t = bt then some { words := ws, btype := bt } else none, s)

/-- The shortest of the stored, the static and the dynamic form of a block; ties go to the lower BTYPE (R500). -/
def bobShortest (stored a b : BobBlock) : BobBlock :=
  if stored.len ≤ a.len ∧ stored.len ≤ b.len then stored else if a.len ≤ b.len then a else b

/-- A block is encoded and compared with its input: the type is the one TABLES asks for, 11 acting as 10 (R500). A form that does not
decode to the input gives the stored block, whose own comparison may also fail (R502). -/
def bobEncode (tables bits fin : Nat) (win bytes : List Nat) (s : State) : BobBlock × State :=
  let stored : BobBlock := { words := storedBlock bits fin bytes, btype := 0 }
  let (storedFails, s) := drawBit s
  let mismatch : BobBlock := { stored with fallback := true, bad := storedFails }
  let (a, s) := if tables = 1 then (none, s) else bobTry 1 fin win bytes s
  let (b, s) := if tables = 0 then (none, s) else bobTry 2 fin win bytes s
  (match a, b with
    | some a, some b => bobShortest stored a b
    | some a, none => if tables = 0 then a else mismatch
    | none, some b => if tables = 1 then b else mismatch
    | none, none => mismatch, s)

/-- A block's status record (R379, R505), its LOSS left out. -/
def statusWords (x : Nat) (b : BobBlock) (flush fin inBytes outBit adler : Nat) : List Nat :=
  [place x 44 4 + place b.btype 42 2 + place (b2n b.fallback) 41 1 + place flush 40 1 + place fin 39 1 + place inBytes 0 32,
    outBit % 2 ^ 48, sumN (b.words.map (fun w => w.1)) % 2 ^ 32, adler]

/-- A status record is pushed, with LOSS after a discarded one. -/
def pushStatus (ws : List Nat) (s : State) : State :=
  match ws with
  | [] => s
  | w :: t => pushRecord 59 ((w + place (b2n (decide ((queueOf 59 s).lostRecs ≠ 0))) 38 1) :: t) s

/-- A block leaves the encoder: its code words, its count, its record; the final one's record waits for the stream's end. -/
def bobBlock (x : Nat) (b : BobBlock) (flush fin : Nat) (s : State) : State :=
  let c := bobOf x s
  let rec_ := statusWords x b flush fin c.block.length c.bits (rd BOB_CTX_STAT_ADLER x s)
  let s := bump BOB_CTX_CNT_BLOCKS x s
  let s := if b.fallback then raise 232 (bump BOB_CTX_CNT_FALLBACKS x s) else s
  let s := onBob x (fun c =>
    let w := c.window ++ c.block
    { c with window := w.drop (w.length - 32768), block := [], finalRec := if fin = 1 then some rec_ else none }) s
  bobEmit x b.words (if fin = 1 then s else pushStatus rec_ s)

/-- The block in progress ends with the input it has. -/
def bobEndBlock (x flush fin : Nat) (s : State) : State :=
  let c := bobOf x s
  let (b, s) := bobEncode (rd BOB_CTX_CFG_TABLES x s) c.bits fin c.window c.block s
  if b.bad then bobAbort x 7 s else bobBlock x b flush fin s

/-- An empty stored block (R503). -/
def bobEmpty (x : Nat) (s : State) : State :=
  bobBlock x { words := storedBlock (bobOf x s).bits 0 [], btype := 0 } 1 0 s

/-- A forced flush (R503). -/
def bobFlush (x : Nat) (s : State) : State :=
  let c := bobOf x s
  if c.block.isEmpty && decide (c.bits % 48 = 0) then s
  else
    let s := if c.block.isEmpty then s else bobEndBlock x 1 0 s
    if bobSt x s = bIDLE then s
    else
      let s := bobEmpty x s
      times ((bobOf x s).bits / 8 % 6) (bobEmpty x) s

/-- The end of a stream (R504): the final block, padding, trailer, padding to the item boundary. -/
def bobFinish (x : Nat) (s : State) : State :=
  let s := if (bobOf x s).block.isEmpty then bobBlock x { words := [(3, 3), (7, 0)], btype := 1 } 0 1 s else bobEndBlock x 0 1 s
  if bobSt x s = bIDLE then s
  else
    let bits := (bobOf x s).bits
    let pad := (8 - bits % 8) % 8
    let a := rd BOB_CTX_STAT_ADLER x s
    let trailer : List (Nat × Nat) :=
      if rdB BOB_CTX_CFG_WRAP x s then [(8, a / 2 ^ 24), (8, slice a 16 8), (8, slice a 8 8), (8, a % 256)] else []
    let bytes := (bits + pad) / 8 + trailer.length
    bobEmit x ((pad, 0) :: trailer ++ [(8 * ((6 - bytes % 6) % 6), 0)]) s

/-! ### Input (R497 to R499, R501) -/

/-- Adler-32 one byte on. -/
def adlerStep (a b : Nat) : Nat :=
  let lo := (a % 65536 + b) % 65521
  (a / 65536 + lo) % 65521 * 65536 + lo

/-- The block's input limit in bytes. -/
def bobLimit (x : Nat) (s : State) : Nat := 1024 * maxN 1 (rd BOB_CTX_CFG_BLK x s)

/-- A shaped byte enters the block in progress, which ends at its limit. A stream that was aborted takes nothing. -/
def bobByte (x b : Nat) (s : State) : State :=
  if bobSt x s = bIDLE then s
  else
    let s := wr BOB_CTX_IN_IN_BYTES x (satU 48 (rd BOB_CTX_IN_IN_BYTES x s + 1))
      (wr BOB_CTX_STAT_ADLER x (adlerStep (rd BOB_CTX_STAT_ADLER x s) b) (onBob x (fun c => { c with block := c.block ++ [b] }) s))
    if bobLimit x s ≤ (bobOf x s).block.length then bobEndBlock x 0 0 s else s

/-- Shaped bytes enter the stream. -/
def bobBytes (x : Nat) (l : List Nat) (s : State) : State := l.foldl (fun s b => bobByte x b s) s

/-- FRAME as acted on. -/
def bobFrame (x : Nat) (s : State) : Nat := if rd BOB_CTX_SHAPE_FRAME x s = 3 then 0 else rd BOB_CTX_SHAPE_FRAME x s

/-- W as acted on. -/
def bobW (x : Nat) (s : State) : Nat := minN 262144 (rd BOB_CTX_SHAPE_W x s)

/-- The header items of a frame. -/
def bobHead (x : Nat) (s : State) : Nat := if bobFrame x s = 1 then rd BOB_CTX_SHAPE_H x s else if bobFrame x s = 2 then 4 else 0

/-- The body words of the frame in progress. -/
def bobBody (x : Nat) (s : State) : Nat := bobW x s * (bobOf x s).cols

/-- A body word is delta-coded against its column's history. The requester that a history read has in WRP_ERR_ADDR is not given. -/
def bobDelta (x t w : Nat) (s : State) : Nat × State :=
  if rdB BOB_CTX_SHAPE_DELTA x s then
    let a := rd BOB_CTX_HIST_HIST_BASE x s + t / (bobOf x s).cols
    let (k, s) := drawBelow 6 s
    let (r, s) := warpRead (reqOther k) a s
    ((w + 2 ^ 48 - r.data) % 2 ^ 48, warpWrite a w s)
  else (w, s)

/-- A full chunk leaves the shaper, byte plane by byte plane. -/
def bobChunk (x : Nat) (s : State) : State :=
  let ws := (bobOf x s).chunk
  bobBytes x ((List.range 6).flatMap (fun k => ws.map (fun d => slice d (8 * k) 8))) (onBob x (fun c => { c with chunk := [] }) s)

/-- A body word at place `t` enters its chunk. -/
def bobBodyWord (x t w : Nat) (s : State) : State :=
  let (d, s) := bobDelta x t w s
  if rdB BOB_CTX_SHAPE_SPLIT x s then
    let s := onBob x (fun c => { c with chunk := c.chunk ++ [d] }) s
    if (t + 1) % 4096 = 0 ∨ t + 1 = bobBody x s then bobChunk x s else s
  else bobBytes x (wordBytes d) s

/-- An item enters the shaper at its place in the frame (R498). -/
def bobItem (x w : Nat) (s : State) : State :=
  if bobFrame x s = 0 then bobBytes x (wordBytes w) s
  else
    let pos := (bobOf x s).pos
    let h := bobHead x s
    let s :=
      if pos = 0 then
        onBob x (fun c => { c with cols := if bobFrame x s = 2 then slice w 42 2 + 1 else 1 }) s
      else s
    let s := if pos < h then bobBytes x (wordBytes w) s else bobBodyWord x (pos - h) w s
    onBob x (fun c => { c with pos := if pos + 1 = h + bobBody x s then 0 else pos + 1 }) s

/-! ### Starting and closing (R496, R508) -/

/-- Why a START in IDLE is refused: 0 when it is not (R496, R498). -/
def bobStartReason (x : Nat) (s : State) : Nat :=
  let src := rd BOB_CTX_CFG_SRC_Q x s
  let dst := rd BOB_CTX_CFG_DEST_Q x s
  let held := (List.range 4).any (fun y => decide (y ≠ x ∧ bobSt y s ≠ bIDLE ∧ rd BOB_CTX_CFG_SRC_Q y s = src))
  let w := bobW x s
  let h := rd BOB_CTX_HIST_HIST_BASE x s
  if decide (dst < 64 ∨ src = dst) || held || ringBound src s || engineBound src s
      || decide (src = maxN 64 (rd SPC_CTL_DONE_Q 0 s) ∨ src = moveQueue 0 s ∨ src = moveQueue 1 s) then 1
  else if bobFrame x s ≠ 0 ∧ (w = 0 ∨ h < 0x1600000 ∨ 0x1800000 < h + w) then 2
  else 0

/-- A refused command (R508): REFUSED, REASON and the log. -/
def bobRefuse (org : Origin) (x reason : Nat) (v : Qword) (s : State) : State :=
  requestRefused org (BOB_CTX_CTL.off x) reason v (wr BOB_CTX_STAT_REFUSED x 1 (wr BOB_CTX_STAT_REASON x reason s))

/-- A new stream begins (R497, R499): history zero, the zlib header where WRAP asks for it. -/
def bobBegin (x : Nat) (s : State) : State :=
  let s := if bobFrame x s = 0 then s
    else (List.range (bobW x s)).foldl (fun s i => warpWrite (rd BOB_CTX_HIST_HIST_BASE x s + i) 0 s) s
  let s := setBob x { lastIn := s.now, idleDone := false } s
  let s := wr BOB_CTX_STAT_STATE x bRUNNING (wr BOB_CTX_STAT_ADLER x 1 (wr BOB_CTX_IN_IN_BYTES x 0 s))
  if rdB BOB_CTX_CFG_WRAP x s then bobEmit x [(16, 0x5E78)] s else s

/-- A START in IDLE. -/
def bobStartIdle (org : Origin) (x : Nat) (v : Qword) (s : State) : State :=
  let r := bobStartReason x s
  if r = 0 then bobBegin x s else bobRefuse org x r v s

/-- A resumed stream. -/
def bobResume (x : Nat) (s : State) : State :=
  wr BOB_CTX_STAT_STATE x bRUNNING (onBob x (fun c => { c with lastIn := s.now, idleDone := false, closing := 0 }) s)

/-- Whether a context stands between frames. -/
def bobAtBoundary (x : Nat) (s : State) : Bool := bobFrame x s = 0 || (bobOf x s).pos = 0

/-- A close completes once all its output has reached DEST_Q: PAUSED or IDLE, or the deferred start instead (R68, R508). -/
def bobClosed (x : Nat) (s : State) : State :=
  let c := bobOf x s
  if bobSt x s = bCLOSING ∧ c.flush = true ∧ c.held.isEmpty = true ∧ c.out.isEmpty = true ∧ c.partN = 0 then
    let again := rdB BOB_CTX_STAT_START_PENDING x s
    let s := wr BOB_CTX_STAT_START_PENDING x 0 (onBob x (fun c => { c with closing := 0, flush := false }) s)
    if c.closing = 1 then
      if again then bobResume x s else raise 236 (wr BOB_CTX_STAT_STATE x bPAUSED s)
    else
      let room := decide (4 ≤ qRoom 59 s)
      let s := match c.finalRec with
        | some r => (if room then raise 233 (pushStatus r s) else pushStatus r s)
        | none => s
      let s := wr BOB_CTX_STAT_STATE x bIDLE (setBob x {} s)
      if again then bobStartIdle .device x 1#64 s else s
  else s

/-- A CLOSING context that has reached a frame boundary makes its flush or its end. -/
def bobClose (x : Nat) (s : State) : State :=
  let c := bobOf x s
  if bobSt x s = bCLOSING ∧ c.flush = false ∧ bobAtBoundary x s = true then
    let s := if c.closing = 1 then bobFlush x s else bobFinish x s
    if bobSt x s = bIDLE then s else bobClosed x (onBob x (fun c => { c with flush := true }) s)
  else s

/-- The system byte address of a slot (R509). -/
def bobSlotAddr (slot : Nat) (s : State) : Nat := rd BOB_SAVE_BASE_BASE 0 s * 4096 + slot * 2 ^ 21

/-- Whether a slot lies inside FILLED declared regions. -/
def slotInside (slot : Nat) (s : State) : Bool :=
  let a := bobSlotAddr slot s
  insideRegions a (2 ^ 21) s && (blocksOf a (2 ^ 21)).all (fun b => decide (regionState b s = rgFILLED))

/-- One command of BOB_CTX_CTL (R508). -/
def bobCommand (org : Origin) (x : Nat) (v : Qword) (s : State) : State :=
  let st := bobSt x s
  let w := v.toNat
  let slot := slice w 8 4
  let cmd := w % 128
  let bad := bobRefuse org x 3 v s
  if cmd = 1 then
    if st = bIDLE then bobStartIdle org x v s
    else if st = bPAUSED then bobResume x s
    else if st = bCLOSING then wr BOB_CTX_STAT_START_PENDING x 1 s
    else bad
  else if cmd = 2 then
    if st = bRUNNING then bobClose x (wr BOB_CTX_STAT_STATE x bCLOSING (onBob x (fun c => { c with closing := 1, flush := false }) s))
    else bad
  else if cmd = 4 then
    if st = bRUNNING ∨ st = bPAUSED then
      bobClose x (wr BOB_CTX_STAT_STATE x bCLOSING (onBob x (fun c => { c with closing := 2, flush := false }) s))
    else bad
  else if cmd = 8 then (if st = bRUNNING then bobFlush x s else bad)
  else if cmd = 16 then (if st = bRUNNING ∨ st = bCLOSING ∨ st = bPAUSED then bobAbort x 6 s else bad)
  else if cmd = 32 then
    if st = bPAUSED then
      if slotInside slot s then wr BOB_CTX_STAT_STATE x bSAVING (onBob x (fun c => { c with slot := slot }) s)
      else bobRefuse org x 4 v s
    else bad
  else if cmd = 64 then
    if st = bIDLE ∧ (List.range 4).all (fun y => !(decide (bobSt y s = bSAVING ∧ (bobOf y s).slot = slot))) = true then
      wr BOB_CTX_STAT_STATE x bRESTORING (setBob x { slot := slot } s)
    else bad
  else if cmd = 0 then s
  else bad

/-! ### Saved contexts (R509) -/

/-- The history words of a context that delta-codes and is inside a frame, read from the Warp store; none of another. -/
def bobHistory (x : Nat) (s : State) : List Nat × State :=
  if bobFrame x s ≠ 0 ∧ rdB BOB_CTX_SHAPE_DELTA x s = true then
    let (k, s) := drawBelow 6 s
    (List.range (bobW x s)).foldl (fun acc i =>
      let (r, s) := warpRead (reqOther k) (rd BOB_CTX_HIST_HIST_BASE x s + i) acc.2
      (acc.1 ++ [r.data], s)) ([], s)
  else ([], s)

/-- The words of a context's image with its check word zero. The bytes after the window's last are not given, so they are free. -/
def bobImage (x : Nat) (s : State) : List Nat × State :=
  let c := bobOf x s
  let fill := 5462 * 6 - c.window.length
  let (v, s) := drawBelow (2 ^ (8 * fill)) s
  let n := leNum c.window + v * 2 ^ (8 * c.window.length)
  let (hist, s) := bobHistory x s
  ([place 0x424F42 24 24 + place 1 16 8, c.bits % 2 ^ 48, rd BOB_CTX_IN_IN_BYTES x s, rd BOB_CTX_STAT_ADLER x s,
    regShow BOB_CTX_CFG x s, regShow BOB_CTX_SHAPE x s, regShow BOB_CTX_HIST x s, c.window.length, 0]
    ++ (List.range 5462).map (fun i => slice n (48 * i) 48) ++ hist, s)

/-- The check word of an image: over every word with this word taken as zero (R509). -/
def imageCheck (ws : List Nat) : Nat := crc32 ((ws.take 8 ++ [0] ++ ws.drop 9).flatMap wordBytes)

/-- An image with its check word. -/
def withCrc (ws : List Nat) : List Nat := ws.take 8 ++ [imageCheck ws] ++ ws.drop 9

/-- Bytes of whole bursts read from the memory: none when a burst cannot be read. -/
def bobRead (sb : Nat) : Nat → State → Option (List Nat) × State
  | 0, s => (some [], s)
  | n + 1, s =>
    match dramRead sb 0 s with
    | (.data d, s) => match bobRead (sb + 1) n s with
      | (some t, s) => (some (d ++ t), s)
      | (none, s) => (none, s)
    | (.bare, s) => (none, s)
    | (.bad, s) => (none, s)

/-- The words of an image, from its bytes. -/
def imageWords (bytes : List Nat) (n : Nat) : List Nat :=
  match n with
  | 0 => []
  | k + 1 => leNum (bytes.take 6) :: imageWords (bytes.drop 6) k

/-- How many words an image has, by its SHAPE word. -/
def imageLen (shape : Nat) : Nat :=
  let f := slice shape 26 2
  5471 + (if f ≠ 0 ∧ f ≠ 3 ∧ bitOf shape 25 then minN 262144 (shape % 2 ^ 19) else 0)

/-- Whether an image's marks and check match. -/
def imageOk (ws : List Nat) : Bool :=
  let h := ws.getD 0 0
  decide (slice h 24 24 = 0x424F42 ∧ slice h 16 8 = 1 ∧ ws.getD 7 0 ≤ 32768) && decide (ws.getD 8 0 % 2 ^ 32 = imageCheck ws)

/-- A restored context. -/
def bobRestore (x : Nat) (ws : List Nat) (s : State) : State :=
  let q := fun (k : Nat) => BitVec.ofNat 64 (ws.getD k 0)
  let s := regWrite BOB_CTX_HIST x (q 6) (regWrite BOB_CTX_SHAPE x (q 5) (regWrite BOB_CTX_CFG x (q 4) s))
  let base := rd BOB_CTX_HIST_HIST_BASE x s
  let s := (ws.drop 5471).zipIdx.foldl (fun s (e : Nat × Nat) => if base + e.2 < warpWords then warpWrite (base + e.2) e.1 s else s) s
  let s := wr BOB_CTX_IN_IN_BYTES x (ws.getD 2 0) (wr BOB_CTX_STAT_ADLER x (ws.getD 3 0) s)
  let win := ((ws.drop 9).flatMap wordBytes).take (ws.getD 7 0)
  raise 236 (wr BOB_CTX_STAT_STATE x bPAUSED (setBob x { bits := ws.getD 1 0, window := win } s))

/-! ### The commands of this chapter -/

/-- The write of BOB_CTX_CFG, SHAPE or HIST: only while the context is IDLE (R508). -/
def bobCfgWrite (org : Origin) (r : Reg) (x : Nat) (v : Qword) (s : State) : State :=
  if bobSt x s = bIDLE then regWrite r x v s else writeIgnored org (r.off x) v s

/-- The write of BOB_SAVE_BASE: not while a context is SAVING or RESTORING (R511). -/
def bobSaveBaseWrite (org : Origin) (v : Qword) (s : State) : State :=
  if (List.range 4).any (fun x => decide (bobSt x s = bSAVING ∨ bobSt x s = bRESTORING)) then writeIgnored org (BOB_SAVE_BASE.off 0) v s
  else regWrite BOB_SAVE_BASE 0 v s

/-- A write of BOB_CTX_CTL with one command bit and a slot. -/
def ctlOf (bit slot : Nat) : Qword := BitVec.ofNat 64 (2 ^ bit + slot * 256)

/-- BOB_START. -/
def execBobStart (x : Fin 4) (s : State) : Res :=
  if s.sys.inReset then .next s else
  .next (bobCommand .pcie x (ctlOf 0 0) s)

/-- BOB_PAUSE. -/
def execBobPause (x : Fin 4) (s : State) : Res :=
  if s.sys.inReset then .next s else
  .next (bobCommand .pcie x (ctlOf 1 0) s)

/-- BOB_FINISH. -/
def execBobFinish (x : Fin 4) (s : State) : Res :=
  if s.sys.inReset then .next s else
  .next (bobCommand .pcie x (ctlOf 2 0) s)

/-- BOB_FLUSH. -/
def execBobFlush (x : Fin 4) (s : State) : Res :=
  if s.sys.inReset then .next s else
  .next (bobCommand .pcie x (ctlOf 3 0) s)

/-- BOB_ABORT. -/
def execBobAbort (x : Fin 4) (s : State) : Res :=
  if s.sys.inReset then .next s else
  .next (bobCommand .pcie x (ctlOf 4 0) s)

/-- BOB_SAVE. -/
def execBobSave (x : Fin 4) (slot : Fin 16) (s : State) : Res :=
  if s.sys.inReset then .next s else
  .next (bobCommand .pcie x (ctlOf 5 slot) s)

/-- BOB_RESTORE. -/
def execBobRestore (x : Fin 4) (slot : Fin 16) (s : State) : Res :=
  if s.sys.inReset then .next s else
  .next (bobCommand .pcie x (ctlOf 6 slot) s)

/-- Whether a context still takes input: RUNNING, or CLOSING before its frame boundary (R506, R511). -/
def bobReads (x : Nat) (s : State) : Bool :=
  decide (bobSt x s = bRUNNING ∨ (bobSt x s = bCLOSING ∧ (bobOf x s).flush = false))

/-- BOB_ITEM_READ: a context that reads takes the next item of SRC_Q (R499, R506). -/
def execBobItemRead (x : Fin 4) (s : State) : Res :=
  if bobReads x s = true ∧ (bobOf x s).held.isEmpty = true then
    match popItem (rd BOB_CTX_CFG_SRC_Q x s) s with
    | (none, s) => .next s
    | (some (_, w), s) => .next (bobClose x (bobItem x w (onBob x (fun c => { c with lastIn := s.now, idleDone := false }) s)))
  else .next s

/-- BOB_OUTPUT_DRAIN: six bytes of the buffer become an item of DEST_Q, when it can accept one (R495, R506). -/
def execBobOutputDrain (x : Fin 4) (s : State) : Res :=
  let c := bobOf x s
  let q := rd BOB_CTX_CFG_DEST_Q x s
  if 6 ≤ c.out.length ∧ 1 ≤ qRoom q s then
    .next (bobClosed x (bobSettle x (pushItems q 8 [leNum (c.out.take 6)] (onBob x (fun c => { c with out := c.out.drop 6 }) s))))
  else .next s

/-- BOB_IDLE_FLUSH: SRC_Q supplied nothing for IDLE_FLUSH ms to a context that takes input (R503). -/
def execBobIdleFlush (x : Fin 4) (s : State) : Res :=
  let t := rd BOB_CTX_CFG_IDLE_FLUSH x s
  let c := bobOf x s
  if bobReads x s = true ∧ t ≠ 0 ∧ c.idleDone = false
      ∧ (c.held.isEmpty = false ∨ qCount (rd BOB_CTX_CFG_SRC_Q x s) s = 0) then
    .next (bobFlush x (onBob x (fun c => { c with idleDone := true }) (advanceTo (c.lastIn + t * ccMs) s)))
  else .next s

/-- BOB_SAVE_DONE: the image stands in its slot (R509); one whose region has been given up since is not written, and logged (R400). -/
def execBobSaveDone (x : Fin 4) (s : State) : Res :=
  if bobSt x s = bSAVING && !(dramHeld s) then
    let slot := (bobOf x s).slot
    let (ws, s) := bobImage x s
    let s := if insideRegions (bobSlotAddr slot s) (2 ^ 21) s then
        wr BOB_SLOT_STAT_SAVED 0 (setBitTo (rd BOB_SLOT_STAT_SAVED 0 s) slot true)
          (dramWriteWords (bobSlotAddr slot s) (withCrc ws) s)
      else violate blkDRM 0x0F .device 0 0 0 s
    .next (raise 234 (wr BOB_CTX_STAT_STATE x bIDLE (setBob x {} s)))
  else .next s

/-- BOB_RESTORE_DONE: the image was read back, or the restore fails (R509). -/
def execBobRestoreDone (x : Fin 4) (s : State) : Res :=
  if bobSt x s = bRESTORING && !(dramHeld s) then
    let slot := (bobOf x s).slot
    let sb := bobSlotAddr slot s / 64
    let fail := fun (s : State) =>
      raise 235 (wr BOB_CTX_STAT_REASON x 5 (wr BOB_CTX_STAT_STATE x bIDLE (setBob x {} s)))
    if slotInside slot s then
      match bobRead sb 513 s with
      | (none, s) => .next (fail s)
      | (some head, s) =>
        let n := imageLen (leNum ((head.drop 30).take 6))
        match bobRead (sb + 513) ((6 * n + 63) / 64 - 513) s with
        | (none, s) => .next (fail s)
        | (some tail, s) =>
          let ws := imageWords (head ++ tail) n
          .next (if imageOk ws then bobRestore x ws s else fail s)
    else .next (fail s)
  else .next s

end Sys2Proof.Machine
end

