-- ==== Sys2Proof/Machine/Chronov.lean ====
section
/-!
DEFINITION. The Chronov instruction set (chapter 09): how an instruction issues, its operands, its word, and what it does. A
command that names an instruction takes effect when the engine's program stands at that word; otherwise nothing happens. The
latencies of R277 and R278 are not modelled: every instruction acts in one step.
-/

set_option autoImplicit false

namespace Sys2Proof.Machine

/-! ### Registers and flags (R240, R274) -/

/-- A scalar register. -/
def Eng.reg (x : Eng) (r : BitVec 5) : Nat := x.w.get 0 r.toNat

/-- A scalar register as a signed number. -/
def Eng.regZ (x : Eng) (r : BitVec 5) : Int := sx 48 (x.reg r)

/-- A scalar register takes a value, cut to 48 bits. -/
def Eng.put (x : Eng) (r : BitVec 5) (d : Nat) : Eng := x.setW r.toNat d

/-- A scalar register takes a signed value modulo 2^48. -/
def Eng.putZ (x : Eng) (r : BitVec 5) (z : Int) : Eng := x.put r (ux 48 z)

/-- A lane of a lane register. -/
def Eng.lane (x : Eng) (v : BitVec 4) (i : Nat) : Nat := x.v.get 0 (4 * v.toNat + i)

/-- The four lanes of a lane register. -/
def Eng.lanes (x : Eng) (v : BitVec 4) : List Nat := [x.lane v 0, x.lane v 1, x.lane v 2, x.lane v 3]

/-- A lane of a lane register takes a value. -/
def Eng.putLane (x : Eng) (v : BitVec 4) (i d : Nat) : Eng := { x with v := x.v.put 0 (4 * v.toNat + i) (d % 2 ^ 48) }

/-- The lanes of a lane register take four values. -/
def Eng.putLanes (x : Eng) (v : BitVec 4) (l : List Nat) : Eng :=
  [0, 1, 2, 3].foldl (fun x i => x.putLane v i (l.getD i 0)) x

/-- A lane of an accumulator, 112 bits. -/
def Eng.acc1 (x : Eng) (ac : BitVec 2) (i : Nat) : Nat := x.ac.get 0 (4 * ac.toNat + i)

/-- A lane of an accumulator takes a value. -/
def Eng.putAcc (x : Eng) (ac : BitVec 2) (i d : Nat) : Eng := { x with ac := x.ac.put 0 (4 * ac.toNat + i) (d % 2 ^ 112) }

/-- A bit of the status register is set or cleared. -/
def Eng.flag (x : Eng) (b : Nat) (v : Bool) : Eng := { x with st := setBitTo x.st b v }

/-- A bit of the status register. -/
def Eng.bit (x : Eng) (b : Nat) : Bool := bitOf x.st b

/-- Z and N of a 48-bit result. -/
def Eng.zn (x : Eng) (r : Nat) : Eng := (x.flag 0 (r = 0)).flag 1 (bitOf r 47)

/-- C and V. -/
def Eng.cv (x : Eng) (c v : Bool) : Eng := (x.flag 2 c).flag 3 v

/-- SV is set when something saturated. -/
def Eng.sat (x : Eng) (b : Bool) : Eng := if b then x.flag 4 true else x

/-- Whether a value lies outside the signed range of a width. -/
def outS (w : Nat) (z : Int) : Bool := decide (satS w z ≠ z)

/-- The active block-repeat levels. -/
def Eng.rd (x : Eng) : Nat := x.reps.length

/-- The status register as mfs reads it, with RD. -/
def Eng.status (x : Eng) : Nat := x.st + place x.rd 16 3

/-! ### Instruction words (R272, R273) -/

/-- An opcode over its fields. -/
def chOp (op fields : Nat) : Nat := op * 2 ^ 40 + fields

/-- A loom descriptor's nine bits. -/
def loomBits (o : LoomOp) : Nat := b2n o.g * 2 ^ 8 + o.mode.toNat * 2 ^ 6 + o.p.toNat * 2 ^ 3 + o.m.toNat

/-- A vector source's ten bits. -/
def srcBits : VSrc → Nat
  | .reg v => v.toNat
  | .loom o => 2 ^ 9 + loomBits o

/-- Operand b of format A. -/
def opbBits : OpB → Nat
  | .reg wb => wb.toNat * 2 ^ 24
  | .imm v => 2 ^ 29 + v.toNat

def encA (op : Nat) (wd wa : BitVec 5) (b : OpB) : Nat := chOp op (wd.toNat * 2 ^ 35 + wa.toNat * 2 ^ 30 + opbBits b)
def encK (op : Nat) (wd : BitVec 5) (imm : BitVec 24) : Nat := chOp op (wd.toNat * 2 ^ 35 + imm.toNat)
def encS (op : Nat) (w : BitVec 5) (spr : BitVec 6) : Nat := chOp op (w.toNat * 2 ^ 35 + spr.toNat * 2 ^ 24)
def encE (op : Nat) (w : BitVec 5) (v : BitVec 4) (l : BitVec 2) : Nat :=
  chOp op (w.toNat * 2 ^ 35 + v.toNat * 2 ^ 31 + l.toNat * 2 ^ 29)
def encL (op : Nat) (w : BitVec 5) (lo : LoomOp) : Nat := chOp op (w.toNat * 2 ^ 35 + loomBits lo * 2 ^ 26)
def encLV (op : Nat) (v : BitVec 4) (lo : LoomOp) : Nat := chOp op (v.toNat * 2 ^ 36 + loomBits lo * 2 ^ 26)
def encLA (op : Nat) (w : BitVec 5) (a : BitVec 16) : Nat := chOp op (w.toNat * 2 ^ 35 + a.toNat)
def encP (op : Nat) (p m : BitVec 3) (a : BitVec 16) : Nat := chOp op (p.toNat * 2 ^ 37 + m.toNat * 2 ^ 34 + a.toNat)
def encV (op : Nat) (vd : BitVec 4) (s1 s2 : VSrc) (fn : Nat) : Nat :=
  chOp op (vd.toNat * 2 ^ 36 + srcBits s1 * 2 ^ 26 + srcBits s2 * 2 ^ 16 + fn)
def encM (op : Nat) (ac : BitVec 2) (s1 s2 : VSrc) (cj ng clr : Bool) : Nat :=
  chOp op (ac.toNat * 2 ^ 38 + srcBits s1 * 2 ^ 28 + srcBits s2 * 2 ^ 18 + b2n cj * 2 ^ 17 + b2n ng * 2 ^ 16 + b2n clr * 2 ^ 15)
def encX (op : Nat) (vd : BitVec 4) (ac : BitVec 2) (sh : BitVec 6) : Nat :=
  chOp op (vd.toNat * 2 ^ 36 + ac.toNat * 2 ^ 34 + sh.toNat * 2 ^ 28)
def encXR (op : Nat) (wd : BitVec 5) (ac : BitVec 2) (sh : BitVec 6) : Nat :=
  chOp op (wd.toNat * 2 ^ 35 + ac.toNat * 2 ^ 33 + sh.toNat * 2 ^ 27)
def encXL (op : Nat) (ac : BitVec 2) (va : BitVec 4) (sh : BitVec 6) : Nat :=
  chOp op (ac.toNat * 2 ^ 38 + va.toNat * 2 ^ 34 + sh.toNat * 2 ^ 28)
def encQ (op : Nat) (w : BitVec 5) (q : QOp) : Nat :=
  chOp op (w.toNat * 2 ^ 35 + b2n q.r * 2 ^ 34 + q.wq.toNat * 2 ^ 29 + q.qi.toNat * 2 ^ 21 + b2n q.rp * 2 ^ 20
    + q.pri.toNat * 2 ^ 16)
def encB (op : Nat) (hi : Nat) (target : BitVec 14) : Nat := chOp op (hi * 2 ^ 14 + target.toNat)

/-- The count bits of a rep, from bit 14 on. -/
def repBits : RepCount → Nat
  | .imm n => 2 ^ 25 + n.toNat * 2 ^ 8
  | .reg w => w.toNat * 2 ^ 8

/-- The word of each Chronov instruction; none for the other commands. -/
def chWord (i : Instr) : Option Nat :=
  match i with
  | .nop _ => some (chOp 0x00 0)
  | .add _ wd wa b => some (encA 0x01 wd wa b)
  | .sub _ wd wa b => some (encA 0x02 wd wa b)
  | .adds _ wd wa b => some (encA 0x03 wd wa b)
  | .subs _ wd wa b => some (encA 0x04 wd wa b)
  | .and _ wd wa b => some (encA 0x05 wd wa b)
  | .or _ wd wa b => some (encA 0x06 wd wa b)
  | .xor _ wd wa b => some (encA 0x07 wd wa b)
  | .shl _ wd wa b => some (encA 0x08 wd wa b)
  | .shr _ wd wa b => some (encA 0x09 wd wa b)
  | .sar _ wd wa b => some (encA 0x0A wd wa b)
  | .cmp _ wa b => some (encA 0x0B 0 wa b)
  | .min _ wd wa b => some (encA 0x0C wd wa b)
  | .max _ wd wa b => some (encA 0x0D wd wa b)
  | .abs _ wd wa => some (encA 0x0E wd wa (.reg 0))
  | .nrm _ wd wa => some (encA 0x0F wd wa (.reg 0))
  | .mul _ wd wa b => some (encA 0x10 wd wa b)
  | .mulh _ wd wa b => some (encA 0x11 wd wa b)
  | .div _ wd wa b => some (encA 0x12 wd wa b)
  | .movi _ wd imm => some (encK 0x13 wd imm)
  | .movh _ wd imm => some (encK 0x14 wd imm)
  | .mfs _ wd spr => some (encS 0x15 wd spr)
  | .mts _ wa spr => some (encS 0x16 wa spr)
  | .vget _ wd va l => some (encE 0x17 wd va l)
  | .vset _ wa vd l => some (encE 0x18 wa vd l)
  | .vbc _ wa vd => some (encE 0x19 wa vd 0)
  | .lw _ wd lo => some (encL 0x20 wd lo)
  | .sw _ wa lo => some (encL 0x21 wa lo)
  | .lwA _ wd a => some (encLA 0x22 wd a)
  | .swA _ wa a => some (encLA 0x23 wa a)
  | .lv _ vd lo => some (encLV 0x24 vd lo)
  | .sv _ va lo => some (encLV 0x25 va lo)
  | .pset _ p a => some (encP 0x26 p 0 a)
  | .pmod _ p m => some (encP 0x27 p m 0)
  | .vadd _ vd s1 s2 => some (encV 0x30 vd s1 s2 0)
  | .vsub _ vd s1 s2 => some (encV 0x31 vd s1 s2 0)
  | .vadds _ vd s1 s2 => some (encV 0x32 vd s1 s2 0)
  | .vsubs _ vd s1 s2 => some (encV 0x33 vd s1 s2 0)
  | .vaddh _ vd s1 s2 => some (encV 0x34 vd s1 s2 0)
  | .vsubh _ vd s1 s2 => some (encV 0x35 vd s1 s2 0)
  | .vand _ vd s1 s2 => some (encV 0x36 vd s1 s2 0)
  | .vor _ vd s1 s2 => some (encV 0x37 vd s1 s2 0)
  | .vxor _ vd s1 s2 => some (encV 0x38 vd s1 s2 0)
  | .vshl _ vd s1 n => some (encV 0x39 vd s1 (.reg 0) n.toNat)
  | .vsar _ vd s1 n => some (encV 0x3A vd s1 (.reg 0) n.toNat)
  | .vmin _ vd s1 s2 => some (encV 0x3B vd s1 s2 0)
  | .vmax _ vd s1 s2 => some (encV 0x3C vd s1 s2 0)
  | .vabs _ vd s1 => some (encV 0x3D vd s1 (.reg 0) 0)
  | .vconj _ vd s1 => some (encV 0x3E vd s1 (.reg 0) 0)
  | .vcmp _ cc s1 s2 => some (encV 0x3F 0 s1 s2 cc.toNat)
  | .vsel _ vd s1 s2 => some (encV 0x40 vd s1 s2 0)
  | .vsum _ wd s1 => some (encV 0x41 0 s1 (.reg 0) wd.toNat)
  | .vshr _ vd s1 n => some (encV 0x42 vd s1 (.reg 0) n.toNat)
  | .macC _ ac s1 s2 cj ng clr => some (encM 0x48 ac s1 s2 cj ng clr)
  | .macR _ ac s1 s2 ng clr => some (encM 0x49 ac s1 s2 false ng clr)
  | .macP _ ac s1 ng clr => some (encM 0x4A ac s1 (.reg 0) false ng clr)
  | .clrac _ ac => some (encXL 0x4B ac 0 0)
  | .rndC _ vd ac sh => some (encX 0x4C vd ac sh)
  | .rndR _ vd ac sh => some (encX 0x4D vd ac sh)
  | .acredR _ wd ac sh => some (encXR 0x4E wd ac sh)
  | .acredC _ wd ac sh => some (encXR 0x4F wd ac sh)
  | .ldacR _ ac va sh => some (encXL 0x50 ac va sh)
  | .ldacC _ ac va sh => some (encXL 0x51 ac va sh)
  | .ldq _ wa lo => some (encL 0x58 wa lo)
  | .stq _ wa lo => some (encL 0x59 wa lo)
  | .wfence _ => some (chOp 0x5A 0)
  | .push _ wa q => some (encQ 0x60 wa q)
  | .pop _ wd q => some (encQ 0x61 wd q)
  | .qcnt _ wd q => some (encQ 0x62 wd q)
  | .bCond _ cond target => some (encB 0x70 (cond.toNat * 2 ^ 22) target)
  | .call _ target => some (encB 0x71 0 target)
  | .jr _ wa => some (chOp 0x72 (wa.toNat * 2 ^ 30))
  | .rep _ count last => some (encB 0x73 (repBits count) last)
  | .rexit _ => some (chOp 0x74 0)
  | .done _ => some (chOp 0x75 0)
  | .clst _ mask => some (chOp 0x76 mask.toNat)
  | _ => none

/-! ### Well-formed operands and decoding (R272, R273) -/

/-- A loom descriptor is defined: M is zero in the modes that use no modifier (R275). -/
def loomOk (o : LoomOp) : Bool := (o.mode.toNat = 1 || o.mode.toNat = 2) || o.m.toNat = 0

/-- A vector source is defined. -/
def srcOk : VSrc → Bool
  | .reg _ => true
  | .loom o => loomOk o

/-- A queue operand is defined: no immediate where a register gives the value (R286). -/
def qopOk (q : QOp) : Bool := (!q.r || q.qi.toNat = 0) && (!q.rp || q.pri.toNat = 0)

/-- Whether an instruction holds no encoding that chapter 09 calls reserved. -/
def chOk (i : Instr) : Bool :=
  match i with
  | .mfs _ _ spr => spr.toNat < 24
  | .mts _ _ spr => spr.toNat < 21
  | .lw _ _ lo => loomOk lo && !lo.g
  | .sw _ _ lo => loomOk lo && !lo.g
  | .lv _ _ lo => loomOk lo
  | .sv _ _ lo => loomOk lo
  | .vadd _ _ s1 s2 => srcOk s1 && srcOk s2
  | .vsub _ _ s1 s2 => srcOk s1 && srcOk s2
  | .vadds _ _ s1 s2 => srcOk s1 && srcOk s2
  | .vsubs _ _ s1 s2 => srcOk s1 && srcOk s2
  | .vaddh _ _ s1 s2 => srcOk s1 && srcOk s2
  | .vsubh _ _ s1 s2 => srcOk s1 && srcOk s2
  | .vand _ _ s1 s2 => srcOk s1 && srcOk s2
  | .vor _ _ s1 s2 => srcOk s1 && srcOk s2
  | .vxor _ _ s1 s2 => srcOk s1 && srcOk s2
  | .vshl _ _ s1 _ => srcOk s1
  | .vsar _ _ s1 _ => srcOk s1
  | .vmin _ _ s1 s2 => srcOk s1 && srcOk s2
  | .vmax _ _ s1 s2 => srcOk s1 && srcOk s2
  | .vabs _ _ s1 => srcOk s1
  | .vconj _ _ s1 => srcOk s1
  | .vcmp _ cc s1 s2 => cc.toNat < 6 && srcOk s1 && srcOk s2
  | .vsel _ _ s1 s2 => srcOk s1 && srcOk s2
  | .vsum _ _ s1 => srcOk s1
  | .vshr _ _ s1 _ => srcOk s1
  | .macC _ _ s1 s2 _ _ _ => srcOk s1 && srcOk s2
  | .macR _ _ s1 s2 _ _ => srcOk s1 && srcOk s2
  | .macP _ _ s1 _ _ => srcOk s1
  | .ldq _ _ lo => loomOk lo && lo.g
  | .stq _ _ lo => loomOk lo && lo.g
  | .push _ _ q => qopOk q
  | .pop _ _ q => qopOk q && !q.rp && q.pri.toNat = 0
  | .qcnt _ _ q => qopOk q && !q.rp && q.pri.toNat = 0
  | .bCond _ cond _ => cond.toNat < 14
  | _ => true

/-- A field of an instruction word as a bit vector. -/
def fld (w lo n : Nat) : BitVec n := BitVec.ofNat n (w / 2 ^ lo)

/-- The loom descriptor whose lowest bit is `lo`. -/
def loomAt (w lo : Nat) : LoomOp := { g := bitOf w (lo + 8), mode := fld w (lo + 6) 2, p := fld w (lo + 3) 3, m := fld w lo 3 }

/-- The vector source whose lowest bit is `lo`. -/
def srcAt (w lo : Nat) : VSrc := if bitOf w (lo + 9) then .loom (loomAt w lo) else .reg (fld w lo 4)

/-- Operand b of format A. -/
def opbAt (w : Nat) : OpB := if bitOf w 29 then .imm (fld w 0 29) else .reg (fld w 24 5)

/-- The queue operand. -/
def qopAt (w : Nat) : QOp := { r := bitOf w 34, wq := fld w 29 5, qi := fld w 21 8, rp := bitOf w 20, pri := fld w 16 4 }

/-- The count of a rep. -/
def repAt (w : Nat) : RepCount := if bitOf w 39 then .imm (fld w 22 17) else .reg (fld w 22 5)

/-- The instruction that a word's opcode and fields spell, whatever its zero fields hold. -/
def chRead (e : Fin 34) (w : Nat) : Option Instr :=
  let wd : BitVec 5 := fld w 35 5
  let wa : BitVec 5 := fld w 30 5
  let vd : BitVec 4 := fld w 36 4
  let s1 := srcAt w 26
  let s2 := srcAt w 16
  let n : BitVec 6 := fld w 0 6
  match w / 2 ^ 40 with
  | 0x00 => some (.nop e)
  | 0x01 => some (.add e wd wa (opbAt w))
  | 0x02 => some (.sub e wd wa (opbAt w))
  | 0x03 => some (.adds e wd wa (opbAt w))
  | 0x04 => some (.subs e wd wa (opbAt w))
  | 0x05 => some (.and e wd wa (opbAt w))
  | 0x06 => some (.or e wd wa (opbAt w))
  | 0x07 => some (.xor e wd wa (opbAt w))
  | 0x08 => some (.shl e wd wa (opbAt w))
  | 0x09 => some (.shr e wd wa (opbAt w))
  | 0x0A => some (.sar e wd wa (opbAt w))
  | 0x0B => some (.cmp e wa (opbAt w))
  | 0x0C => some (.min e wd wa (opbAt w))
  | 0x0D => some (.max e wd wa (opbAt w))
  | 0x0E => some (.abs e wd wa)
  | 0x0F => some (.nrm e wd wa)
  | 0x10 => some (.mul e wd wa (opbAt w))
  | 0x11 => some (.mulh e wd wa (opbAt w))
  | 0x12 => some (.div e wd wa (opbAt w))
  | 0x13 => some (.movi e wd (fld w 0 24))
  | 0x14 => some (.movh e wd (fld w 0 24))
  | 0x15 => some (.mfs e wd (fld w 24 6))
  | 0x16 => some (.mts e wd (fld w 24 6))
  | 0x17 => some (.vget e wd (fld w 31 4) (fld w 29 2))
  | 0x18 => some (.vset e wd (fld w 31 4) (fld w 29 2))
  | 0x19 => some (.vbc e wd (fld w 31 4))
  | 0x20 => some (.lw e wd (loomAt w 26))
  | 0x21 => some (.sw e wd (loomAt w 26))
  | 0x22 => some (.lwA e wd (fld w 0 16))
  | 0x23 => some (.swA e wd (fld w 0 16))
  | 0x24 => some (.lv e vd (loomAt w 26))
  | 0x25 => some (.sv e vd (loomAt w 26))
  | 0x26 => some (.pset e (fld w 37 3) (fld w 0 16))
  | 0x27 => some (.pmod e (fld w 37 3) (fld w 34 3))
  | 0x30 => some (.vadd e vd s1 s2)
  | 0x31 => some (.vsub e vd s1 s2)
  | 0x32 => some (.vadds e vd s1 s2)
  | 0x33 => some (.vsubs e vd s1 s2)
  | 0x34 => some (.vaddh e vd s1 s2)
  | 0x35 => some (.vsubh e vd s1 s2)
  | 0x36 => some (.vand e vd s1 s2)
  | 0x37 => some (.vor e vd s1 s2)
  | 0x38 => some (.vxor e vd s1 s2)
  | 0x39 => some (.vshl e vd s1 n)
  | 0x3A => some (.vsar e vd s1 n)
  | 0x3B => some (.vmin e vd s1 s2)
  | 0x3C => some (.vmax e vd s1 s2)
  | 0x3D => some (.vabs e vd s1)
  | 0x3E => some (.vconj e vd s1)
  | 0x3F => some (.vcmp e (fld w 0 3) s1 s2)
  | 0x40 => some (.vsel e vd s1 s2)
  | 0x41 => some (.vsum e (fld w 0 5) s1)
  | 0x42 => some (.vshr e vd s1 n)
  | 0x48 => some (.macC e (fld w 38 2) (srcAt w 28) (srcAt w 18) (bitOf w 17) (bitOf w 16) (bitOf w 15))
  | 0x49 => some (.macR e (fld w 38 2) (srcAt w 28) (srcAt w 18) (bitOf w 16) (bitOf w 15))
  | 0x4A => some (.macP e (fld w 38 2) (srcAt w 28) (bitOf w 16) (bitOf w 15))
  | 0x4B => some (.clrac e (fld w 38 2))
  | 0x4C => some (.rndC e vd (fld w 34 2) (fld w 28 6))
  | 0x4D => some (.rndR e vd (fld w 34 2) (fld w 28 6))
  | 0x4E => some (.acredR e wd (fld w 33 2) (fld w 27 6))
  | 0x4F => some (.acredC e wd (fld w 33 2) (fld w 27 6))
  | 0x50 => some (.ldacR e (fld w 38 2) (fld w 34 4) (fld w 28 6))
  | 0x51 => some (.ldacC e (fld w 38 2) (fld w 34 4) (fld w 28 6))
  | 0x58 => some (.ldq e wd (loomAt w 26))
  | 0x59 => some (.stq e wd (loomAt w 26))
  | 0x5A => some (.wfence e)
  | 0x60 => some (.push e wd (qopAt w))
  | 0x61 => some (.pop e wd (qopAt w))
  | 0x62 => some (.qcnt e wd (qopAt w))
  | 0x70 => some (.bCond e (fld w 36 4) (fld w 0 14))
  | 0x71 => some (.call e (fld w 0 14))
  | 0x72 => some (.jr e wa)
  | 0x73 => some (.rep e (repAt w) (fld w 0 14))
  | 0x74 => some (.rexit e)
  | 0x75 => some (.done e)
  | 0x76 => some (.clst e (fld w 0 3))
  | _ => none

/-- The instruction a word stands for on an engine; none for an undefined word (R272). -/
def chDecode (e : Fin 34) (w : Nat) : Option Instr :=
  match chRead e w with
  | some i => if chOk i ∧ chWord i = some w then some i else none
  | none => none

/-! ### Issue (R277, R294) -/

/-- What becomes of an instruction at issue: a value, a fault with the bare loom words read before it, or a stall that leaves everything
as it is. -/
inductive Got (α : Type) where
  | ok (a : α)
  | fault (code : Nat) (bare : Nat := 0)
  | wait
deriving DecidableEq, Repr

/-- One part of an instruction after another. -/
def Got.andThen {α β : Type} (g : Got α) (f : α → Got β) : Got β :=
  match g with
  | .ok a => f a
  | .fault c n => .fault c n
  | .wait => .wait

/-- The bare words that another read of the same instruction found are counted beside a fault. -/
def Got.bareToo {α : Type} (n : Nat) (g : Got α) : Got α :=
  match g with
  | .ok a => .ok a
  | .fault c m => .fault c (n + m)
  | .wait => .wait

/-- Whether an engine is about to issue an instruction: it serves, runs a handler and is not stalled. -/
def issuing (e : Nat) (s : State) : Bool :=
  (engSt e s = eRUNNING || engSt e s = eCLOSING) && (engOf e s).handler.isSome && (engOf e s).stall.isNone

/-- How the word at an engine's instruction address reads, where the address lies in the image. -/
def issueRead (e : Nat) (s : State) : Option WRead :=
  match (engOf e s).img with
  | none => none
  | some i => if (engOf e s).pc < i.instr then some (decodeWord ((engOf e s).istore.get bareWord (engOf e s).pc)) else none

/-- Whether a word is defined (R272). -/
def chDefined (w : Nat) : Bool := (chDecode 0 w).isSome

/-- Whether an engine is about to issue the instruction with a given word, which is a defined one. -/
def issues (e w : Nat) (s : State) : Bool :=
  issuing e s && chDefined w && (match issueRead e s with
    | some r => decide (r ≠ .bad ∧ r.data = w)
    | none => false)

/-- The innermost levels whose END is the address just passed end their pass: they loop back while the count lasts, else close. -/
def repEnd (a : Nat) (x : Eng) : List (Nat × Nat) → Eng
  | [] => { x with reps := [], pc := a + 1 }
  | (first, last) :: t =>
    if last = a then
      let c := (x.lc.get 0 t.length + 2 ^ 17 - 1) % 2 ^ 17
      let x := { x with lc := x.lc.put 0 t.length c }
      if 0 < c then { x with reps := (first, last) :: t, pc := first } else repEnd a x t
    else { x with reps := (first, last) :: t, pc := a + 1 }

/-- An instruction that does not branch has issued: the next address (R291). -/
def Eng.advance (x : Eng) : Eng := repEnd x.pc x x.reps

/-- An instruction issues with a word and an effect on its engine. The effect answers the engine, its program counter already moved
on, and how many bare loom words it read (R294, R301). -/
def chRun (e w : Nat) (body : Eng → Got (Eng × Nat)) (s : State) : Res :=
  .next (if issues e w s then
    match body (engOf e s) with
    | .ok (x, n) => bumpBy WRP_CNT_BARE_READS 0 n (setEng e x s)
    | .fault c n => engineFault e c (engOf e s).pc (bumpBy WRP_CNT_BARE_READS 0 n s)
    | .wait => s
  else s)

/-- An instruction without loom operands that moves on to the next address. -/
def chPlain (e w : Nat) (f : Eng → Eng) (s : State) : Res := chRun e w (fun x => .ok ((f x).advance, 0)) s

/-! ### Loom addressing (R275, R276) -/

/-- The `k` low bits of `x` reversed. -/
def revBits (x : Nat) : Nat → Nat
  | 0 => 0
  | k + 1 => x % 2 * 2 ^ k + revBits (x / 2) k

/-- The exponent of the smallest power of two not below `n` (n ≤ 65536). -/
def clog2 (n : Nat) : Nat := ((List.range 17).find? (fun k => decide (n ≤ 2 ^ k))).getD 16

/-- The update function of a pointer by a modifier; none for pointer misuse. -/
def nextPtr (a m : Nat) : Option Nat :=
  let step := m % 2 ^ 16
  let md := slice m 24 16
  let k := clog2 md
  let b := a - a % 2 ^ k
  if bitOf m 47 then
    if 2 ≤ md ∧ md ≤ 32768 ∧ md = 2 ^ k then
      some (b + revBits ((revBits (a - b) k + revBits (step % 2 ^ k) k) % 2 ^ k) k)
    else none
  else if md ≠ 0 then
    if md ≤ a - b then none else some (b + ((((a - b : Nat) : Int) + sx 16 step) % (md : Int)).toNat)
  else some ((a + step) % 65536)

/-- The address of a loom operand and the pointer's next value (R275). -/
def loomAddr (x : Eng) (o : LoomOp) : Got (Nat × Nat) :=
  let p := x.p.get 0 o.p.toNat
  let mod := x.m.get 0 o.m.toNat
  let r : Option (Nat × Nat) := match o.mode.toNat with
    | 0 => some (p, p)
    | 1 => (nextPtr p mod).map (fun q => (p, q))
    | 2 => (nextPtr p mod).map (fun q => (q, p))
    | _ => some (p, (p + if o.g then 4 else 1) % 65536)
  match r with
  | none => .fault 6
  | some (a, q) => if o.g ∧ a % 4 ≠ 0 then .fault 6 else .ok (a, q)

/-- A pointer takes a value. -/
def Eng.putP (x : Eng) (p : BitVec 3) (a : Nat) : Eng := { x with p := x.p.put 0 p.toNat (a % 65536) }

/-- A pointer that an operand's mode updates takes its next value. -/
def Eng.updP (x : Eng) (o : LoomOp) (a : Nat) : Eng :=
  if o.mode.toNat = 1 ∨ o.mode.toNat = 3 then x.putP o.p a else x

/-- The loom words of an operand. -/
def loomSpan (o : LoomOp) (a : Nat) : List Nat := if o.g then [a, a + 1, a + 2, a + 3] else [a]

/-- Whether an outstanding ldq will write a loom word (R244). -/
def Eng.owed (x : Eng) (a : Nat) : Bool := x.acc.any (fun k => !k.store && decide (k.loom ≤ a ∧ a < k.loom + 4))

/-- A loom word takes a stored form. -/
def Eng.putLoom (x : Eng) (a : Nat) (v : Stored) : Eng := { x with loom := x.loom.put bareWord a v }

/-- What loom words read as: the data, the engine with corrected words written back, the bare words among them, and whether one is
uncorrectable (R242, R281). -/
def loomWords (x : Eng) : List Nat → List Nat × Eng × Nat × Bool
  | [] => ([], x, 0, false)
  | a :: t =>
    match decodeWord (x.loom.get bareWord a) with
    | .bad => let r := loomWords x t; (0 :: r.1, r.2.1, r.2.2.1, true)
    | .clean d => let r := loomWords x t; (d :: r.1, r.2)
    | .corrected d => let r := loomWords (x.putLoom a (encodeWord d)) t; (d :: r.1, r.2)
    | .bare => let r := loomWords (x.flag 5 true) t; (0 :: r.1, r.2.1, r.2.2.1 + 1, r.2.2.2)
    | .bareUpset => let r := loomWords ((x.flag 5 true).putLoom a bareWord) t; (0 :: r.1, r.2.1, r.2.2.1 + 1, r.2.2.2)

/-- A read of loom words: it waits while an ldq owes one of them, and faults where one is uncorrectable; the bare ones were read even
then (R301). -/
def readLoom (x : Eng) (l : List Nat) : Got (List Nat × Eng × Nat) :=
  if l.any x.owed then .wait
  else
    let r := loomWords x l
    if r.2.2.2 then .fault 5 r.2.2.1 else .ok (r.1, r.2.1, r.2.2.1)

/-- The four lanes of an operand's words (R281): a group gives one word to each lane, a single word goes to every lane. -/
def spread (o : LoomOp) (l : List Nat) : List Nat :=
  if o.g then l else [l.getD 0 0, l.getD 0 0, l.getD 0 0, l.getD 0 0]

/-- Whether the loom operands of vector sources can be read: no pointer misuse, and no word that an ldq owes. -/
def srcsReady (x : Eng) : List VSrc → Got Unit
  | [] => .ok ()
  | .reg _ :: t => srcsReady x t
  | .loom o :: t =>
    match loomAddr x o, srcsReady x t with
    | .fault c n, _ => .fault c n
    | _, .fault c n => .fault c n
    | .ok a, r => if (loomSpan o a.1).any x.owed then .wait else r
    | .wait, _ => .wait

/-- Vector sources are read together: every address is formed from the pointers as they stand before the instruction, and the update of
the later source stands (R275). `x` is the engine before the instruction, `y` the engine as the reads leave it. -/
def readSrcs (x y : Eng) : List VSrc → Got (List (List Nat) × Eng × Nat)
  | [] => .ok ([], y, 0)
  | .reg v :: t => (readSrcs x y t).andThen (fun r => .ok (x.lanes v :: r.1, r.2))
  | .loom o :: t =>
    (loomAddr x o).andThen (fun a =>
      match readLoom y (loomSpan o a.1) with
      | .ok l => ((readSrcs x (l.2.1.updP o a.2) t).bareToo l.2.2).andThen (fun r => .ok (spread o l.1 :: r.1, r.2.1, l.2.2 + r.2.2))
      | .fault c n => match readSrcs x y t with
        | .ok r => .fault c (n + r.2.2)
        | .fault _ m => .fault c (n + m)
        | .wait => .wait
      | .wait => .wait)

/-- A vector instruction: its sources are read, then its effect happens. -/
def chVec (e w : Nat) (srcs : List VSrc) (f : List (List Nat) → Eng → Eng) (s : State) : Res :=
  chRun e w (fun x => (srcsReady x srcs).andThen (fun _ =>
    (readSrcs x x srcs).andThen (fun r => .ok ((f r.1 r.2.1).advance, r.2.2)))) s

/-! ### Scalar instructions (R279, R280) -/

/-- The value of operand b, modulo 2^48. -/
def Eng.opb (x : Eng) : OpB → Nat
  | .reg wb => x.reg wb
  | .imm v => ux 48 v.toInt

/-- A format-A instruction: `f` answers the engine from the operands. -/
def chA (e op : Nat) (wd wa : BitVec 5) (b : OpB) (f : Nat → Nat → Eng → Eng) (s : State) : Res :=
  chPlain e (encA op wd wa b) (fun x => f (x.reg wa) (x.opb b) x) s

/-- A logical result with Z and N. -/
def chLogic (e op : Nat) (wd wa : BitVec 5) (b : OpB) (f : Nat → Nat → Nat) (s : State) : Res :=
  chA e op wd wa b (fun a c x => (x.put wd (f a c)).zn (f a c % 2 ^ 48)) s

/-- The flags of a subtraction. -/
def subFlags (a c : Nat) (x : Eng) : Eng :=
  (x.zn (ux 48 ((a : Int) - c))).cv (a < c) (outS 48 (sx 48 a - sx 48 c))

/-- A saturating result with Z, N, V and SV. -/
def satResult (wd : BitVec 5) (z : Int) (x : Eng) : Eng :=
  ((x.putZ wd (satS 48 z)).zn (ux 48 (satS 48 z))).flag 3 (outS 48 z) |>.sat (outS 48 z)

/-- Logical shifts; a count of 48 or more gives 0. -/
def shlN (a n : Nat) : Nat := if 48 ≤ n then 0 else a * 2 ^ n % 2 ^ 48
def shrN (a n : Nat) : Nat := if 48 ≤ n then 0 else a / 2 ^ n

/-- Arithmetic shift right; a count of 48 or more gives copies of the sign. -/
def sarN (a n : Nat) : Nat := ux 48 (sx 48 a / (2 ^ (minN n 47) : Int))

/-- Leading bits equal to the sign bit, less one. -/
def nrmN (a : Nat) : Nat :=
  let m := if bitOf a 47 then 2 ^ 48 - 1 - a % 2 ^ 48 else a % 2 ^ 48
  ((List.range 48).find? (fun k => decide (2 ^ (46 - k) ≤ m ∧ k < 47))).getD 47

/-- The quotient of div and whether it saturated. -/
def divN (a c : Nat) : Int × Bool :=
  let x := sx 48 a
  let y := sx 48 c
  if y = 0 then ((if 0 ≤ x then 2 ^ 47 - 1 else -2 ^ 47), true)
  else if x = -2 ^ 47 ∧ y = -1 then (2 ^ 47 - 1, true)
  else (x.tdiv y, false)

def execNop (e : Fin 34) (s : State) : Res := chPlain e (chOp 0x00 0) id s
def execAdd (e : Fin 34) (wd wa : BitVec 5) (b : OpB) (s : State) : Res :=
  chA e 0x01 wd wa b (fun a c x => ((x.put wd (a + c)).zn ((a + c) % 2 ^ 48)).cv (2 ^ 48 ≤ a + c)
    (outS 48 (sx 48 a + sx 48 c))) s
def execSub (e : Fin 34) (wd wa : BitVec 5) (b : OpB) (s : State) : Res :=
  chA e 0x02 wd wa b (fun a c x => subFlags a c (x.putZ wd ((a : Int) - c))) s
def execAdds (e : Fin 34) (wd wa : BitVec 5) (b : OpB) (s : State) : Res :=
  chA e 0x03 wd wa b (fun a c x => satResult wd (sx 48 a + sx 48 c) x) s
def execSubs (e : Fin 34) (wd wa : BitVec 5) (b : OpB) (s : State) : Res :=
  chA e 0x04 wd wa b (fun a c x => satResult wd (sx 48 a - sx 48 c) x) s
def execAnd (e : Fin 34) (wd wa : BitVec 5) (b : OpB) (s : State) : Res := chLogic e 0x05 wd wa b Nat.land s
def execOr (e : Fin 34) (wd wa : BitVec 5) (b : OpB) (s : State) : Res := chLogic e 0x06 wd wa b Nat.lor s
def execXor (e : Fin 34) (wd wa : BitVec 5) (b : OpB) (s : State) : Res := chLogic e 0x07 wd wa b Nat.xor s
def execShl (e : Fin 34) (wd wa : BitVec 5) (b : OpB) (s : State) : Res :=
  chLogic e 0x08 wd wa b (fun a c => shlN a (c % 64)) s
def execShr (e : Fin 34) (wd wa : BitVec 5) (b : OpB) (s : State) : Res :=
  chLogic e 0x09 wd wa b (fun a c => shrN a (c % 64)) s
def execSar (e : Fin 34) (wd wa : BitVec 5) (b : OpB) (s : State) : Res :=
  chLogic e 0x0A wd wa b (fun a c => sarN a (c % 64)) s
def execCmp (e : Fin 34) (wa : BitVec 5) (b : OpB) (s : State) : Res :=
  chA e 0x0B 0 wa b subFlags s
def execMin (e : Fin 34) (wd wa : BitVec 5) (b : OpB) (s : State) : Res :=
  chLogic e 0x0C wd wa b (fun a c => if sx 48 c < sx 48 a then c else a) s
def execMax (e : Fin 34) (wd wa : BitVec 5) (b : OpB) (s : State) : Res :=
  chLogic e 0x0D wd wa b (fun a c => if sx 48 a < sx 48 c then c else a) s
def execAbs (e : Fin 34) (wd wa : BitVec 5) (s : State) : Res :=
  chA e 0x0E wd wa (.reg 0) (fun a _ x =>
    let z : Int := (sx 48 a).natAbs
    ((x.putZ wd (satS 48 z)).zn (ux 48 (satS 48 z))).sat (outS 48 z)) s
def execNrm (e : Fin 34) (wd wa : BitVec 5) (s : State) : Res :=
  chA e 0x0F wd wa (.reg 0) (fun a _ x => (x.put wd (nrmN a)).flag 0 (nrmN a = 0)) s
def execMul (e : Fin 34) (wd wa : BitVec 5) (b : OpB) (s : State) : Res :=
  chLogic e 0x10 wd wa b (fun a c => ux 48 (sx 48 a * sx 48 c)) s
def execMulh (e : Fin 34) (wd wa : BitVec 5) (b : OpB) (s : State) : Res :=
  chLogic e 0x11 wd wa b (fun a c => ux 48 (sx 48 a * sx 48 c / (2 ^ 48 : Int))) s
def execDiv (e : Fin 34) (wd wa : BitVec 5) (b : OpB) (s : State) : Res :=
  chA e 0x12 wd wa b (fun a c x =>
    ((x.putZ wd (divN a c).1).zn (ux 48 (divN a c).1)).sat (divN a c).2) s
def execMovi (e : Fin 34) (wd : BitVec 5) (imm : BitVec 24) (s : State) : Res :=
  chPlain e (encK 0x13 wd imm) (fun x => x.putZ wd imm.toInt) s
def execMovh (e : Fin 34) (wd : BitVec 5) (imm : BitVec 24) (s : State) : Res :=
  chPlain e (encK 0x14 wd imm) (fun x => x.put wd (imm.toNat * 2 ^ 24 + x.reg wd % 2 ^ 24)) s

/-- The value of a special register (R280). -/
def sprRead (e : Nat) (x : Eng) (spr : Nat) (s : State) : Nat :=
  if spr < 8 then x.p.get 0 spr
  else if spr < 16 then x.m.get 0 (spr - 8)
  else if spr < 20 then x.lc.get 0 (spr - 16)
  else if spr = 20 then x.status
  else if spr = 21 then s.now % 2 ^ 48
  else if spr = 22 then rd SYS_PICK_NUM_NUM 0 s
  else place e 8 6 + ((servedBy e s).getD 0) % 32

/-- The bits of st that mts writes (R274). -/
def stMask : Nat := 0xFF7F

/-- The bits of a modifier register (R276). -/
def modMask : Nat := 0x80FFFF00FFFF

/-- A special register takes a value (R274, R280). -/
def sprWrite (x : Eng) (spr d : Nat) : Eng :=
  if spr < 8 then { x with p := x.p.put 0 spr (d % 2 ^ 16) }
  else if spr < 16 then { x with m := x.m.put 0 (spr - 8) (Nat.land d modMask) }
  else if spr < 20 then { x with lc := x.lc.put 0 (spr - 16) (d % 2 ^ 17) }
  else if spr = 20 then { x with st := Nat.land d stMask }
  else x

def execMfs (e : Fin 34) (wd : BitVec 5) (spr : BitVec 6) (s : State) : Res :=
  if spr.toNat < 24 then chPlain e (encS 0x15 wd spr) (fun x => x.put wd (sprRead e x spr.toNat s)) s else .next s
def execMts (e : Fin 34) (wa : BitVec 5) (spr : BitVec 6) (s : State) : Res :=
  if spr.toNat < 21 then chPlain e (encS 0x16 wa spr) (fun x => sprWrite x spr.toNat (x.reg wa)) s else .next s
def execVget (e : Fin 34) (wd : BitVec 5) (va : BitVec 4) (lane : BitVec 2) (s : State) : Res :=
  chPlain e (encE 0x17 wd va lane) (fun x => x.put wd (x.lane va lane.toNat)) s
def execVset (e : Fin 34) (wa : BitVec 5) (vd : BitVec 4) (lane : BitVec 2) (s : State) : Res :=
  chPlain e (encE 0x18 wa vd lane) (fun x => x.putLane vd lane.toNat (x.reg wa)) s
def execVbc (e : Fin 34) (wa : BitVec 5) (vd : BitVec 4) (s : State) : Res :=
  chPlain e (encE 0x19 wa vd 0) (fun x => x.putLanes vd [x.reg wa, x.reg wa, x.reg wa, x.reg wa]) s

/-! ### Loom instructions (R281) -/

/-- A load: the words of an operand are read and the pointer moves. -/
def chLoad (e w : Nat) (o : LoomOp) (f : List Nat → Eng → Eng) (s : State) : Res :=
  chRun e w (fun x => (loomAddr x o).andThen (fun a =>
    (readLoom x (loomSpan o a.1)).andThen (fun r => .ok ((f r.1 (r.2.1.updP o a.2)).advance, r.2.2)))) s

/-- A store: the words of an operand are written and the pointer moves. -/
def chStore (e w : Nat) (o : LoomOp) (f : Eng → List Nat) (s : State) : Res :=
  chRun e w (fun x => (loomAddr x o).andThen (fun a =>
    if (loomSpan o a.1).any x.owed then .wait
    else .ok ((((loomSpan o a.1).zip (f x)).foldl (fun y z => y.putLoom z.1 (encodeWord z.2)) (x.updP o a.2)).advance, 0))) s

def execLw (e : Fin 34) (wd : BitVec 5) (lo : LoomOp) (s : State) : Res :=
  chLoad e (encL 0x20 wd lo) lo (fun l x => x.put wd (l.getD 0 0)) s
def execSw (e : Fin 34) (wa : BitVec 5) (lo : LoomOp) (s : State) : Res :=
  chStore e (encL 0x21 wa lo) lo (fun x => [x.reg wa]) s
def execLwA (e : Fin 34) (wd : BitVec 5) (a : BitVec 16) (s : State) : Res :=
  chRun e (encLA 0x22 wd a) (fun x =>
    (readLoom x [a.toNat]).andThen (fun r => .ok ((r.2.1.put wd (r.1.getD 0 0)).advance, r.2.2))) s
def execSwA (e : Fin 34) (wa : BitVec 5) (a : BitVec 16) (s : State) : Res :=
  chRun e (encLA 0x23 wa a) (fun x =>
    if x.owed a.toNat then .wait else .ok ((x.putLoom a.toNat (encodeWord (x.reg wa))).advance, 0)) s
def execLv (e : Fin 34) (vd : BitVec 4) (lo : LoomOp) (s : State) : Res :=
  chLoad e (encLV 0x24 vd lo) lo (fun l x => x.putLanes vd (spread lo l)) s
def execSv (e : Fin 34) (va : BitVec 4) (lo : LoomOp) (s : State) : Res :=
  chStore e (encLV 0x25 va lo) lo (fun x => x.lanes va) s
def execPset (e : Fin 34) (p : BitVec 3) (a : BitVec 16) (s : State) : Res :=
  chPlain e (encP 0x26 p 0 a) (fun x => x.putP p a.toNat) s
def execPmod (e : Fin 34) (p m : BitVec 3) (s : State) : Res :=
  chRun e (encP 0x27 p m 0) (fun x =>
    match nextPtr (x.p.get 0 p.toNat) (x.m.get 0 m.toNat) with
    | none => .fault 6
    | some a => .ok ((x.putP p a).advance, 0)) s

/-! ### Vector instructions (R282) -/

/-- The halves of a complex word. -/
def cI (w : Nat) : Int := sx 24 (w / 2 ^ 24)
def cQ (w : Nat) : Int := sx 24 w

/-- A complex word of two saturated halves. -/
def cWord (i q : Int) : Nat := ux 24 (satS 24 i) * 2 ^ 24 + ux 24 (satS 24 q)

/-- Whether some half saturates. -/
def cOut (i q : Int) : Bool := outS 24 i || outS 24 q

/-- Lane by lane over two sources: the result and whether it saturated. -/
def lanes2 (f : Nat → Nat → Nat × Bool) (l : List (List Nat)) : List (Nat × Bool) :=
  ((l.getD 0 []).zip (l.getD 1 [])).map (fun z => f z.1 z.2)

/-- A vector register takes the results of the lanes, and SV is set when one saturated. -/
def putRes (vd : BitVec 4) (r : List (Nat × Bool)) (x : Eng) : Eng :=
  (x.putLanes vd (r.map (·.1))).sat (r.any (·.2))

/-- A vector instruction of two sources. -/
def chV2 (e op : Nat) (vd : BitVec 4) (s1 s2 : VSrc) (f : Nat → Nat → Nat × Bool) (s : State) : Res :=
  chVec e (encV op vd s1 s2 0) [s1, s2] (fun l x => putRes vd (lanes2 f l) x) s

/-- A vector instruction of one source. -/
def chV1 (e op : Nat) (vd : BitVec 4) (s1 : VSrc) (fn : Nat) (f : Nat → Nat × Bool) (s : State) : Res :=
  chVec e (encV op vd s1 (.reg 0) fn) [s1] (fun l x => putRes vd ((l.getD 0 []).map f) x) s

/-- A saturated 48-bit lane result. -/
def sat48 (z : Int) : Nat × Bool := (ux 48 (satS 48 z), outS 48 z)

/-- The comparisons of vcmp. -/
def ccHolds (cc : Nat) (a b : Int) : Bool :=
  match cc with
  | 0 => a = b
  | 1 => a ≠ b
  | 2 => a < b
  | 3 => b ≤ a
  | 4 => b < a
  | _ => a ≤ b

def execVadd (e : Fin 34) (vd : BitVec 4) (s1 s2 : VSrc) (s : State) : Res :=
  chV2 e 0x30 vd s1 s2 (fun a b => ((a + b) % 2 ^ 48, false)) s
def execVsub (e : Fin 34) (vd : BitVec 4) (s1 s2 : VSrc) (s : State) : Res :=
  chV2 e 0x31 vd s1 s2 (fun a b => (ux 48 ((a : Int) - b), false)) s
def execVadds (e : Fin 34) (vd : BitVec 4) (s1 s2 : VSrc) (s : State) : Res :=
  chV2 e 0x32 vd s1 s2 (fun a b => sat48 (sx 48 a + sx 48 b)) s
def execVsubs (e : Fin 34) (vd : BitVec 4) (s1 s2 : VSrc) (s : State) : Res :=
  chV2 e 0x33 vd s1 s2 (fun a b => sat48 (sx 48 a - sx 48 b)) s
def execVaddh (e : Fin 34) (vd : BitVec 4) (s1 s2 : VSrc) (s : State) : Res :=
  chV2 e 0x34 vd s1 s2 (fun a b => (cWord (cI a + cI b) (cQ a + cQ b), cOut (cI a + cI b) (cQ a + cQ b))) s
def execVsubh (e : Fin 34) (vd : BitVec 4) (s1 s2 : VSrc) (s : State) : Res :=
  chV2 e 0x35 vd s1 s2 (fun a b => (cWord (cI a - cI b) (cQ a - cQ b), cOut (cI a - cI b) (cQ a - cQ b))) s
def execVand (e : Fin 34) (vd : BitVec 4) (s1 s2 : VSrc) (s : State) : Res :=
  chV2 e 0x36 vd s1 s2 (fun a b => (Nat.land a b, false)) s
def execVor (e : Fin 34) (vd : BitVec 4) (s1 s2 : VSrc) (s : State) : Res :=
  chV2 e 0x37 vd s1 s2 (fun a b => (Nat.lor a b, false)) s
def execVxor (e : Fin 34) (vd : BitVec 4) (s1 s2 : VSrc) (s : State) : Res :=
  chV2 e 0x38 vd s1 s2 (fun a b => (Nat.xor a b, false)) s
def execVshl (e : Fin 34) (vd : BitVec 4) (s1 : VSrc) (n : BitVec 6) (s : State) : Res :=
  chV1 e 0x39 vd s1 n.toNat (fun a => (shlN a n.toNat, false)) s
def execVsar (e : Fin 34) (vd : BitVec 4) (s1 : VSrc) (n : BitVec 6) (s : State) : Res :=
  chV1 e 0x3A vd s1 n.toNat (fun a => (sarN a n.toNat, false)) s
def execVmin (e : Fin 34) (vd : BitVec 4) (s1 s2 : VSrc) (s : State) : Res :=
  chV2 e 0x3B vd s1 s2 (fun a b => (if sx 48 b < sx 48 a then b else a, false)) s
def execVmax (e : Fin 34) (vd : BitVec 4) (s1 s2 : VSrc) (s : State) : Res :=
  chV2 e 0x3C vd s1 s2 (fun a b => (if sx 48 a < sx 48 b then b else a, false)) s
def execVabs (e : Fin 34) (vd : BitVec 4) (s1 : VSrc) (s : State) : Res :=
  chV1 e 0x3D vd s1 0 (fun a => sat48 (sx 48 a).natAbs) s
def execVconj (e : Fin 34) (vd : BitVec 4) (s1 : VSrc) (s : State) : Res :=
  chV1 e 0x3E vd s1 0 (fun a => (cWord (cI a) (-(cQ a)), outS 24 (-(cQ a)))) s
def execVcmp (e : Fin 34) (cc : BitVec 3) (s1 s2 : VSrc) (s : State) : Res :=
  chVec e (encV 0x3F 0 s1 s2 cc.toNat) [s1, s2] (fun l x =>
    let r := lanes2 (fun a b => (0, ccHolds cc.toNat (sx 48 a) (sx 48 b))) l
    [0, 1, 2, 3].foldl (fun x i => x.flag (8 + i) ((r.getD i (0, false)).2)) x) s
def execVsel (e : Fin 34) (vd : BitVec 4) (s1 s2 : VSrc) (s : State) : Res :=
  chVec e (encV 0x40 vd s1 s2 0) [s1, s2] (fun l x =>
    x.putLanes vd ([0, 1, 2, 3].map (fun i =>
      if x.bit (8 + i) then (l.getD 0 []).getD i 0 else (l.getD 1 []).getD i 0))) s
def execVsum (e : Fin 34) (wd : BitVec 5) (s1 : VSrc) (s : State) : Res :=
  chVec e (encV 0x41 0 s1 (.reg 0) wd.toNat) [s1] (fun l x =>
    (x.put wd (sumN (l.getD 0 []))).zn (sumN (l.getD 0 []) % 2 ^ 48)) s
def execVshr (e : Fin 34) (vd : BitVec 4) (s1 : VSrc) (n : BitVec 6) (s : State) : Res :=
  chV1 e 0x42 vd s1 n.toNat (fun a => (shrN a n.toNat, false)) s

/-! ### Accumulators (R283) -/

/-- The halves of a complex accumulator. -/
def accRe (a : Nat) : Int := sx 56 (a / 2 ^ 56)
def accIm (a : Nat) : Int := sx 56 a

/-- A complex accumulator of two saturated halves, and whether one saturated. -/
def accC (re im : Int) : Nat × Bool :=
  (ux 56 (satS 56 re) * 2 ^ 56 + ux 56 (satS 56 im), outS 56 re || outS 56 im)

/-- The real value of an accumulator. -/
def accReal (a : Nat) : Int := sx 104 a

/-- A real accumulator of a saturated value: bits 111 to 104 copy bit 103. -/
def accR (z : Int) : Nat × Bool := (ux 112 (satS 104 z), outS 104 z)

/-- Each lane of an accumulator takes what `f` makes of its old value and the lane number; SV is set when one saturated. -/
def mapAcc (ac : BitVec 2) (f : Nat → Nat → Nat × Bool) (x : Eng) : Eng :=
  [0, 1, 2, 3].foldl (fun y i => (y.putAcc ac i (f i (x.acc1 ac i)).1).sat (f i (x.acc1 ac i)).2) x

/-- The sign of ng. -/
def ngZ (ng : Bool) (z : Int) : Int := if ng then -z else z

/-- A value scaled by 2^-sh, rounded half away from zero. -/
def scale (z : Int) (sh : Nat) : Int := divRound z (2 ^ sh)

def execMacC (e : Fin 34) (ac : BitVec 2) (s1 s2 : VSrc) (cj ng clr : Bool) (s : State) : Res :=
  chVec e (encM 0x48 ac s1 s2 cj ng clr) [s1, s2] (fun l x =>
    mapAcc ac (fun i old =>
      let a := (l.getD 0 []).getD i 0
      let b := (l.getD 1 []).getD i 0
      let yq := if cj then -(cQ b) else cQ b
      let pr := cI a * cI b - cQ a * yq
      let pi := cI a * yq + cQ a * cI b
      let o := if clr then 0 else old
      accC (accRe o + ngZ ng pr) (accIm o + ngZ ng pi)) x) s
def execMacR (e : Fin 34) (ac : BitVec 2) (s1 s2 : VSrc) (ng clr : Bool) (s : State) : Res :=
  chVec e (encM 0x49 ac s1 s2 false ng clr) [s1, s2] (fun l x =>
    mapAcc ac (fun i old =>
      let pr := sx 48 ((l.getD 0 []).getD i 0) * sx 48 ((l.getD 1 []).getD i 0)
      accR (accReal (if clr then 0 else old) + ngZ ng pr)) x) s
def execMacP (e : Fin 34) (ac : BitVec 2) (s1 : VSrc) (ng clr : Bool) (s : State) : Res :=
  chVec e (encM 0x4A ac s1 (.reg 0) false ng clr) [s1] (fun l x =>
    mapAcc ac (fun i old =>
      let a := (l.getD 0 []).getD i 0
      accR (accReal (if clr then 0 else old) + ngZ ng (cI a * cI a + cQ a * cQ a))) x) s
def execClrac (e : Fin 34) (ac : BitVec 2) (s : State) : Res :=
  chPlain e (encXL 0x4B ac 0 0) (fun x => mapAcc ac (fun _ _ => (0, false)) x) s
def execRndC (e : Fin 34) (vd : BitVec 4) (ac : BitVec 2) (sh : BitVec 6) (s : State) : Res :=
  chPlain e (encX 0x4C vd ac sh) (fun x =>
    putRes vd ([0, 1, 2, 3].map (fun i =>
      let re := scale (accRe (x.acc1 ac i)) sh.toNat
      let im := scale (accIm (x.acc1 ac i)) sh.toNat
      (cWord re im, cOut re im))) x) s
def execRndR (e : Fin 34) (vd : BitVec 4) (ac : BitVec 2) (sh : BitVec 6) (s : State) : Res :=
  chPlain e (encX 0x4D vd ac sh) (fun x =>
    putRes vd ([0, 1, 2, 3].map (fun i => sat48 (scale (accReal (x.acc1 ac i)) sh.toNat))) x) s
def execAcredR (e : Fin 34) (wd : BitVec 5) (ac : BitVec 2) (sh : BitVec 6) (s : State) : Res :=
  chPlain e (encXR 0x4E wd ac sh) (fun x =>
    let sum := accReal (x.acc1 ac 0) + accReal (x.acc1 ac 1) + accReal (x.acc1 ac 2) + accReal (x.acc1 ac 3)
    let z := scale sum sh.toNat
    ((x.putZ wd (satS 48 z)).zn (ux 48 (satS 48 z))).sat (outS 48 z)) s
def execAcredC (e : Fin 34) (wd : BitVec 5) (ac : BitVec 2) (sh : BitVec 6) (s : State) : Res :=
  chPlain e (encXR 0x4F wd ac sh) (fun x =>
    let re := scale (accRe (x.acc1 ac 0) + accRe (x.acc1 ac 1) + accRe (x.acc1 ac 2) + accRe (x.acc1 ac 3)) sh.toNat
    let im := scale (accIm (x.acc1 ac 0) + accIm (x.acc1 ac 1) + accIm (x.acc1 ac 2) + accIm (x.acc1 ac 3)) sh.toNat
    (x.put wd (cWord re im)).sat (cOut re im)) s
def execLdacR (e : Fin 34) (ac : BitVec 2) (va : BitVec 4) (sh : BitVec 6) (s : State) : Res :=
  chPlain e (encXL 0x50 ac va sh) (fun x => mapAcc ac (fun i _ => accR (sx 48 (x.lane va i) * 2 ^ sh.toNat)) x) s
def execLdacC (e : Fin 34) (ac : BitVec 2) (va : BitVec 4) (sh : BitVec 6) (s : State) : Res :=
  chPlain e (encXL 0x51 ac va sh) (fun x =>
    mapAcc ac (fun i _ => accC (cI (x.lane va i) * 2 ^ sh.toNat) (cQ (x.lane va i) * 2 ^ sh.toNat)) x) s

/-! ### Warp accesses (R244 to R246, R284, R285) -/

/-- Whether an stq to a quad is forbidden to an engine (R246, R284). -/
def stqForbidden (e q : Nat) (s : State) : Bool :=
  let inWin := match servedBy e s with
    | some l => [8, 9].any (fun k =>
        let v := logEntry l k s
        bitOf v 47 && decide (v % 2 ^ 23 ≤ q ∧ q ≤ slice v 23 23))
    | none => false
  decide (warpQuads ≤ q) || decide (q < 0x400000) || decide (0x500000 ≤ q ∧ q < 0x580000) || !inWin

/-- The most accesses an engine may have outstanding (R244). -/
def accLimit : Nat := 16

def execLdq (e : Fin 34) (wa : BitVec 5) (lo : LoomOp) (s : State) : Res :=
  chRun e (encL 0x58 wa lo) (fun x => (loomAddr x lo).andThen (fun a =>
    let q := x.reg wa % 2 ^ 23
    if warpQuads ≤ q then .fault 6
    else if accLimit ≤ x.acc.length ∨ (loomSpan lo a.1).any x.owed then .wait
    else
      let k : WarpAccess := { store := false, quad := q, loom := a.1, words := [], pc := x.pc }
      .ok (({ x with acc := x.acc ++ [k] }.updP lo a.2).advance, 0))) s
def execStq (e : Fin 34) (wa : BitVec 5) (lo : LoomOp) (s : State) : Res :=
  chRun e (encL 0x59 wa lo) (fun x => (loomAddr x lo).andThen (fun a =>
    let q := x.reg wa % 2 ^ 23
    let ws := (loomSpan lo a.1).map (fun i => x.loom.get bareWord i)
    if stqForbidden e q s then .fault 3
    else if accLimit ≤ x.acc.length ∨ (loomSpan lo a.1).any x.owed then .wait
    else if ws.any (fun v => decide (decodeWord v = .bad)) then .fault 5
    else
      let k : WarpAccess := { store := true, quad := q, loom := a.1, words := ws.map carryWord, pc := x.pc }
      let y := (loomSpan lo a.1).foldl (fun y i => y.putLoom i (carryWord (x.loom.get bareWord i))) x
      .ok (({ y with acc := x.acc ++ [k] }.updP lo a.2).advance, 0))) s
where
  /-- A stored word as it travels, and as it is written back to its loom word (R242): corrected, or the bare pattern as it stands
  (R285). -/
  carryWord (v : Stored) : Stored :=
    match decodeWord v with
    | .clean d => encodeWord d
    | .corrected d => encodeWord d
    | .bare => bareWord
    | .bareUpset => bareWord
    | .bad => v

/-- The access of an index, when none of the same quad was issued before it (R245). -/
def accessAt (e k : Nat) (s : State) : Option WarpAccess :=
  let l := (engOf e s).acc
  match l[k]? with
  | some a => if (l.take k).any (fun b => decide (b.quad = a.quad)) then none else some a
  | none => none

/-- An access leaves the list. -/
def dropAccess (e k : Nat) (s : State) : State := onEng e (fun x => { x with acc := x.acc.eraseIdx k }) s

/-- An ldq completes: the quad is read now; an uncorrectable word faults the engine at the address of the ldq (R285). -/
def ldqComplete (e k : Nat) (s : State) : State :=
  match accessAt e k s with
  | none => s
  | some a =>
    if a.store then s
    else
      let (l, s) := warpReadQuad reqENG a.quad (dropAccess e k s)
      if l.any (fun r => decide (r = .bad)) then lateFault e 4 a.pc s
      else
        onEng e (fun x => (([0, 1, 2, 3].zip l).foldl (fun x z =>
          x.putLoom (a.loom + z.1) (if z.2.isBare then bareWord else encodeWord z.2.data)) x)) s

/-- An stq completes: the quad takes the words read at issue, the bare pattern as it stands (R285). -/
def stqComplete (e k : Nat) (s : State) : State :=
  match accessAt e k s with
  | none => s
  | some a =>
    if a.store then warpStoreQuad a.quad a.words (dropAccess e k s)
    else s

/-- LDQ_COMPLETE. -/
def execLdqComplete (e : Fin 34) (k : Fin 16) (s : State) : Res := .next (ldqComplete e k s)

/-- STQ_COMPLETE. -/
def execStqComplete (e : Fin 34) (k : Fin 16) (s : State) : Res := .next (stqComplete e k s)

def execWfence (e : Fin 34) (s : State) : Res :=
  chRun e (chOp 0x5A 0) (fun x =>
    if x.acc = [] then .ok (x.advance, 0) else .ok ({ x with stall := some .fence }, 0)) s

/-- WFENCE_RELEASE: a wfence that waits issues on when no access is outstanding. -/
def execWfenceRelease (e : Fin 34) (s : State) : Res :=
  .next (if (engOf e s).stall = some .fence ∧ (engOf e s).acc = [] then onEng e (fun x => { x with stall := none }.advance) s else s)

/-! ### Queue instructions (R286 to R288) -/

/-- The queue a queue operand names. -/
def Eng.qNum (x : Eng) (q : QOp) : Nat := if q.r then x.reg q.wq % 256 else q.qi.toNat

/-- The priority a queue operand names. -/
def Eng.qPri (x : Eng) (q : QOp) : Nat := if q.rp then slice (x.reg q.wq) 8 4 else q.pri.toNat

/-- A refused queue instruction moves no item, sets QV and is logged (R287, R376). -/
def refuseQueue (e q : Nat) (s : State) : State := onEng e (fun x => x.flag 6 true) (violate blkSHT 0x06 .engine 4 (engOf e s).pc q s)

/-- A push that the queue can accept is made, and its instruction is over. -/
def makePush (e q pri d : Nat) (s : State) : State :=
  onEng e (fun x => { x with stall := none }.advance) (pushItems q pri [d] s)

/-- A pop is refused where its queue is bound to a delivery ring (R287); else it takes the item that stands first, where one falls to its
engine, and the instruction is over, or waits on. -/
def makePop (e wd q : Nat) (s : State) : State :=
  if ringBound q s then onEng e (fun x => { x.setW wd 0 with stall := none }.advance) (refuseQueue e q s)
  else
    let r := if queueTurn ((servedBy e s).getD 0) q s then popItem q s else (none, s)
    match r.1 with
    | some (pri, d) =>
      onEng e (fun x => ({ x with stall := none, st := x.st - place (slice x.st 12 4) 12 4 + place pri 12 4 }.setW wd d).advance) r.2
    | none => onEng e (fun x => { x with stall := some (.pop wd q) }) r.2

/-- An instruction with a word and an effect on the whole device issues. -/
def chIssue (e w : Nat) (f : Eng → State → State) (s : State) : Res := .next (if issues e w s then f (engOf e s) s else s)

def execPush (e : Fin 34) (wa : BitVec 5) (q : QOp) (s : State) : Res :=
  chIssue e (encQ 0x60 wa q) (fun x s =>
    let n := x.qNum q
    if n ≤ 63 then onEng e Eng.advance (refuseQueue e n s)
    else if 1 ≤ qRoom n s then makePush e n (x.qPri q) (x.reg wa) s
    else onEng e (fun x => { x with stall := some (.push n (x.qPri q) (x.reg wa)) }) s) s
def execPop (e : Fin 34) (wd : BitVec 5) (q : QOp) (s : State) : Res :=
  chIssue e (encQ 0x61 wd q) (fun x s => makePop e wd.toNat (x.qNum q) s) s
def execQcnt (e : Fin 34) (wd : BitVec 5) (q : QOp) (s : State) : Res :=
  chPlain e (encQ 0x62 wd q) (fun x => x.put wd (qCount (x.qNum q) s)) s

/-- PUSH_RESUME: a stalled push completes when the queue can accept. -/
def execPushResume (e : Fin 34) (s : State) : Res :=
  match (engOf e s).stall with
  | some (.push q pri d) => .next (if 1 ≤ qRoom q s then makePush e q pri d s else s)
  | some (.pop _ _) => .next s
  | some .fence => .next s
  | some .done => .next s
  | none => .next s

/-- POP_RESUME: a stalled pop completes when an item has arrived. -/
def execPopResume (e : Fin 34) (s : State) : Res :=
  match (engOf e s).stall with
  | some (.pop wd q) => .next (makePop e wd q s)
  | some (.push _ _ _) => .next s
  | some .fence => .next s
  | some .done => .next s
  | none => .next s

/-! ### Control (R289 to R293) -/

/-- A branch is taken: misuse when it leaves the innermost body it stands in (R293). -/
def Eng.branch (x : Eng) (target : Nat) : Got (Eng × Nat) :=
  match x.reps with
  | [] => .ok ({ x with pc := target }, 0)
  | (first, last) :: _ =>
    if (first ≤ x.pc ∧ x.pc ≤ last) ∧ !(decide (first ≤ target ∧ target ≤ last)) then .fault 6
    else .ok ({ x with pc := target }, 0)

/-- Whether a branch condition holds (R290). -/
def condHolds (c : Nat) (x : Eng) : Bool :=
  let z := x.bit 0
  let lt := x.bit 1 != x.bit 3
  match c with
  | 0 => true
  | 1 => z
  | 2 => !z
  | 3 => lt
  | 4 => !lt
  | 5 => !z && !lt
  | 6 => z || lt
  | 7 => x.bit 2
  | 8 => !(x.bit 2)
  | 9 => x.bit 4
  | 10 => x.bit 5
  | 11 => x.bit 6
  | 12 => slice x.st 8 4 = 0
  | _ => slice x.st 8 4 ≠ 0

def execBCond (e : Fin 34) (cond : BitVec 4) (target : BitVec 14) (s : State) : Res :=
  if cond.toNat < 14 then
    chRun e (encB 0x70 (cond.toNat * 2 ^ 22) target) (fun x =>
      if condHolds cond.toNat x then x.branch target.toNat else .ok (x.advance, 0)) s
  else .next s
def execCall (e : Fin 34) (target : BitVec 14) (s : State) : Res :=
  chRun e (encB 0x71 0 target) (fun x => (x.branch target.toNat).andThen (fun r => .ok (r.1.setW 31 (x.pc + 1), 0))) s
def execJr (e : Fin 34) (wa : BitVec 5) (s : State) : Res :=
  chRun e (chOp 0x72 (wa.toNat * 2 ^ 30)) (fun x => x.branch (x.reg wa % 2 ^ 14)) s

/-- The count of a rep. -/
def Eng.repCount (x : Eng) : RepCount → Nat
  | .imm n => n.toNat
  | .reg w => x.reg w

def execRep (e : Fin 34) (count : RepCount) (last : BitVec 14) (s : State) : Res :=
  chRun e (encB 0x73 (repBits count) last) (fun x =>
    let n := x.repCount count
    let beyond := match x.reps with
      | [] => false
      | (_, l) :: _ => decide (l < last.toNat)
    if x.rd = 4 ∨ 65536 < n ∨ last.toNat ≤ x.pc ∨ beyond = true then .fault 6
    else if n = 0 then .ok ({ x with pc := last.toNat + 1 }, 0)
    else .ok ({ x with lc := x.lc.put 0 x.rd n, reps := (x.pc + 1, last.toNat) :: x.reps, pc := x.pc + 1 }, 0)) s
def execRexit (e : Fin 34) (s : State) : Res :=
  chRun e (chOp 0x74 0) (fun x =>
    match x.reps with
    | [] => .fault 6
    | (_, l) :: t => .ok ({ x with reps := t, pc := l + 1 }, 0)) s

def execDone (e : Fin 34) (s : State) : Res :=
  chIssue e (chOp 0x75 0) (fun x s =>
    if x.acc = [] then retireDone e s else onEng e (fun x => { x with stall := some .done }) s) s
def execClst (e : Fin 34) (mask : BitVec 3) (s : State) : Res :=
  chPlain e (chOp 0x76 mask.toNat) (fun x =>
    [0, 1, 2].foldl (fun x i => if bitOf mask.toNat i then x.flag (4 + i) false else x) x) s

/-! ### Faults at issue (R272, R289, R294) -/

/-- ILLEGAL_INSTRUCTION: an issue from beyond the image (0010), of an uncorrectable word (0101) or of an undefined word (0001). -/
def execIllegalInstruction (e : Fin 34) (s : State) : Res :=
  .next (if issuing e s then
    match issueRead e s with
    | none => engineFault e 2 (engOf e s).pc s
    | some r =>
      if r = .bad then engineFault e 5 (engOf e s).pc s
      else if (chDecode e r.data).isNone then engineFault e 1 (engOf e s).pc s
      else s
  else s)

end Sys2Proof.Machine
end

