-- ==== Sys2Proof/Machine/Commands.lean ====
section
/-!
DEFINITION. The command queue (R336 to R340, R346, R347, R352): how a slot is checked and enters, when a command starts, and how
a completion is written. What each command does stands in Machine/HostCmds.lean and Machine/Rings.lean.
-/

set_option autoImplicit false

namespace Sys2Proof.Machine

/-- The host interface is changed in place. -/
def onHost (f : HostIf → HostIf) (s : State) : State := { s with host := f s.host }

/-- Whether the device may make DMA requests (R332): Bus Master Enable is 1, the function is in D0 and the link is up. -/
def dmaOk (s : State) : Bool := s.host.busMaster && !s.host.d3hot && decide (rd HST_STAT_LINK_WIDTH 0 s ≠ 0)

/-! ### Entry (R336 to R338) -/

/-- The bits of each operand that a command names (R341); none for an undefined opcode. -/
def opMasks : Nat → Option (List Nat)
  | 0x00 => some []
  | 0x01 => some []
  | 0x02 => some [0xFFF8]
  | 0x03 => some [0xFFF8, 2 ^ 64 - 1]
  | 0x04 => some [0xFFF8, 2 ^ 64 - 1, 2 ^ 64 - 1]
  | 0x08 => some []
  | 0x09 => some []
  | 0x0A => some [3]
  | 0x0B => some []
  | 0x0C => some []
  | 0x10 => some [0xFFFF]
  | 0x11 => some [0xFFFF]
  | 0x12 => some [0xFFFFFFFF]
  | 0x13 => some [0xFFFFFFFF]
  | 0x14 => some []
  | 0x16 => some [2 ^ 40 - 1, 1]
  | 0x18 => some [0x3F]
  | 0x19 => some [2 ^ 25 - 1, 0x3F]
  | 0x1A => some [0x1F073F]
  | 0x1B => some [0x3000F]
  | 0x1C => some [2 ^ 23 - 1, 2 ^ 23 - 1]
  | 0x20 => some [0xFF, 2 ^ 64 - 2 ^ 12, 0x1F, 2 ^ 64 - 2 ^ 4]
  | 0x21 => some [0xFF]
  | 0x28 => some [0xFF0F]
  | 0x30 => some [1]
  | 0x31 => some [1]
  | _ => none

/-- The first bad qword of a slot: a bit set that nothing names, a ring size outside 10 to 28, or an object kind of CAL_RUN above 3
(R337, R341, R346, R360). -/
def badQword (op : Nat) (masks qs : List Nat) : Option Nat :=
  if qs.getD 0 0 % 2 ^ 43 ≠ 0 then some 0
  else ((List.range 7).find? (fun i =>
    let v := qs.getD (i + 1) 0
    decide (Nat.land v (masks.getD i 0) ≠ v ∨ (op = 0x20 ∧ i = 2 ∧ (v < 10 ∨ 28 < v))
      ∨ (op = 0x28 ∧ i = 0 ∧ 4 ≤ v % 16)))).map (· + 1)

/-- What the checks at fetch say of a slot: the status and detail of a command that fails, or none (R338). -/
def fetchCheck (qs : List Nat) (s : State) : Option (Nat × Nat) :=
  let op := slice (qs.getD 0 0) 56 8
  if s.host.cmds.any (fun c => decide (c.tag = slice (qs.getD 0 0) 48 8)) then some (0x13, 0)
  else match opMasks op with
    | none => some (0x10, 0)
    | some ms => (badQword op ms qs).map (fun i => (0x11, i))

/-- A slot enters the command queue, or completes at once (R338, R352). -/
def enterCommand (mbx : Bool) (slot : Nat) (qs : List Nat) (s : State) : State :=
  let q0 := qs.getD 0 0
  let c : Cmd := { opcode := slice q0 56 8, tag := slice q0 48 8, stream := slice q0 44 4, fence := bitOf q0 43, mbx := mbx,
                   ops := (List.range 7).map (fun i => qs.getD (i + 1) 0), slot := slot, phase := .queued }
  match fetchCheck qs s with
  | some (st, d) => onHost (fun h => { h with cplWait := h.cplWait ++ [{ cplOf c st d 0 with inFlight := false }] }) s
  | none => onHost (fun h => { h with cmds := h.cmds ++ [c] }) s

/-- The slots of the command ring and the entries of the completion ring (R356). -/
def cmdRingSize (s : State) : Nat := 2 ^ clampN 4 12 (rd HST_CTL_CMD_LOG2 0 s)
def cplRingSize (s : State) : Nat := 2 ^ clampN 8 16 (rd HST_CTL_CPL_LOG2 0 s)

/-- What the configuration space shows (R6, R331): the revision follows the stepping of SYS_ID. -/
def pciConfig (s : State) : PciConfig :=
  { vendor := 0x1F3B, device := 0x4816, subVendor := 0x1F3B, subDevice := 0x4816,
    revision := rd SYS_ID_STEP_MAJOR 0 s * 16 + rd SYS_ID_STEP_MINOR 0 s, classCode := 0x118000, interruptPin := 0,
    maxPayload := 512, maxReadRequest := 4096, maxOutstanding := 64, vectors := 32 }

/-- Whether one more non-posted request may go out (R331): those out are the reads of CONS, for a slot arrives with its fetch. -/
def readFree (s : State) : Bool := decide ((s.rings.countP (fun (r : Ring) => r.reading)) < (pciConfig s).maxOutstanding)

/-- The uncorrectable errors of the AER capability that the function reports (R331), at the bits PCIe gives them. -/
def aerTimeout : Nat := 14
def aerAbort : Nat := 15
def aerUnsupported : Nat := 20

/-- An error is reported in the AER capability (R331). -/
def aerReport (bit : Nat) (s : State) : State := { s with host := { s.host with aer := setBitTo s.host.aer bit true } }

/-- Whether the device can fetch a slot now (R331 to R333, R336). -/
def canFetch (s : State) : Bool :=
  rdB HST_CTL_CMD_EN 0 s && dmaOk s && !s.host.fetchStopped && !s.sys.inReset && readFree s
    && decide (rd HST_CMD_HEAD_HEAD 0 s ≠ rd HST_CMD_TAIL_TAIL 0 s)

/-- The host address of the slot at HEAD. -/
def fetchAddr (s : State) : Nat := rd HST_CMD_BASE_CMD_BASE 0 s * 4096 + 64 * rd HST_CMD_HEAD_HEAD 0 s

/-- A slot is fetched, which holds these qwords: HEAD moves past it and the command enters (R336). -/
def fetchSlot (qs : List Nat) (s : State) : State :=
  if canFetch s then
    let head := rd HST_CMD_HEAD_HEAD 0 s
    let s := emit (.dmaRead (fetchAddr s)) s
    enterCommand false head qs (wr HST_CMD_HEAD_HEAD 0 ((head + 1) % cmdRingSize s) s)
  else s

/-! ### Start (R339, R341) -/

/-- Whether a queued command may start: the earlier ones have started, the last of its stream has completed, and with FENCE all have. -/
def canStart (c : Cmd) (earlier : List Cmd) : Bool :=
  earlier.all (fun e => decide (e.phase ≠ .queued))
    && earlier.all (fun e => decide (e.phase = .finished) || (decide (e.stream ≠ c.stream) && !c.fence))

/-- The queued command of a tag, when it may start. -/
def startable (tag : Nat) (s : State) : Option Cmd :=
  match s.host.cmds.find? (fun c => decide (c.tag = tag)) with
  | none => none
  | some c =>
    if c.phase = .queued ∧ canStart c (s.host.cmds.takeWhile (fun e => decide (e.tag ≠ tag))) = true then some c else none

/-- A command in flight is changed. -/
def onCmd (tag : Nat) (f : Cmd → Cmd) (s : State) : State := mapCmds (fun c => if c.tag = tag then f c else c) s

/-- The running command of a tag ends. -/
def endCmd (tag status detail result : Nat) (s : State) : State :=
  finishWhere (fun c => decide (c.tag = tag)) status detail result s

/-- A running command waits for the thing `aux` names. -/
def waitOn (tag aux : Nat) (s : State) : State := onCmd tag (fun c => { c with aux := aux }) s

/-- The code of the device state in a BAD_STATE completion (R346). -/
def stateCode (s : State) : Nat := devState s - 2

/-- A command of one opcode starts: in a state it is listed for it acts, else it ends with BAD_STATE (R339, R341). -/
def startCmd (opcode : Nat) (tag : Byte) (legal : State → Bool) (body : Cmd → State → State) (s : State) : State :=
  match startable tag.toNat s with
  | none => s
  | some c =>
    if c.opcode = opcode then
      let s := onCmd c.tag (fun c => { c with phase := .running }) s
      if legal s then body c s else endCmd c.tag 0x12 (stateCode s) 0 s
    else s

/-- Whether the device is in one of some states. -/
def inStates (l : List Nat) (s : State) : Bool := l.contains (devState s)

/-- The origin of a command's register actions. -/
def cmdOrigin (c : Cmd) : Origin := if c.mbx then .mgmt else .pcie

/-! ### Completions (R340, R347, R352) -/

/-- Whether the completion ring has an entry the host has consumed; one entry stays free. -/
def cplRoom (s : State) : Bool :=
  decide ((rd HST_CPL_TAIL_TAIL 0 s + 1) % cplRingSize s ≠ rd HST_CPL_HEAD_HEAD 0 s % cplRingSize s)

/-- Whether a completion for the ring waits on a full ring: CPL_FULL. -/
def cplFull (s : State) : Bool := rdB HST_CTL_CPL_EN 0 s && !(cplRoom s) && s.host.cplWait.any (fun c => !c.mbx)

/-- The first qword of a completion. -/
def cplQ0 (phase : Bool) (c : Cpl) : Nat :=
  place (b2n phase) 63 1 + place (b2n c.mbx) 62 1 + place c.tag 48 8 + place c.opcode 40 8 + place c.status 32 8
    + place c.detail 16 16 + place c.slot 0 12

/-- The little-endian bytes of a qword. -/
def qBytes (v : Nat) : List Byte := (List.range 8).map (fun i => BitVec.ofNat 8 (slice v (8 * i) 8))

/-- What every written completion does: the counters, the COMMAND entry of a failure (R347, R376), and the end of the flight. -/
def cplAccount (c : Cpl) (s : State) : State :=
  let s := bump HST_CNT_COMMANDS 0 s
  let s := if 0x10 ≤ c.status then
      violate blkHST 0x03 (if c.mbx then .mgmt else .pcie) (c.status * 256)
        (place c.opcode 40 8 + place c.tag 32 8 + place c.stream 28 4 + place (b2n c.mbx) 27 1 + place c.slot 0 12)
        (place c.detail 0 16) (bump HST_CNT_ERRORS 0 s)
    else s
  if c.inFlight then onHost (fun h => { h with cmds := h.cmds.filter (fun e => decide (e.tag ≠ c.tag)) }) s else s

/-- A completion is written to the ring, and TAIL and PHASE move on. -/
def cplToRing (c : Cpl) (s : State) : State :=
  let tail := rd HST_CPL_TAIL_TAIL 0 s
  let s := emit (.dma (rd HST_CPL_BASE_CPL_BASE 0 s * 4096 + 16 * tail) (qBytes (cplQ0 s.host.phase c) ++ qBytes c.result)) s
  let next := (tail + 1) % cplRingSize s
  let s := wr HST_CPL_TAIL_TAIL 0 next s
  let s := if next = 0 then onHost (fun h => { h with phase := !h.phase }) s else s
  raise 16 (cplAccount c s)

/-- A mailbox completion is written to its registers; it has no ring pass, so its PHASE is a free bit. -/
def cplToMbx (c : Cpl) (s : State) : State :=
  let (p, s) := drawBit s
  let s := wr HST_MBX_CPL0_CPL0 0 (cplQ0 p c) (wr HST_MBX_CPL1_CPL1 0 c.result s)
  raise 17 (cplAccount c (wr HST_MBX_CTL_MBX_DONE 0 1 (wr HST_MBX_CTL_MBX_BUSY 0 0 s)))

/-- The first completion that can be written, and the others. -/
def cplTake (ring : Bool) : List Cpl → Option (Cpl × List Cpl)
  | [] => none
  | c :: t => if c.mbx || ring then some (c, t) else (cplTake ring t).map (fun x => (x.1, c :: x.2))

/-- The next completion is written; completions for a full ring wait, and event 18 tells so once (R340). -/
def completionWrite (s : State) : State :=
  let s := if cplFull s && !s.host.cplFullRaised then raise 18 (onHost (fun h => { h with cplFullRaised := true }) s) else s
  match cplTake (rdB HST_CTL_CPL_EN 0 s && cplRoom s && dmaOk s) s.host.cplWait with
  | none => s
  | some (c, rest) =>
    let s := onHost (fun h => { h with cplWait := rest }) s
    if c.mbx then cplToMbx c s else cplToRing c s

/-! ### The host's registers (R353 to R358) -/

/-- The write of HST_CTL (R354, R356, R357): a ring's size is locked while its EN is 1; clearing an EN clears the ring's indices. -/
def hstCtlWrite (org : Origin) (v : Qword) (s : State) : State :=
  let cmd := rdB HST_CTL_CMD_EN 0 s
  let cpl := rdB HST_CTL_CPL_EN 0 s
  let s := guardedWrite org HST_CTL 0 ((if cmd then [HST_CTL_CMD_LOG2] else []) ++ (if cpl then [HST_CTL_CPL_LOG2] else [])) v s
  let s := if cmd && !(rdB HST_CTL_CMD_EN 0 s) then wr HST_CMD_HEAD_HEAD 0 0 (wr HST_CMD_TAIL_TAIL 0 0 s) else s
  if cpl && !(rdB HST_CTL_CPL_EN 0 s) then
    onHost (fun h => { h with phase := true, cplFullRaised := false })
      (wr HST_CPL_HEAD_HEAD 0 0 (wr HST_CPL_TAIL_TAIL 0 0 s))
  else s

/-- The write of HST_CMD_TAIL: the doorbell; after a DMA error that has been cleared it resumes fetching (R333, R336, R354). -/
def cmdTailWrite (org : Origin) (v : Qword) (s : State) : State :=
  if cmdRingSize s ≤ HST_CMD_TAIL_TAIL.ofQ v then writeIgnored org (HST_CMD_TAIL.off 0) v s
  else
    let s := regWrite HST_CMD_TAIL 0 v s
    if rdB HST_STAT_DMA_ERR 0 s then s else onHost (fun h => { h with fetchStopped := false }) s

/-- The write of HST_CPL_HEAD (R340, R354). -/
def cplHeadWrite (org : Origin) (v : Qword) (s : State) : State :=
  if cplRingSize s ≤ HST_CPL_HEAD_HEAD.ofQ v then writeIgnored org (HST_CPL_HEAD.off 0) v s
  else
    let s := regWrite HST_CPL_HEAD 0 v s
    if cplRoom s then onHost (fun h => { h with cplFullRaised := false }) s else s

/-- The write of HST_MBX_CTL (R352): MBX_DONE is cleared, and GO enters the mailbox command. -/
def mbxCtlWrite (org : Origin) (v : Qword) (s : State) : State :=
  let s := regWrite HST_MBX_CTL 0 v s
  if bitOf v.toNat 0 then
    if rdB HST_MBX_CTL_MBX_BUSY 0 s then writeIgnored org (HST_MBX_CTL.off 0) v s
    else enterCommand true 0 ((List.range 8).map (fun i => rd HST_MBX_CMD_QWORD i s)) (wr HST_MBX_CTL_MBX_BUSY 0 1 s)
  else s

/-! ### Events (R348, R349) -/

/-- The write of EVT_RAW: flags clear, and every vector whose summary stays 1 sends again. -/
def evtRawWrite (i : Nat) (v : Qword) (s : State) : State :=
  let s := regWrite EVT_RAW i v s
  (List.range 32).foldl (fun s v => if summary v s then sendVec v s else s) s

/-- A write of EVT_EN or EVT_MAP may make summaries rise. -/
def evtMapWrite (r : Reg) (i : Nat) (v : Qword) (s : State) : State := sendRises s (regWrite r i v s)

/-- INT_N is driven low (R349). -/
def intLow (s : State) : Bool :=
  (List.range 32).any (fun v => bitOf (rd EVT_INTN_INTN_MASK 0 s) v && summary v s)

/-- A vector that is pending and no longer masked sends. -/
def sendPending (v : Nat) (s : State) : State :=
  if (msixOf v s).pend && !(msixMasked v s) then sendVec v (setMsix v { msixOf v s with pend := false } s) else s

/-- A vector's Mask bit clears, and Function Mask is written: pending vectors that are masked no longer send. -/
def msixUnmask (v : Nat) (fm : Bool) (s : State) : State :=
  let s := onHost (fun h => { h with funcMask := fm }) (setMsix v { msixOf v s with ctrl := (msixOf v s).ctrl / 2 * 2 } s)
  (List.range 32).foldl (fun s v => sendPending v s) s

/-- A vector's hold-off ends, and a send that fell due in it is made. -/
def holdoffEnd (v : Nat) (s : State) : State :=
  match (msixOf v s).holdUntil with
  | none => s
  | some t =>
    let s := advanceTo t s
    let due := (msixOf v s).due
    let s := setMsix v { msixOf v s with holdUntil := none, due := false } s
    if due then sendVec v s else s

/-! ### The commands of this part -/

/-- HST_CTL_WRITE. -/
def execHstCtlWrite (v : BitVec 64) (s : State) : Res :=
  if s.sys.inReset then .next s else
  .next (hstCtlWrite .pcie v s)

/-- HST_CMD_TAIL_WRITE. -/
def execHstCmdTailWrite (v : BitVec 64) (s : State) : Res :=
  if s.sys.inReset then .next s else
  .next (cmdTailWrite .pcie v s)

/-- HST_CPL_HEAD_WRITE. -/
def execHstCplHeadWrite (v : BitVec 64) (s : State) : Res :=
  if s.sys.inReset then .next s else
  .next (cplHeadWrite .pcie v s)

/-- COMMAND_FETCH: the slot at HEAD holds these qwords. -/
def execCommandFetch (q0 q1 q2 q3 q4 q5 q6 q7 : BitVec 64) (s : State) : Res :=
  .next (fetchSlot ([q0, q1, q2, q3, q4, q5, q6, q7].map (·.toNat)) s)

/-- COMPLETION_WRITE. -/
def execCompletionWrite (s : State) : Res := .next (completionWrite s)

/-- EVT_RAW_WRITE. -/
def execEvtRawWrite (i : Fin 4) (v : BitVec 64) (s : State) : Res :=
  if s.sys.inReset then .next s else
  .next (evtRawWrite i v s)

/-- HOLDOFF_EXPIRY. -/
def execHoldoffExpiry (v : Fin 32) (s : State) : Res := .next (holdoffEnd v s)

/-- MSIX_UNMASK: the vector's Mask bit is written 0 with Function Mask as given. -/
def execMsixUnmask (v : Fin 32) (fm : Bool) (s : State) : Res :=
  if s.sys.inReset then .next s else
  .next (msixUnmask v fm s)

/-- MBX_GO: a write of HST_MBX_CTL with GO = 1 by the management port. -/
def execMbxGo (v : BitVec 64) (s : State) : Res :=
  if s.sys.inReset then .next s else
  .next (mbxCtlWrite .mgmt (v ||| 1#64) s)

end Sys2Proof.Machine
end

