-- ==== Sys2Proof/Machine/Queues.lean ====
section
/-!
DEFINITION. The host's side of the Weft queues (R315 to R321): their configuration, host pushes and pops, flushes, and the stale
timer.
-/

set_option autoImplicit false

namespace Sys2Proof.Machine

/-- The write of WFQ_CFG[q]: ignored when the reserves would come to more than 4,096 units; a STALE of 0 stops a running timer, any
other change leaves it (R315, R318). -/
def wfqCfgWrite (org : Origin) (q : Nat) (v : Qword) (s : State) : State :=
  let sum := rd WFQ_POOL_CTL_RES_SUM 0 s - rd WFQ_CFG_RES q s + WFQ_CFG_RES.ofQ v
  if 4096 < sum then writeIgnored org (WFQ_CFG.off q) v s
  else
    let fu := freeUnres s
    let s := wr WFQ_POOL_CTL_RES_SUM 0 sum (regWrite WFQ_CFG q v s)
    let s := if WFQ_CFG_STALE.ofQ v = 0 then setQueue q { queueOf q s with staleDue := none } s else s
    poolLowCheck fu s

/-- The write of WFQ_HPUSH: the item enters its queue, or the push is refused and counted (R316). -/
def wfqHpush (org : Origin) (v : Qword) (s : State) : State :=
  let q := WFQ_HPUSH_QUEUE.ofQ v
  if q < 64 ∨ qRoom q s = 0 then requestRefused org (WFQ_HPUSH.off 0) 0 v (bump WFQ_STAT_LOST q s)
  else pushItems q (WFQ_HPUSH_PRI.ofQ v) [WFQ_HPUSH_ITEM.ofQ v] s

/-- A read of WFQ_HPOP: its value, and what it removes (R316, R319). -/
def wfqHpop (org : Origin) (s : State) : Nat × State :=
  let q := rd WFQ_HPOP_SEL_QUEUE 0 s
  if ringBound q s then (2 ^ 62, violate blkWFQ 0x02 org 0 (WFQ_HPOP.off 0) q s)
  else
    match popItem q s with
    | (none, s) => (2 ^ 63, s)
    | (some (pri, d), s) => (place pri 48 4 + place d 0 48, s)

/-- The write of WFQ_FLUSH: with GO the queue's items are discarded, unless it is bound (R320). -/
def wfqFlushWrite (org : Origin) (v : Qword) (s : State) : State :=
  let q := WFQ_FLUSH_QUEUE.ofQ v
  if bitOf v.toNat 8 then
    if ringBound q s || engineBound q s then requestRefused org (WFQ_FLUSH.off 0) 0 v s
    else poolLeave q (queueOf q s).items (setQueue q { queueOf q s with items := [], staleDue := none } s)
  else s

/-- WFQ_HPUSH. -/
def execWfqHpush (v : BitVec 64) (s : State) : Res :=
  if s.sys.inReset then .next s else
  .next (wfqHpush .pcie v s)

/-- WFQ_HPOP. -/
def execWfqHpop (s : State) : Res :=
  if s.sys.inReset then .next (resetAccess 8 true s) else
  let (v, s) := wfqHpop .pcie s
  .next (emit (.readData (BitVec.ofNat 64 v)) s)

/-- WFQ_FLUSH: a write with GO = 1. -/
def execWfqFlush (v : BitVec 64) (s : State) : Res :=
  if s.sys.inReset then .next s else
  .next (wfqFlushWrite .pcie (v ||| 0x100#64) s)

/-- WFQ_CFG_WRITE. -/
def execWfqCfgWrite (q : Fin 256) (v : BitVec 64) (s : State) : Res :=
  if s.sys.inReset then .next s else
  .next (wfqCfgWrite .pcie q v s)

/-- QUEUE_STALE: the running stale timer of a queue expires (R318). -/
def execQueueStale (q : Fin 256) (s : State) : Res :=
  match (queueOf q s).staleDue with
  | none => .next s
  | some t =>
    let s := setQueue q { queueOf q s with staleDue := none } (advanceTo t s)
    .next (if (queueOf q s).items.isEmpty then s else raise (qEvent q) (wr WFQ_STAT_STALE q 1 s))

end Sys2Proof.Machine
end

