-- ==== Sys2Proof/Machine/Flash.lean ====
section
/-!
DEFINITION. The Dolwald record format of the calibration flash (R527, R528): a copy's bytes from the values in force, and the records of
a valid copy put in force.
-/

set_option autoImplicit false

namespace Sys2Proof.Machine

/-- A number as bytes, least significant first. -/
def leBytes (n v : Nat) : List Nat := (List.range n).map (fun i => slice v (8 * i) 8)

/-- A field of a copy's bytes. -/
def leAt (l : List Nat) (a n : Nat) : Nat := leNum ((l.drop a).take n)

/-- One record: header and payload (R527). -/
def flashRecord (type idx : Nat) (r : CalRec) (payload : List Nat) : List Nat :=
  [type, idx, b2n r.borrowed + 2 * b2n (decide (r.source = 3)), 0] ++ leBytes 4 payload.length ++ leBytes 8 r.time
    ++ [r.conv, r.eng, 0, 0] ++ r.temp.flatMap (fun t => leBytes 2 (ux 16 t)) ++ r.supply.flatMap (leBytes 2) ++ [0, 0] ++ payload

/-- A converter's payload. `vals` of its record holds the aperture trim, the eight stage selections and the bias cell. -/
def convPayload (j : Nat) (r : CalRec) (s : State) : List Nat :=
  [rdI CNV_CORR_OFFSET j s, rdI CNV_CORR_GAIN j s, rdI CNV_RATIO_RATIO6 j s, rdI CNV_RATIO_RATIO12 j s,
      rdI CNV_RATIO_RATIO18 j s, ux 16 (r.vals.getD 0 0)].flatMap (leBytes 2)
    ++ (List.range 8).map (fun i => ux 7 (r.vals.getD (i + 1) 0)) ++ [ux 8 (r.vals.getD 9 0), 0, 0, 0]

/-- The records of the values in force, in ascending order of type and index. -/
def flashRecords (s : State) : List Nat :=
  let rec_ := fun (kind idx : Nat) => s.cal.recs.get {} (256 * kind + idx)
  (List.range 68).flatMap (fun j => flashRecord 1 j (rec_ 0 j) (convPayload j (rec_ 0 j) s))
    ++ flashRecord 2 0 (rec_ 4 0) [ux 8 ((rec_ 4 0).vals.getD 0 0), 0, 0, 0]
    ++ (List.range 29).flatMap (fun l => flashRecord 3 l (let r := rec_ 1 l; if r.source = 1 ∧ !(bitOf (rd TSU_STAT_LINE_OK 0 s) l) then { r with source := 3 } else r)
        ((List.range 320).flatMap (fun t => leBytes 2 (s.tsu.maps.get 0 (512 * l + t)))))
    ++ flashRecord 4 0 (rec_ 3 0) ((List.range 8).flatMap (fun r =>
        leBytes 4 (ux 32 ((rec_ 3 0).vals.getD r 0)) ++ leBytes 4 (ux 32 ((rec_ 3 0).vals.getD (r + 8) 0))))
    ++ flashRecord 5 0 (rec_ 5 0) (leBytes 4 (rd CAL_REF_REFIN 0 s))

/-- How many records a copy has: 68 converters, the buffer, 29 lines, the anchor converter, the declaration. -/
def flashCount : Nat := 100

/-- A whole copy (R527). -/
def flashImage (seq : Nat) (s : State) : List Nat :=
  let recs := flashRecords s
  let body := [0x44, 0x4C, 0x57, 0x44, 1, rd SYS_ID_STEP_MAJOR 0 s, 0, 0] ++ leBytes 4 seq ++ leBytes 4 flashCount
    ++ leBytes 4 (32 + recs.length + 4) ++ List.replicate 12 0 ++ recs
  body ++ leBytes 4 (crc32 body)

/-- Whether a copy is valid (R528). -/
def flashValid (l : List Nat) : Bool :=
  let n := leAt l 16 4
  decide (l.take 5 = [0x44, 0x4C, 0x57, 0x44, 1] ∧ 36 ≤ n ∧ n ≤ 65536 ∧ n ≤ l.length) && decide (crc32 (l.take (n - 4)) = leAt l (n - 4) 4)

/-- SEQ of a copy. -/
def flashSeq (l : List Nat) : Nat := leAt l 8 4

/-- Which copy the device uses: the valid one with the larger SEQ, A where they are equal (R528). -/
def flashPick (a b : List Nat) : Option (Nat × List Nat) :=
  if flashValid a && (!(flashValid b) || decide (flashSeq b ≤ flashSeq a)) then some (1, a)
  else if flashValid b then some (2, b)
  else none

/-- The payload length of a record type (R527). -/
def typeLen (type : Nat) : Option Nat :=
  if type = 1 then some 24 else if type = 2 then some 4 else if type = 3 then some 640 else if type = 4 then some 64
  else if type = 5 then some 4 else none

/-- A record's header as kept. -/
def recOf (h : List Nat) : CalRec :=
  { source := 1, borrowed := false, time := leAt h 8 8 % 2 ^ 40, conv := h.getD 16 0, eng := h.getD 17 0,
    temp := (List.range 4).map (fun i => sx 16 (leAt h (20 + 2 * i) 2)),
    supply := (List.range 5).map (fun i => leAt h (28 + 2 * i) 2) }

/-- A converter's record comes into force. -/
def applyConv (j : Nat) (h p : List Nat) (s : State) : State :=
  let f := fun (i : Nat) => leAt p (2 * i) 2
  let set := fun (fl : Fld) (v : Nat) (s : State) => wrI fl j v (wr fl j v s)
  let s := set CNV_CORR_OFFSET (f 0) (set CNV_CORR_GAIN (f 1) (set CNV_RATIO_RATIO6 (f 2)
    (set CNV_RATIO_RATIO12 (f 3) (set CNV_RATIO_RATIO18 (f 4) s))))
  setCalRec 0 j { recOf h with vals := sx 16 (f 5) :: (List.range 9).map (fun i => ((p.getD (12 + i) 0 : Nat) : Int)) } s

/-- A line's record comes into force. LINE_OK says that its map passed: not one that the host wrote, nor the empty one of a line that never
passed (R464, R527). -/
def applyLine (l : Nat) (h p : List Nat) (s : State) : State :=
  let s := (List.range 320).foldl (fun s t =>
    { s with tsu := { s.tsu with maps := s.tsu.maps.put 0 (512 * l + t) (leAt p (2 * t) 2 % 4096) } }) s
  setCalRec 1 l (recOf h) (wr TSU_STAT_LINE_OK 0 (setBitTo (rd TSU_STAT_LINE_OK 0 s) l
    (!(bitOf (h.getD 2 0) 1) && p.any (· ≠ 0))) s)

/-- One record of a copy is applied; a record of an unknown type, of another length or of an index out of range is skipped (R524,
R528). A borrowed record's object is queued (R523). -/
def applyRecord (type idx : Nat) (h p : List Nat) (s : State) : State :=
  if typeLen type ≠ some p.length then s
  else if type = 1 ∧ idx < 68 then calTake 0 idx (applyConv idx h p s)
  else if type = 2 ∧ idx = 0 then calApply 4 0 (setCalRec 4 0 { recOf h with vals := [((p.getD 0 0 % 4 : Nat) : Int)] } s)
  else if type = 3 ∧ idx < 29 then calTake 1 idx (applyLine idx h p s)
  else if type = 4 ∧ idx = 0 then
    calTake 3 0 (setCalRec 3 0 { recOf h with
      vals := (List.range 8).map (fun r => sx 32 (leAt p (8 * r) 4)) ++ (List.range 8).map (fun r => ((leAt p (8 * r + 4) 4 : Nat) : Int)) } s)
  else if type = 5 ∧ idx = 0 then setCalRec 5 0 (recOf h) (wr CAL_REF_REFIN 0 (leAt p 0 4) s)
  else s

/-- The records of a copy are applied one after another; `n` bounds how many. -/
def applyRecords : Nat → List Nat → State → State
  | 0, _, s => s
  | n + 1, l, s =>
    if l.length < 40 then s
    else
      let plen := leAt l 4 4
      applyRecords n (l.drop (40 + plen)) (applyRecord (l.getD 0 0) (l.getD 1 0) (l.take 40) ((l.drop 40).take plen) s)

/-- The flash step of bring-up (R526, R528): `a` and `b` are the bytes of the two copies. -/
def flashApply (a b : List Nat) (s : State) : State :=
  match flashPick a b with
  | none => raise 246 (wr CAL_STAT_FLASH_ERR 0 1 (wr CAL_STAT_COPY 0 0 s))
  | some (c, l) =>
    let s := wr CAL_STAT_COPY 0 c { s with cal := { s.cal with seq := flashSeq l } }
    applyRecords (leAt l 12 4) ((l.take (leAt l 16 4 - 4)).drop 32) s

end Sys2Proof.Machine
end

