-- ==== Sys2Proof/Machine/Calib.lean ====
section
/-!
DEFINITION. Calibration (chapter 18): how queued pairs start, what a run measures, the outcome of a pair and what it puts in force, the
in-place checks, the references, and saves to the flash. What a run measures comes with the command that ends it (log entry 71).
-/

set_option autoImplicit false

namespace Sys2Proof.Machine

/-- Calibration's state is changed. -/
def onCal (f : Cal → Cal) (s : State) : State := { s with cal := f s.cal }

/-! ### How a pair starts (R453, R516, R521, R523) -/

/-- Whether a pair of a kind is in progress. -/
def calBusy (kind : Nat) (s : State) : Bool := s.cal.pairs.any (fun c => decide (c.kind = kind))

/-- Whether a run of a kind is in progress, as the registers show it (R464, R535). -/
def calRuns (kind : Nat) (s : State) : Bool := s.cal.pairs.any (fun c => decide (c.kind = kind) && running c s)

/-- Whether the reference of a kind's runs is bad, so that they are refused and the values in force stay (R516). -/
def refBad (kind : Nat) (s : State) : Bool :=
  if kind = 1 then rdB CAL_STAT_CALCLK_BAD 0 s else decide (kind ≠ 2) && rdB CAL_STAT_REF_BAD 0 s

/-- The tolerances a pair takes at its start: offset, gain, ratio, position, anchor, replica (R519, R536). -/
def calTols (s : State) : List Nat :=
  [rd CAL_TOL_TOL_OFS 0 s, rd CAL_TOL_TOL_GAIN 0 s, rd CAL_TOL_TOL_RATIO 0 s, rd CAL_TOL_TOL_POS 0 s, rd CAL_TOL_TOL_ANC 0 s,
    rd CAL_TOL_TOL_REPL 0 s]

/-- A pair as it starts now. -/
def pairNew (kind idx : Nat) (byCmd boot : Bool) (s : State) : CalPair :=
  { kind := kind, idx := idx, byCmd := byCmd, since := s.now, tol := calTols s, boot := boot,
    before := if kind = 0 then corrFlds.map (fun f => rdI f idx s) else [] }

/-- A pair starts, and its object leaves the queue. -/
def calBegin (kind idx : Nat) (s : State) : State :=
  let mine := (s.cal.queue.take s.cal.cmdN).any (fun x => decide (x = (kind, idx)))
  let s := onCal (fun c => { c with
    queue := c.queue.filter (fun x => !(decide (x = (kind, idx)))), cmdN := if mine then c.cmdN - 1 else c.cmdN,
    pairs := c.pairs ++ [pairNew kind idx mine false s] }) s
  if kind = 0 then wr CNV_STAT_STATE idx cCALIBRATING s else s

/-- The lesser of two queued converters: by the TIME of its record, then by its number (R523). -/
def convBefore (a b : Nat) (s : State) : Bool :=
  decide ((calRec 0 a s).time < (calRec 0 b s).time ∨ ((calRec 0 a s).time = (calRec 0 b s).time ∧ a < b))

/-- The queued converter of a group that is next: those of CAL_RUN in their order, then the group's spare, then the rest (R523, R531). A
serving converter waits until the spare is READY, so that a queued spare in CALIBRATING goes before all. -/
def convNext (g : Nat) (s : State) : Option Nat :=
  let of := fun (l : List (Nat × Nat)) => (l.filter (fun o => decide (o.1 = 0 ∧ convGroup o.2 = g))).map (fun o => o.2)
  let auto := of (s.cal.queue.drop s.cal.cmdN)
  let spare := rd CNV_GRP_STAT_SPARE g s
  if auto.contains spare && decide (cnvSt spare s = cCALIBRATING) then some spare
  else match of (s.cal.queue.take s.cal.cmdN) with
  | j :: _ => some j
  | [] =>
    if auto.contains spare then some spare
    else auto.foldl (fun best j => match best with
      | none => some j
      | some b => if convBefore j b s then some j else some b) none

/-- The next converter of a group: the spare is calibrated in place, a serving one is first swapped out (R61, R523). -/
def convStart (g : Nat) (s : State) : State :=
  if s.cal.pairs.any (fun c => decide (c.kind = 0 ∧ convGroup c.idx = g)) || refBad 0 s then s
  else match convNext g s with
    | none => s
    | some j =>
      let st := cnvSt j s
      if st = cCALIBRATING ∨ st = cREADY then calBegin 0 j s
      else if st = cSERVING then
        match slotOfConv j s with
        | some k => if swapReason g (k % 16) s = 0 then (convSwapRequest g (k % 16) false s).1 else s
        | none => s
      else if st = cFAILED ∨ st = cGATED then calDrop 0 j s
      else s

/-- The spare line is to stand in for a line, or for none (0x1F). -/
def spareTo (l : Nat) (s : State) : State := onTsu (fun t => { t with spareNext := some l }) s

/-- The next timing line: line 28 is calibrated, stands in for the line, and the line is calibrated (R453). -/
def lineStart (s : State) : State :=
  let f := rd TSU_STAT_SPARE_FOR 0 s
  if calBusy 1 s || s.tsu.spareNext.isSome || refBad 1 s then s
  else match s.cal.line with
    | some l => if f = l then calBegin 1 l s else spareTo 0x1F (onCal (fun c => { c with line := none }) s)
    | none =>
      match s.cal.queue.find? (fun o => decide (o.1 = 1)) with
      | none => s
      | some (_, l) =>
        if f ≠ 0x1F then spareTo 0x1F s
        else if l = 28 then calBegin 1 28 s
        else calBegin 1 28 (onCal (fun c => { c with line := some l }) s)

/-- The first queued object of a kind starts, where no pair of the kind is in progress. -/
def kindStart (kind : Nat) (s : State) : State :=
  if calBusy kind s then s
  else match s.cal.queue.find? (fun o => decide (o.1 = kind)) with
    | none => s
    | some (_, i) => calBegin kind i s

/-- CAL_RUN_START: the next queued object of a kind, for converters of a group, starts. Pairs start only in IDLE and WEAVING (R523). -/
def execCalRunStart (kind g : Fin 4) (s : State) : Res :=
  if devState s = stIDLE ∨ devState s = stWEAVING then
    .next (if kind = 0 then convStart g s
      else if kind = 1 then lineStart s
      else if kind = 2 then kindStart 2 s
      else if refBad 3 s = true ∨ ¬(s.anc.phase = .idle ∨ s.anc.phase = .calWait) then s
      else kindStart 3 s)
  else .next s

/-! ### Runs (R453, R518, R521) -/

/-- pos of every tap from its hits (R453). -/
def tapGo : Nat → List Nat → List Int
  | _, [] => []
  | sum, n :: t => divRound ((2 * sum + n : Nat) : Int) 2048 :: tapGo (sum + n) t

/-- Why a line's run fails: 0 when it does not, 1 too short, 2 a tap too wide (R453, R462). -/
def lineFail (hits : List Nat) : Nat :=
  if (hits.drop 304).any (· ≠ 0) then 1 else if hits.any (fun n => 12 * 2 ^ 20 < 1000 * n) then 2 else 0

/-- The corrected words of one captured pick, X and Y, or none where one carries SAT or INTERP (R521). -/
def captured (x : PortPick) (refl n : Nat) (codes : Codes) : Option (List Cx × List Cx) :=
  let a := samplesOf x refl codes 0 refl n
  let b := samplesOf x refl codes 1 refl n
  if (a ++ b).any (fun y => y.sat || y.interp) then none
  else some (a.map (fun y => (y.i, y.q)), b.map (fun y => (y.i, y.q)))

/-- The counted picks among the captured ones, and how many captured ones they reach to. -/
def countPicks (refl n : Nat) : Nat → List (PortPick × Codes) → Nat → List (List Cx × List Cx) → Option (List (List Cx × List Cx) × Nat)
  | 0, _, used, acc => some (acc.reverse, used)
  | _ + 1, [], _, _ => none
  | k + 1, (x, codes) :: t, used, acc =>
    match captured x refl n codes with
    | none => countPicks refl n (k + 1) t (used + 1) acc
    | some v => countPicks refl n k t (used + 1) (v :: acc)

/-- The N_code of a slot's bank in force, 0 where there is none. -/
def slotNCode (k : Nat) (s : State) : Nat := match (slotOf k s).inForce with
  | some b => nCodeOf b
  | none => 0

/-- What a run gives: its result, when it ends, and how many captured picks it used up; none where what is given is no whole run. -/
def runResult (c : CalPair) (m : CalMeas) (s : State) : Option (CalOut × Nat × Nat) :=
  let end_ := c.since + runCc c.kind
  match m with
  | .converter dnl sel vals =>
    if c.kind = 0 ∧ sel.length = 9 ∧ vals.length = 6 then
      let ofs := vals.getD 0 0
      let gain := vals.getD 1 0
      some ({ failed := dnl || decide (ofs < -8192 ∨ 8192 < ofs ∨ gain < 24576 ∨ 40960 < gain), sel := sel.map Int.toNat, vals := vals },
        end_, 0)
    else none
  | .line hits =>
    if c.kind = 1 ∧ hits.length = 320 then some ({ failed := decide (lineFail hits ≠ 0), vals := tapGo 0 hits }, end_, 0) else none
  | .anchor vals => if c.kind = 3 ∧ vals.length = 16 then some ({ vals := vals }, end_, 0) else none
  | .replica codes =>
    if c.kind = 2 then
      let n := slotNCode c.idx s
      let refl := rd CAL_REPL_REFL 0 s
      match countPicks refl n (rd CAL_REPL_REPS_M1 0 s + 1) (c.caps.zip codes) 0 [] with
      | none => none
      | some (ps, used) =>
        let last := match c.caps[used - 1]? with
          | some x => x.launchRaw / 512 * 2 + 2 * (refl + n)
          | none => s.now
        some ({ replica := runReplica n (ps.map (fun p => p.1)) (ps.map (fun p => p.2)) }, last, used)
    else none

/-- A pair in progress is changed. -/
def onPair (kind idx : Nat) (f : CalPair → CalPair) (s : State) : State :=
  onCal (fun c => { c with pairs := c.pairs.map (fun p => if p.kind = kind ∧ p.idx = idx then f p else p) }) s

/-- A failed line run, ended at a cycle, is reported (R453, R462). -/
def lineFailed (l at_ : Nat) (m : CalMeas) (s : State) : State :=
  match m with
  | .line hits => raise 221 (eventRecordAt 0x33 221 (place l 0 5) (rd SYS_PICK_NUM_NUM 0 s) (rawStamp (256 * at_) srcInternal 0 s)
      (lineFail hits) (divRound (maxL hits : Nat) 1024).toNat s)
  | .converter _ _ _ => s
  | .replica _ => s
  | .anchor _ => s

/-- A pair whose next run is refused, or whose result may not change the values in force, for its reference is bad, ends ABORTED; the
anchor table goes on (R516; DESIGN CHOICE, log entry 111). -/
def pairRefused (kind idx : Nat) (s : State) : State :=
  let s := calPairAbort kind idx s
  if kind = 3 then ancCalResume s else s

/-- The run in progress of a pair ends; the pair's second run follows at once, unless its reference is bad (R516, R519). A replica's run
that took longer than 10 s is no whole one (R521). -/
def runEnd (kind idx : Nat) (m : CalMeas) (s : State) : State :=
  match pairOf kind idx s with
  | none => s
  | some c =>
    if c.second.isSome then s
    else match runResult c m s with
      | none => s
      | some (out, end_, used) =>
        if kind = 2 ∧ c.since + 10 * ccSec < end_ then s
        else
          let s := advanceTo end_ s
          let s := onPair kind idx (fun p =>
            { p with since := end_, caps := p.caps.drop used,
                     first := if p.first.isSome then p.first else some out, second := if p.first.isSome then some out else none }) s
          let s := if out.failed ∧ kind = 1 then lineFailed idx end_ m s else s
          if refBad kind s then pairRefused kind idx s else s

/-- CAL_RUN_END. -/
def execCalRunEnd (kind : Fin 4) (idx : Fin 256) (m : CalMeas) (s : State) : Res := .next (runEnd kind idx m s)

/-! ### Outcomes (R519, R520) -/

/-- The first two values of two lists that differ by more than a tolerance. -/
def firstApart (tol : Nat) : List Int → List Int → Option (Int × Int)
  | a :: s, b :: t => if tol < (a - b).natAbs then some (a, b) else firstApart tol s t
  | [], _ => none
  | _, [] => none

/-- The first disagreeing quantity of a pair's results: its code and the two values (R519). The gains of the anchor converter have an LSB
of 2^-30, its tolerance one of 2^-23. -/
def disagreement (c : CalPair) (a b : CalOut) : Option (Nat × Int × Int) :=
  let tol := fun (i : Nat) => c.tol.getD i 0
  if c.kind = 0 then
    match firstApart 0 (a.sel.map Int.ofNat) (b.sel.map Int.ofNat) with
    | some (x, y) => some (7, x, y)
    | none => (List.range 6).findSome? (fun i =>
        let t := if i = 0 then tol 0 else if i = 1 then tol 1 else if i = 5 then 4 else tol 2
        if t < (a.vals.getD i 0 - b.vals.getD i 0).natAbs then some (i + 1, a.vals.getD i 0, b.vals.getD i 0) else none)
  else if c.kind = 1 then (firstApart (tol 3) a.vals b.vals).map (fun v => (0x10, v.1, v.2))
  else if c.kind = 3 then
    ((firstApart (tol 4) (a.vals.take 8) (b.vals.take 8)).or
      (firstApart (128 * tol 4) (a.vals.drop 8) (b.vals.drop 8))).map (fun v => (0x20, v.1, v.2))
  else if replicasAgree (tol 5) a.replica b.replica then none
  else some (0x30, 0, 0)

/-- The mean of two results of one trim (R520). -/
def meanOf (a b : List Int) : List Int := (a.zip b).map (fun e => divRound (e.1 + e.2) 2)

/-- The hour of a record: TAI seconds, zero while the time is not valid (R527). -/
def taiSeconds (s : State) : Nat :=
  if rdB SYS_DISC_STAT_VALID 0 s then (taiOf (256 * s.now) s / (secUnits : Int)).toNat % 2 ^ 40 else 0

/-- What a record's header holds of the present moment, with a source (R527). -/
def headRec (source : Nat) (r : CalRec) (s : State) : CalRec :=
  { r with source := source, borrowed := false, time := taiSeconds s, temp := s.sys.temps, supply := s.sys.supplies,
           conv := ((List.range 68).filter (fun j => cnvSt j s = cSERVING)).length,
           eng := ((List.range 34).filter (fun e => engSt e s = eRUNNING && (servedBy e s).isSome)).length }

/-- The record of a pair that passed (R524, R527). -/
def passedRec (vals : List Int) (r : CalRec) (s : State) : CalRec :=
  { headRec 2 r s with last := coPASS, streak := 0, vals := vals }

/-- A converter's trims come into force (R80, R81). -/
def convTrims (j : Nat) (v : List Int) (s : State) : State :=
  let s := wrZ CNV_CORR_OFFSET j (v.getD 0 0) s
  let put := fun (f : Fld) (i : Nat) (s : State) => wr f j (satU 16 (v.getD i 0).toNat) s
  convEnforce j (put CNV_RATIO_RATIO18 4 (put CNV_RATIO_RATIO12 3 (put CNV_RATIO_RATIO6 2 (put CNV_CORR_GAIN 1 s))))

/-- The words of a replica that the pair agreed on. Where the mean vanishes the rule states no value, and the words are free. -/
def replicaWords (n : Nat) (a b : CalOut) (s : State) : List Nat × State :=
  let r := meanReplica n a.replica b.replica
  if normC (innerC r r) = 0 then
    let (v, s) := draw s
    ((List.range n).map (fun i => slice v (48 * i) 48), s)
  else (r.map replicaWord, s)

/-- A PREPARE of the device's own that is refused: REFUSED and the log entry of R91. -/
def replicaRefused (k : Nat) (s : State) : State :=
  requestRefused .device (RED_SLOT_CTL.off 0) 0 (BitVec.ofNat 64 (256 + k)) (wr RED_SLOT_STAT_REFUSED 0 1 s)

/-- A passed replica goes to the load buffer and RED_SLOT_CFG, and is prepared (R521). While a preparation of the host runs the buffer is
locked: nothing is written and the PREPARE is refused (R91). -/
def replicaTake (k : Nat) (a b : CalOut) (s : State) : State :=
  match (slotOf k s).inForce with
  | none => s
  | some bank =>
    if s.reed.prep.isSome then replicaRefused k s else
    let (ws, s) := replicaWords (nCodeOf bank) a b s
    let chips := bank.words.filter (fun e => 8192 ≤ e.1)
    let buf := ws.zipIdx.foldl (fun (m : Smap Nat) e => m.put 0 e.2 e.1) ((s.reed.buf.filter (fun e => e.1 < 8192)) ++ chips)
    let s := { s with reed := { s.reed with buf := buf } }
    let s := wr RED_SLOT_CFG_CHIPS_M1 0 bank.chipsM1 (wr RED_SLOT_CFG_CHIP_LEN 0 bank.chipLen (wr RED_SLOT_CFG_SHIFT 0 bank.shift s))
    let (s, refused) := redPrepare k s
    if refused then replicaRefused k s else { s with reed := { s.reed with prep := s.reed.prep.map (fun p => { p with byCal := true }) } }

/-- The values of a pair that passed come into force (R520). -/
def pairPass (c : CalPair) (a b : CalOut) (s : State) : State :=
  let v := meanOf a.vals b.vals
  let keep := fun (vals : List Int) (s : State) => setCalRec c.kind c.idx (passedRec vals (calRec c.kind c.idx s) s) s
  let s :=
    if c.kind = 0 then keep (v.getD 5 0 :: a.sel.map Int.ofNat) (convTrims c.idx v s)
    else if c.kind = 1 then
      let s := v.zipIdx.foldl (fun s e => onTsu (fun t => { t with maps := t.maps.put 0 (512 * c.idx + e.2) (e.1.toNat % 4096) }) s) s
      keep [] (wr TSU_STAT_LINE_OK 0 (setBitTo (rd TSU_STAT_LINE_OK 0 s) c.idx true) s)
    else if c.kind = 3 then keep v s
    else setCalRec 2 c.idx { calRec 2 c.idx s with source := 2, time := taiSeconds s, last := coPASS, streak := 0, temp := s.sys.temps }
      (replicaTake c.idx a b s)
  raise 240 s

/-- A CAL_RESULT record (R533). -/
def calResult (ev kind idx outcome code a b : Nat) (s : State) : State :=
  raise ev (eventRecord 0x50 ev (place kind 20 4 + place idx 12 8 + place outcome 8 4 + place code 0 8) (rd SYS_PICK_NUM_NUM 0 s) a b s)

/-- A pair that disagreed: the values stay and are applied again, and an object without a record is queued; a repeat follows in 60 s, but
not after the third time in a row (R520, R524). -/
def pairDisagree (kind idx code : Nat) (a b : Int) (s : State) : State :=
  let r := calRec kind idx s
  let s := bump CAL_CNT_DISAGREE 0 (setCalRec kind idx { r with last := coDISAGREE, streak := r.streak + 1 } s)
  let s := if r.streak < 2 ∧ kind ≠ 2 then onCal (fun c => { c with retry := c.retry.put 0 (calKey kind idx) (s.now + 60 * ccSec) }) s else s
  let (x, s) : (Nat × Nat) × State :=
    if kind = 2 then
      let (u, s) := drawBelow (2 ^ 48) s
      let (v, s) := drawBelow (2 ^ 48) s
      ((u, v), s)
    else ((ux 48 a, ux 48 b), s)
  let s := calApply kind idx s
  calResult 241 kind idx coDISAGREE code x.1 x.2 (if r.source = 0 ∧ kind ≠ 2 then calAuto kind idx s else s)

/-- A pair that failed or timed out: the values stay; a converter becomes FAILED (R520). The record's values are not given for these
outcomes, so they are free. -/
def pairFail (kind idx outcome : Nat) (s : State) : State :=
  let r := calRec kind idx s
  let s := bump CAL_CNT_FAILS 0 (setCalRec kind idx { r with last := outcome, streak := 0 } s)
  let (u, s) := drawBelow (2 ^ 48) s
  let (v, s) := drawBelow (2 ^ 48) s
  calResult 242 kind idx outcome 0 u v s

/-- A converter's state after its pair (R62): READY, or FAILED, and then the group has no spare. -/
def convAfter (j : Nat) (failed : Bool) (s : State) : State :=
  if cnvSt j s = cCALIBRATING then
    if failed then
      wr CNV_GRP_STAT_SPARE (convGroup j) 0xFF (wr CNV_STAT_CAL_FAIL j 1 (wr CNV_STAT_STATE j cFAILED s))
    else wr CNV_STAT_STATE j cREADY s
  else s

/-- The outcome of a pair's results: what comes into force, the counters, events and records. -/
def pairOutcome (c : CalPair) (a b : CalOut) (s : State) : Nat × Nat × State :=
  let s := bump CAL_CNT_RUNS 0 s
  if a.failed || b.failed then (coFAIL, 0, pairFail c.kind c.idx coFAIL (pairRestore c s))
  else match disagreement c a b with
    | some (code, x, y) => (coDISAGREE, code, pairDisagree c.kind c.idx code x y (pairRestore c s))
    | none => (coPASS, 0, pairPass c a b s)

/-- A converter that fails at bring-up is treated as though it had failed while serving; a spare is then its group's no more (R526). -/
def bootFail (j : Nat) (s : State) : State :=
  let s := convFail j false s
  if rd CNV_GRP_STAT_SPARE (convGroup j) s = j then wr CNV_GRP_STAT_SPARE (convGroup j) 0xFF s else s

/-- What follows the end of a pair: a line's move through the spare, the anchor table's next entry. At bring-up the lines run in parallel
(R453). -/
def pairAfter (c : CalPair) (s : State) : State :=
  if c.boot then s
  else if c.kind = 1 then
    if c.idx = 28 then
      match s.cal.line with
      | some l => spareTo l s
      | none => s
    else spareTo 0x1F (onCal (fun x => { x with line := none }) s)
  else if c.kind = 3 then ancCalResume s
  else s

/-- A save starts (R529): the copy not in use, at its byte address (R527), with the values of this moment. -/
def saveStart (s : State) : State :=
  let copy := if rd CAL_STAT_COPY 0 s = 1 then 2 else 1
  let seq := s.cal.seq + 1
  let bytes := flashImage seq s
  emit (.flash (if copy = 1 then 0x100000 else 0x110000) bytes) (onCal (fun c => { c with save := some { copy := copy, seq := seq, bytes := bytes } }) s)

/-- An automatic save after a PASS, when the last one lies SAVE_H hours back; before any save the time counts from the release of the
resets (R529). -/
def saveAuto (s : State) : State :=
  let h := rd CAL_CTL_SAVE_H 0 s
  if h ≠ 0 ∧ s.cal.save.isNone = true ∧ s.cal.lastSave.getD 0 + h * 3600 * ccSec ≤ s.now then saveStart s else s

/-- The command of a pair completes (R531). -/
def pairCmd (kind idx outcome code : Nat) (s : State) : State :=
  calCmdEnd kind idx (if outcome = coPASS then 0 else 0x16) (if outcome = coPASS then 0 else outcome) (outcome + place code 8 8) s

/-- The second run has ended, and the outcome sets the values in force (R520). -/
def pairEnd (kind idx : Nat) (s : State) : State :=
  match pairOf kind idx s with
  | none => s
  | some c =>
    match c.first, c.second with
    | some a, some b =>
      if refBad kind s then pairRefused kind idx s
      else
        let (outcome, code, s) := pairOutcome c a b (pairDrop kind idx s)
        let s := if kind ≠ 0 then s
          else if c.boot ∧ outcome = coFAIL then bootFail idx s
          else convAfter idx (decide (outcome = coFAIL)) s
        pairAfter c (pairCmd kind idx outcome code (if outcome = coPASS then saveAuto s else s))
    | some _, none => s
    | none, some _ => s
    | none, none => s

/-- CAL_PAIR_END. -/
def execCalPairEnd (kind : Fin 4) (idx : Fin 256) (s : State) : Res := .next (pairEnd kind idx s)

/-- DISAGREE_RETRY: 60 s after a DISAGREE the object is queued again (R520). -/
def execDisagreeRetry (kind : Fin 4) (idx : Fin 256) (s : State) : Res :=
  let k := calKey kind idx
  let t := s.cal.retry.get 0 k
  if t = 0 then .next s
  else .next (calAuto kind idx (onCal (fun c => { c with retry := c.retry.put 0 k 0 }) (advanceTo t s)))

/-- REPLICA_TIMEOUT: a replica run's picks were not all counted within 10 s (R521). A pair whose two runs have ended times out no more. -/
def execReplicaTimeout (s : State) : Res :=
  match s.cal.pairs.find? (fun c => decide (c.kind = 2) && c.second.isNone) with
  | none => .next s
  | some c =>
    let s := pairDrop 2 c.idx (advanceTo (c.since + 10 * ccSec) s)
    .next (pairCmd 2 c.idx coTIMEOUT 0 (pairFail 2 c.idx coTIMEOUT (bump CAL_CNT_RUNS 0 s)))

/-! ### In-place checks (R525) -/

/-- When a check in the selvedge of a launched pick of a port ends: 64 samples from 64 sc after the shed's end. The pick is one whose check
starts no earlier than `due` and has not ended by now. -/
def checkRoom (p due : Nat) (s : State) : Option Nat :=
  s.trd.picks.findSome? (fun x => match x.ports.find? (fun y => decide (y.port = p)) with
    | some y =>
      let start := x.tick + 2 * (y.shed + 64)
      if due ≤ start ∧ s.now ≤ start + 128 then some (start + 128) else none
    | none => none)

/-- INPLACE_CHECK: CHK_S seconds after the last check and in the selvedge of a launched pick, the shorted input of a serving converter gave 64 codes of this sum, all of them at an end of the range or not. -/
def execInplaceCheck (j : Fin 68) (sum : Int) (rail : Bool) (s : State) : Res :=
  let due := s.cal.chk.get 0 j + rd CAL_CTL_CHK_S 0 s * ccSec
  match slotOfConv j s with
  | none => .next s
  | some k => match checkRoom (k / 4) due s with
    | none => .next s
    | some t =>
      if rd CAL_CTL_CHK_S 0 s = 0 ∨ cnvSt j s ≠ cSERVING then .next s
      else
        let s := advanceTo t s
        let s := onCal (fun c => { c with chk := c.chk.put 0 j s.now }) s
        let ofs := sx 16 (rdI CNV_CORR_OFFSET j s)
        if 64 * rd CAL_CTL_CHK_LIM 0 s < (sum - 4 * ofs).natAbs ∨ rail = true then
          if s.cal.chkFail.get 0 j = 0 then .next (onCal (fun c => { c with chkFail := c.chkFail.put 0 j 1 }) s)
          else .next (convFail j false (onCal (fun c => { c with chkFail := c.chkFail.put 0 j 0 }) s))
        else .next (onCal (fun c => { c with chkFail := c.chkFail.put 0 j 0 }) s)

/-! ### References (R516, R517) -/

/-- Whether a converter may be queued. -/
def convQueueable (j : Nat) (s : State) : Bool := cnvSt j s ≠ cGATED && cnvSt j s ≠ cFAILED

/-- The write of CAL_REF, a declaration of the host's (R527): a changed REFIN aborts the runs that use it and queues every converter and the anchor converter (R517). -/
def calRefWrite (v : Qword) (s : State) : State :=
  let was := rd CAL_REF_REFIN 0 s
  let s := setCalRec 5 0 (headRec 3 {} s) (regWrite CAL_REF 0 v s)
  if CAL_REF_REFIN.ofQ v = was then s
  else
    let s := s.cal.pairs.foldl (fun s c => if c.kind = 0 ∨ c.kind = 3 then calPairAbort c.kind c.idx s else s) s
    let s := (List.range 68).foldl (fun s j => if convQueueable j s then calAuto 0 j s else s) s
    ancCalResume (calAuto 3 0 s)

/-- CAL_REF_WRITE. -/
def execCalRefWrite (v : BitVec 64) (s : State) : Res := .next (if s.sys.inReset then s else calRefWrite v s)

/-- REF_CHECK: REFIN measured against the bandgap, in µV, at the next multiple of 100 ms (R516; the phase is DESIGN CHOICE, log entry
112). -/
def execRefCheck (measured : BitVec 22) (s : State) : Res :=
  let s := advanceTo ((s.now / (100 * ccMs) + 1) * (100 * ccMs)) s
  let m := measured.toNat
  let d := refinUv s
  let bad := decide (d < 100 * ((m : Int) - (d : Int)).natAbs)
  let was := rdB CAL_STAT_REF_BAD 0 s
  let s := wrB CAL_STAT_REF_BAD 0 bad (wr CAL_REF_MEASURED 0 m s)
  let s := if bad && !was then raise 247 s else s
  .next (if bad && !(calBusy 3 s) then ancCalResume s else s)

/-- CALCLK_LOSS. -/
def execCalclkLoss (s : State) : Res := .next (wr CAL_STAT_CALCLK_BAD 0 1 s)

/-- CALCLK_RETURN. -/
def execCalclkReturn (s : State) : Res := .next (wr CAL_STAT_CALCLK_BAD 0 0 s)

/-! ### Triggers (R522, R523) -/

/-- The objects that temperature triggers concern. -/
def calObjects : List (Nat × Nat) :=
  (List.range 68).map (fun j => (0, j)) ++ (List.range 29).map (fun l => (1, l)) ++ [(3, 0)]

/-- One object's trigger at a reading: it is queued when its sensor has moved beyond ΔT since the last reading (R523). -/
def calTrigger (o : Nat × Nat) (acc : Bool × State) : Bool × State :=
  let s := acc.2
  let k := calKey o.1 o.2
  let able := o.1 ≠ 0 ∨ convQueueable o.2 s = true
  let hot := decide ((calRec o.1 o.2 s).source ≠ 0 ∧ 40 * deltaT s < calDrift o.1 o.2 s ∧ able) && rdB CAL_CTL_AUTO_RECAL 0 s
  let was := s.cal.hot.get false k
  let s := onCal (fun c => { c with hot := c.hot.put false k hot }) s
  if hot && !was then
    (true, calAuto o.1 o.2 (setCalRec o.1 o.2 { calRec o.1 o.2 s with streak := 0 } s))
  else (acc.1, s)

/-- The temperature triggers of a reading: event 244 when one fires. -/
def calTriggers (s : State) : State :=
  let (any, s) := calObjects.foldl (fun acc o => calTrigger o acc) (false, s)
  if any then raise 244 s else s

/-! ### Saves and the registers (R529, R531, R535 to R537) -/

/-- The write of CAL_CTL (R529, R535). -/
def calCtlWrite (org : Origin) (v : Qword) (s : State) : State :=
  let s := regWrite CAL_CTL 0 v s
  if bitOf v.toNat 1 then
    if s.cal.save.isSome then writeIgnored org (CAL_CTL.off 0) v s else saveStart s
  else s

/-- CAL_SAVE: a CAL_CTL write with SAVE = 1. -/
def execCalSave (v : BitVec 64) (s : State) : Res :=
  if s.sys.inReset then .next s else
  .next (calCtlWrite .pcie (v ||| 2#64) s)

/-- CAL_SAVE_DONE: the copy was programmed and read back, with a matching CRC or not; without a flash it never matches (R529, R541). -/
def execCalSaveDone (ok : Bool) (s : State) : Res :=
  match s.cal.save with
  | none => .next s
  | some r =>
    let good := ok && !(rdB SYS_STRAP_NOFLASH 0 s)
    let s := onCal (fun c => { c with save := none }) s
    let rec_ := fun (ev bad : Nat) (s : State) =>
      raise ev (eventRecord 0x52 ev (place bad 2 1 + place r.copy 0 2) (rd SYS_PICK_NUM_NUM 0 s) r.seq r.bytes.length s)
    if good then
      .next (rec_ 245 0 (bump CAL_CNT_SAVES 0 (wr CAL_STAT_COPY 0 r.copy (onCal (fun c => { c with seq := r.seq, lastSave := some s.now }) s))))
    else .next (rec_ 246 1 (wr CAL_STAT_FLASH_ERR 0 1 s))

/-- The write of CAL_REPL: only while no replica run is in progress (R536). -/
def calReplWrite (org : Origin) (v : Qword) (s : State) : State :=
  if calBusy 2 s then writeIgnored org (CAL_REPL.off 0) v s else regWrite CAL_REPL 0 v s

/-- What CAL_OBJ_DATA shows (R537). -/
def calObjShow (s : State) : Nat :=
  let kind := rd CAL_OBJ_ADDR_KIND 0 s
  let idx := rd CAL_OBJ_ADDR_INDEX 0 s
  let inRange := (kind = 0 ∧ idx < 68) ∨ (kind = 1 ∧ idx < 29) ∨ (kind = 2 ∧ idx < 64) ∨ (kind = 3 ∧ idx = 0) ∨ (kind = 4 ∧ idx = 0)
  if inRange then
    let r := calRec kind idx s
    let age := if r.time = 0 then 65535
      else satU 16 (((taiOf (256 * s.now) s / (secUnits : Int) - (r.time : Int)) / 3600).toNat)
    place age 32 16 + place (ux 16 (divRound (objTemp kind idx r.temp) 4)) 16 16
      + (if kind = 4 then place (r.vals.getD 0 0).toNat 8 2 else 0) + place r.source 6 2 + place (b2n r.borrowed) 5 1
      + place (b2n (calHas kind idx s)) 4 1 + place r.last 0 4
  else 0

/-- The part of CAL_STAT that is put together at a read (R535). -/
def calStatShow (s : State) : Nat :=
  place (satU 8 s.cal.queue.length) 40 8 + place (sumN ((List.range 4).map (fun k => b2n (calRuns k s) * 2 ^ k))) 8 4
    + place (b2n s.cal.save.isSome) 5 1

/-- Why a CAL_RUN is refused: 0 when it is not (R531). The command itself is in flight already. -/
def calRunReason (kind idx : Nat) (s : State) : Nat :=
  let g := convGroup idx
  let inRange := (kind = 0 ∧ idx < 68) ∨ (kind = 1 ∧ idx < 29) ∨ (kind = 2 ∧ idx < 64) ∨ (kind = 3 ∧ idx = 0)
  let port := rd CAL_REPL_PORT 0 s
  let busyCmd := s.host.cmds.filter (fun c => decide (c.opcode = 0x28 ∧ c.phase = .running ∧ c.aux = calAux kind idx))
  if !inRange ∨ (kind = 0 ∧ convQueueable idx s = false) then 1
  else if kind = 0 ∧ (rd CNV_GRP_STAT_SPARE g s = 0xFF ∨ cnvSt (rd CNV_GRP_STAT_SPARE g s) s ≠ cREADY ∨ (swapOf g s).isSome = true) then 2
  else if ((kind = 0 ∨ kind = 3) ∧ rdB CAL_STAT_REF_BAD 0 s = true) ∨ (kind = 1 ∧ rdB CAL_STAT_CALCLK_BAD 0 s = true) then 3
  else if kind = 2 ∧ ((slotOf idx s).inForce.isNone = true ∨ weaving s = false ∨ portSt port s ≠ pRUNNING
      ∨ shedOf (lineIdx port (rd CAL_REPL_LINE 0 s)) s < rd CAL_REPL_REFL 0 s + slotNCode idx s) then 4
  else if kind = 2 ∧ s.reed.prep.isSome = true then 5
  else if !busyCmd.isEmpty then 6
  else 0

/-- A CAL_RUN queues its object ahead of the automatic entries; an object already queued moves there, one that runs is joined (R523, R531).
Where 128 entries stand in the queue it is refused, with a DETAIL that is free (DESIGN CHOICE, log entry 113). -/
def calRunRequest (kind idx : Nat) (s : State) : State × Nat :=
  let r := calRunReason kind idx s
  if r ≠ 0 then (s, r)
  else if s.cal.pairs.any (fun c => decide (c.kind = kind ∧ c.idx = idx)) then (s, 0)
  else if !(calHas kind idx s) && decide (128 ≤ s.cal.queue.length) then
    let (d, s) := drawBelow 65535 s
    (s, d + 1)
  else
    let o := (kind, idx)
    (onCal (fun c =>
      if (c.queue.take c.cmdN).any (fun x => decide (x = o)) then c
      else
        let auto := (c.queue.drop c.cmdN).filter (fun x => !(decide (x = o)))
        { c with queue := c.queue.take c.cmdN ++ o :: auto, cmdN := c.cmdN + 1 }) s, 0)

/-! ### The calibration step of bring-up (R518, R526) -/

/-- The calibration step begins: every object starts its pair, but one whose reference is bad is queued instead (R516, R526; log entry
111). -/
def bootPairs (s : State) : State :=
  calObjects.foldl (fun s o =>
    if refBad o.1 s then calAuto o.1 o.2 s
    else onCal (fun c => { c with pairs := c.pairs ++ [pairNew o.1 o.2 false true s] }) s) s

/-- One object's first run of bring-up ends, where it still lasts. -/
def bootFirst (s : State) (e : (Nat × Nat) × (CalMeas × CalMeas)) : State :=
  match pairOf e.1.1 e.1.2 s with
  | some c => if c.first.isNone then runEnd e.1.1 e.1.2 e.2.1 s else s
  | none => s

/-- One object's second run of bring-up ends, and with it the pair. -/
def bootSecond (s : State) (e : (Nat × Nat) × (CalMeas × CalMeas)) : State := pairEnd e.1.1 e.1.2 (runEnd e.1.1 e.1.2 e.2.2 s)

/-- What was measured of the objects of one kind. -/
def measOf (kind : Nat) (ms : List (CalMeas × CalMeas)) : List ((Nat × Nat) × (CalMeas × CalMeas)) :=
  (calObjects.zip ms).filter (fun e => decide (e.1.1 = kind))

/-- Whether the measurements given for bring-up are those of every object, in the order of `calObjects`. -/
def bringupMeasOk (ms : List (CalMeas × CalMeas)) (s : State) : Bool :=
  decide (ms.length = calObjects.length) && (calObjects.zip ms).all (fun e =>
    let c : CalPair := { kind := e.1.1, idx := e.1.2, byCmd := false, since := 0 }
    (runResult c e.2.1 s).isSome && (runResult c e.2.2 s).isSome)

/-- The reference buffer is selected (R518): `bufs` holds two measurements of each, as deviations from its nominal in 2^-23 of full
scale. While REF_BAD is 1 they are refused, and the selection stays (R516). -/
def selectBuffer (bufs : List (Int × Int)) (s : State) : State :=
  let ok := (List.range 4).filter (fun i =>
    let m := bufs.getD i (0, 0)
    !(refBad 3 s) && decide (i < bufs.length ∧ (m.1 - m.2).natAbs ≤ rd CAL_TOL_TOL_ANC 0 s))
  let dev := fun (i : Nat) => ((bufs.getD i (0, 0)).1 + (bufs.getD i (0, 0)).2).natAbs
  match ok.foldl (fun (best : Option Nat) (i : Nat) => match best with
      | none => some i
      | some b => if dev i < dev b then some i else some b) none with
  | some i => setCalRec 4 0 { passedRec [Int.ofNat i] (calRec 4 0 s) s with last := coPASS } s
  | none => raise 242 s

/-- The calibration step ends: the pairs that still last end one after another, as the times of R518 and R453 have them, and the reference
buffer is selected (R526). -/
def bringupCal (ms : List (CalMeas × CalMeas)) (bufs : List (Int × Int)) (s : State) : State :=
  let s := (measOf 3 ms).foldl bootSecond ((measOf 3 ms).foldl bootFirst s)
  let s := (measOf 0 ms).foldl bootFirst ((measOf 1 ms).foldl bootFirst s)
  selectBuffer bufs ((measOf 0 ms).foldl bootSecond ((measOf 1 ms).foldl bootSecond s))

end Sys2Proof.Machine
end

