-- ==== Sys2Proof/Machine/Service.lean ====
section
/-!
DEFINITION. Resets, bring-up, device states, faults, hold, profiles and the sensors (chapters 19 and 20; R9 and R10). The device
state is SYS_STATE.STATE; while a reset is asserted it reads RESET and `Service.inReset` holds.
-/

set_option autoImplicit false

namespace Sys2Proof.Machine

/-- The service unit is changed in place. -/
def onSys (f : Service → Service) (s : State) : State := { s with sys := f s.sys }

/-! ### States (R545, R558) -/

/-- A state transition: SYS_STATE, event 9 and its STATE record, event 14 at leaving FAULT, and permission and the addressed bus brought in
line (R437, R545, R551, R558). -/
def goState (new active a b : Nat) (s : State) : State :=
  let prev := devState s
  let s := wr SYS_STATE_STATE 0 new (wr SYS_STATE_PREV 0 prev s)
  let s := raise 9 (if prev = stFAULT then raise 14 s else s)
  let s := refreshPermit (eventRecord 0x60 9 (place prev 20 4 + place new 16 4 + place active 0 8) (rd SYS_PICK_NUM_NUM 0 s) a b s)
  if busOn s then busKick s else busCut s

/-! ### Resets (R539 to R541) -/

/-- The keys of every RWS field (R3). -/
def rwsKeys : List Nat :=
  regTable.flatMap (fun r => (List.range r.count).flatMap (fun i =>
    (r.fields.filter (fun f => decide (f.ty = .rws))).map (fun f => f.key i)))

/-- The fields of SYS_RESET by cause: power-on, PERST_N, RST_N, FLR, CORE_RST. -/
def causeFlds : List Fld := [SYS_RESET_POR, SYS_RESET_PERST, SYS_RESET_PIN, SYS_RESET_FLR, SYS_RESET_SOFT]

/-- The keys of SYS_RESET. -/
def causeKeys : List Nat := causeFlds.map (fun f => f.key 0)

/-- The keys of the fields a core reset keeps beside the RWS ones: SYS_RESET, the straps, RANK_OUT and HELD, what shows the remap table and
the sizes of the replay slots, which it keeps too (R394, R404), while HELD the states of the
regions with KEEP = 1 (R404), and the link's fields where the link stays trained (R540). -/
def coreKeys (link : Bool) (s : State) : List Nat :=
  causeKeys ++ [SYS_STRAP_PCIE.key 0, SYS_STRAP_NOFLASH.key 0, DRM_STAT_RANK_OUT.key 0, DRM_STAT_HELD.key 0,
      DRM_RETIRE_USED.key 0, DRM_RETIRE_FULL.key 0] ++ (List.range 4).map (fun w => DRM_RPL_STAT_SLOT_BYTES.key w)
    ++ (if rdB DRM_STAT_HELD 0 s then
          ((List.range 8).filter (fun r => rdB DRM_REGION_CTL_KEEP r s)).map (fun r => DRM_REGION_CTL_STATE.key r)
        else [])
    ++ (if link then [HST_STAT_LINK_SPEED.key 0, HST_STAT_LINK_WIDTH.key 0] else [])

/-- The device with nothing kept (R539). What lies outside it stays: the queue, the outputs made, the level of INTLK_N and the test
access port with its cells. -/
def bareReset (s : State) : State :=
  { pending := s.pending, free := s.free, out := s.out, src := { intlkLow := s.src.intlkLow }, sys := { tap := s.sys.tap, cells := s.sys.cells } }

/-- The device with what a core reset keeps (R539): SDRAM contents only while HELD. -/
def coreReset (link : Bool) (s : State) : State :=
  let keys := rwsKeys ++ coreKeys link s
  { bareReset s with
    csr := s.csr.filter (fun e => keys.contains e.1),
    warp := { rowMap := s.warp.rowMap, sparesUsed := s.warp.sparesUsed },
    dram := { bmap := s.dram.bmap, remap := s.dram.remap, poolRank := s.dram.poolRank, poolUsed := s.dram.poolUsed,
              hasSpare := s.dram.hasSpare, spare := s.dram.spare, homeRk := s.dram.homeRk, gib := s.dram.gib,
              frames := if rdB DRM_STAT_HELD 0 s then s.dram.frames else [] },
    sys := { tap := s.sys.tap, cells := s.sys.cells, sample := s.sys.sample } }

/-- SYS_RESET names one cause (R561). -/
def setResetCause (cause : Nat) (s : State) : State :=
  (List.range 5).foldl (fun s i => wrB (causeFlds.getD i SYS_RESET_POR) 0 (i = cause) s) s

/-- A reset is asserted (R539, R540): `full` for power-on reset and PERST_N, `link` when the PCIe link stays trained. LAUNCH and CODE go
low (R419). -/
def assertReset (full link : Bool) (cause : Nat) (s : State) : State :=
  let s := gatesLow s
  let s := if full then bareReset s else coreReset link s
  onSys (fun x => { x with inReset := true, sample := full || x.sample }) (wr SYS_STATE_STATE 0 stRESET (setResetCause cause s))

/-- Whether the test access port holds the device in core reset (R571). -/
def tapHolds (s : State) : Bool :=
  match s.sys.tap with
  | .extest => true
  | .highz => true
  | .clamp => true
  | .bypass => false
  | .sample => false
  | .idcode => false

/-- The reset that is asserted acts until its release: what came in the meantime leaves no trace. -/
def resetStands (s : State) : State :=
  if s.sys.sample then
    { bareReset s with csr := s.csr.filter (fun e => causeKeys.contains e.1), sys := { tap := s.sys.tap, cells := s.sys.cells, sample := true } }
  else coreReset true s

/-- Every reset is released (R540 to R542): after power-on reset or PERST_N the straps are sampled; bring-up begins, under R544 when
HELD is 1. -/
def resetRelease (pcie : Nat) (noflash : Bool) (s : State) : State :=
  if s.sys.inReset && !(tapHolds s) then
    let s := resetStands s
    let s := if s.sys.sample then wr SYS_STRAP_PCIE 0 pcie (wrB SYS_STRAP_NOFLASH 0 noflash s) else s
    let s := onSys (fun x => { x with sample := false, inReset := false, hold := rdB DRM_STAT_HELD 0 s })
      (wr SYS_STATE_STATE 0 stRESET s)
    goState stBRINGUP 0 0 0 s
  else s

/-! ### Faults (R546, R547) -/

/-- ACTIVE of SYS_FAULT. -/
def faultActive (s : State) : Nat := rd SYS_FAULT_ACTIVE 0 s

/-- A cause's ACTIVE clears. -/
def clearCause (b : Nat) (s : State) : State := wr SYS_FAULT_ACTIVE 0 (setBitTo (faultActive s) b false) s

/-- The commands that wait for a state change end ABORTED (R546, R556). -/
def abortWaiting (s : State) : State :=
  let s := { s with host := { s.host with deferredWeave := none } }
  finishWhere (fun c => decide (c.opcode = 0x08 ∨ c.opcode = 0x09 ∨ c.opcode = 0x0B)) 0x17 0 0 s

/-- Picks already launched are abandoned (R9): their cells receive no update. -/
def abandonPicks (s : State) : State :=
  let s := { s with heddle := { s.heddle with
    ports := (List.range 16).foldl (fun m p => m.put {} p { m.get {} p with fifo := [], fifoLen := 0, wait := none }) s.heddle.ports } }
  onTrd (fun t => { t with picks := [] }) s

/-- Every rank is placed in self-refresh without completing its traffic: HELD is set, and what was not yet issued is lost (R546). -/
def selfRefreshNow (s : State) : State := wr DRM_STAT_HELD 0 1 (onDram (fun d => { d with wbs := [], retiring := [], rplBuf := [] }) s)

/-- FAULT is entered (R546): from WEAVING the Treadle stops; for the cause CLOCK launched picks are abandoned and the SDRAM is held;
sources lose permission; calibration runs and commands that wait on a state change end ABORTED. -/
def enterFault (clock : Bool) (s : State) : State :=
  let s := if devState s = stBRINGUP then wr SYS_BRINGUP_FAIL_STEP 0 (rd SYS_BRINGUP_STEP 0 s) s else s
  let s := if weaving s then gaugeSettle (onTrd (fun t => { t with closing := false }) (leaveWeaving s)) else s
  let s := if clock then selfRefreshNow (abandonPicks s) else s
  let s := goState stFAULT (faultActive s) 0 0 (wr SRC_CTL_PERMIT 0 0 s)
  abortWaiting (ancCalResume (calAbortAll s))

/-- A fault cause is set (R547): in HOLD it is only latched (R549). -/
def setCause (b : Nat) (s : State) : State :=
  let s := wr SYS_FAULT_LATCHED 0 (setBitTo (rd SYS_FAULT_LATCHED 0 s) b true) s
  if bitOf (faultActive s) b then s
  else
    let s := wr SYS_FAULT_ACTIVE 0 (setBitTo (faultActive s) b true) s
    let st := devState s
    let s := if st = stFAULT then s else raise 10 s
    if st = stBRINGUP ∨ st = stIDLE ∨ st = stWEAVING then enterFault (b = 0) s else s

/-- The write of SYS_CTL (R539, R546, R547, R556): a core reset under the key, cause FORCED, and FAULT_CLR, which a cause of the same
write outlives. -/
def sysCtlWrite (org : Origin) (v : Qword) (s : State) : State :=
  if bitOf v.toNat 0 ∧ SYS_CTL_KEY.ofQ v = 0xC3 then assertReset false true 4 s
  else
    let force := bitOf v.toNat 2
    let s := if force then setCause 5 s else s
    if bitOf v.toNat 1 then
      let s := if force then s else clearCause 5 s
      if faultActive s ≠ 0 then writeIgnored org (SYS_CTL.off 0) v s
      else if devState s = stFAULT then goState stIDLE 0 0 0 s
      else s
    else s

/-! ### Clocks (R9, R10) -/

/-- A clock loss is shown and raises its event; while WEAVING it sets cause CLOCK. -/
def clockLost (ok lost : Fld) (ev : Nat) (s : State) : State :=
  if s.sys.inReset then s
  else
    let s := raise ev (wr ok 0 0 (wr lost 0 1 s))
    if weaving s then setCause 0 s else s

/-! ### Hold (R404, R549, R262) -/

/-- Every engine stops at once; loom memory and images are lost, and the numbering of R239 applies (R262). A FAILED engine stays so
(R253). -/
def enginesHold (s : State) : State :=
  let s := (List.range 32).foldl (fun s l => onLog l (fun g =>
    { g with pend := [], skipped := 0, dropped := 0, late := false, fresh := false }) (dropTicks l s)) s
  let s := wr SHT_RUN_RUN 0 0 (wr SHT_PEND_START_PENDING 0 0 (wr SHT_SWAP_STAT_WAITING 0 0
    (wr SHT_SWAP_STAT_COPYING 0 0 (wr SHT_IMG_STAT_BUSY 0 0 s))))
  let s := (List.range 34).foldl (fun s e =>
    let st := if engSt e s = eFAILED then eFAILED else if 32 ≤ e then eSPARE_EMPTY
      else if frugal s ∧ 8 ≤ e then eGATED else eSTOPPED
    let s := wr SHT_ENG_STAT_SERVES e (SHT_ENG_STAT_SERVES.rst e) (wr SHT_ENG_STAT_LOG e (SHT_ENG_STAT_LOG.rst e) s)
    wr SHT_ENG_STAT_IMAGE_ID e 0 (setEngSt e st (onEng e emptied s))) s
  let s := { s with sht := { s.sht with swap := none, load := none } }
  let s := finishWhere (fun c => decide (c.opcode = 0x12 ∨ c.opcode = 0x19 ∨ c.opcode = 0x1A)) 0x17 0 0 s
  (List.range 32).foldl (fun s l => noteGot 0x13 l s) s

/-- Whether SDRAM traffic and operations have ended, as HOLD_ENTER waits for (R404, R408): the records of stripes in FLUSHING are traffic
too. -/
def dramQuiet (s : State) : Bool :=
  s.dram.op.isNone && s.spc.flushQ.isEmpty && s.dram.retiring.isEmpty && s.dram.move.isNone && s.dram.rankWait.isEmpty
    && (List.range 8).all (fun r => decide (rd DRM_REGION_CTL_STATE r s ≠ rgFILLING))
    && (List.range 4).all (fun x => decide (bobSt x s ≠ bSAVING ∧ bobSt x s ≠ bRESTORING))

/-- The elastic buffer and pending write-backs are written: the rest of the traffic (R404). -/
def settleWrites (s : State) : State :=
  let s := rplDrain s
  let w := s.dram.wbs
  w.foldl (fun s x => dramPut x.1 x.2 s) (onDram (fun d => { d with wbs := [] }) s)

/-- HOLD is entered (R404, R437, R486, R520, R549): the HOLD_ENTER commands complete. -/
def enterHold (s : State) : State :=
  let s := wr DRM_STAT_HELD 0 1 (if rdB DRM_STAT_HELD 0 s then s else settleWrites s)
  let s := finishWhere (fun c => decide (c.opcode = 0x0B)) 0 0 0 (enginesHold (ancHold s))
  calAbortAll (goState stHOLD 0 0 0 (wr SRC_CTL_PERMIT 0 0 s))

/-- HOLD is left for IDLE (R404): the ranks leave self-refresh, and each takes one drift update, given as steps of 1/64 UI by
4 × channel + rank (R390). -/
def leaveHold (drift : List Int) (s : State) : State :=
  let s := wr DRM_STAT_HELD 0 0 s
  let s := (List.range 8).foldl (fun s k => if rankLive k s then
      driftUpdate k (drift.getD k 0) (setRankRef k { rankRef k s with owed := 0, due := s.now + refi s } s) else s) s
  let s := onDram (fun d => { d with pollDue := s.now + 16000000 }) s
  goState stIDLE 0 0 0 s

/-! ### Weaving (R200, R343, R344) -/

/-- The first failing condition of R344, with the line it names; 0 for none. -/
def weaveRefusal (s : State) : Nat × Nat :=
  if !(rdB TRD_BANK_CFG_VALID (bankOf s) s) then (1, 0)
  else match weaveBad s with
    | j :: _ => (2, j)
    | [] => if 16 * periodOf s < heddleLoad none s then (3, 0) else (0, 0)

/-- WEAVING is entered (R200): the Treadle's start values, an empty grid (R156), and every port's next phase pick its first (R119, R155).
No LO entry is named or counts as sent (R179, R200), and no spurious stamp of the weave is known (R433).
The grid of an earlier weave stays while a pick of it is in flight. Until the first pick is ticked S_max is 0, so that the floor is
SELV_FLOOR, and HDL_GRID.K reads 0: R17 and R173 give neither a value there (DESIGN CHOICE, log entry 97). -/
def enterWeaving (s : State) : State :=
  let s := (List.range 16).foldl (fun s p => wr TRD_PORT_KIND p 0 (wr TRD_PORT_SLOT p 0 (wr TRD_PORT_GZT p 0 s))) (prunePicks s)
  let s := onTrd (fun t => { t with
    weave := t.weave + 1, weaving := true, closing := false, pc := rd TRD_BANK_CFG_ENTRY (bankOf s) s, loops := [], running := false,
    startDue := some s.now, progEnd := none, firstPick := true, lastTick := none, lastSheds := [], set := none, held := [],
    places := [], carried := [], ppsWait := none, loNamed := none, loStarted := false, hostBeat := false }) s
  let s := { s with
    src := { s.src with loSent := none, spurious := [] },
    ports := { s.ports with firstPhase := (List.range 16).foldl (fun m p => m.put false p true) s.ports.firstPhase },
    heddle := { s.heddle with
      grid := s.heddle.grid.filter (fun g => s.trd.picks.any (fun x => x.ports.any (fun y => decide (y.weave = g.weave)))),
      gridK := 0,
      ports := (List.range 16).foldl (fun m p =>
        m.put {} p { m.get {} p with epoch := (m.get {} p).epoch + 1, restartNext := false, drops := 0 }) s.heddle.ports } }
  goState stWEAVING 0 0 0 (gaugeSnap s)

/-- A WEAVE_START that has started acts (R200, R343, R344). -/
def weaveStart (s : State) : State :=
  let r := weaveRefusal s
  if r.1 = 0 then finishWhere (fun c => decide (c.opcode = 0x08)) 0 0 0 (enterWeaving s)
  else finishWhere (fun c => decide (c.opcode = 0x08)) 0x20 r.1 r.2 s

/-- The Treadle stops and launched picks finish (R343). -/
def weaveClose (s : State) : State := onTrd (fun t => { t with closing := true }) (leaveWeaving s)

/-- Launched picks are complete after a WEAVE_STOP: IDLE is entered, WEAVE_STOP completes, and a deferred WEAVE_START executes (R343). What
was staged meanwhile is discarded with the rest (R224); LAUNCH and CODE are low (R419). -/
def weaveStopped (s : State) : State :=
  if s.trd.closing && weaving s && s.trd.picks.all (fun x => x.complete.isSome) then
    let s := onTrd (fun t => { t with closing := false, held := [] }) (discardStaged (gaugeSettle (reedLeave s)))
    let s := finishWhere (fun c => decide (c.opcode = 0x09)) 0 0 0 (goState stIDLE 0 0 0 (gatesLow s))
    match s.host.deferredWeave with
    | none => s
    | some _ => weaveStart { s with host := { s.host with deferredWeave := none } }
  else s

/-! ### Profiles (R342, R550) -/

/-- Whether a profile may be selected: every port and every engine STOPPED or GATED (R342). -/
def profileFree (s : State) : Bool :=
  (List.range 16).all (fun p => portIdle p s)
    && (List.range 32).all (fun l => decide (engSt (physOf l s) s = eSTOPPED ∨ engSt (physOf l s) s = eGATED))

/-- A profile comes into force (R69, R256). -/
def setProfile (v : Nat) (s : State) : State :=
  let s := wr SYS_PROFILE_PROFILE 0 v s
  gateEngines (frugal s) ((List.range 16).foldl (fun s p => gatePort p s) s)

/-- The write of SYS_PROFILE (R550, R577). -/
def profileWrite (org : Origin) (v : Qword) (s : State) : State :=
  if profileFree s then setProfile (SYS_PROFILE_PROFILE.ofQ v) s
  else if SYS_PROFILE_PROFILE.ofQ v = rd SYS_PROFILE_PROFILE 0 s then s
  else writeIgnored org (SYS_PROFILE.off 0) v s

/-! ### Sensors and supplies (R522, R547, R548, R564) -/

/-- The nominal values of the supplies in mV (R564). -/
def supplyNominal (k : Nat) : Nat := [800, 1000, 1100, 1800, 5000].getD k 0

/-- A supply's band of so many percent: its lowest and highest value in mV. -/
def supplyBand (k pct : Nat) : Nat × Nat := (supplyNominal k * (100 - pct) / 100, supplyNominal k * (100 + pct) / 100)

/-- The operating range and the warning band of a supply (R564). -/
def supplyRange (k : Nat) : Nat × Nat := supplyBand k (if k < 3 then 3 else 5)
def supplyWarnBand (k : Nat) : Nat × Nat := supplyBand k (if k < 3 then 2 else 3)

/-- The brown-out level of a supply in mV (R564). -/
def brownOutLevel (k : Nat) : Nat := [700, 880, 970, 1580, 4400].getD k 0

/-- A supply below its brown-out level makes a power-on reset (R538, R565; that the monitor watches all five is log entry 108). -/
def brownOut (s : State) : State := assertReset true false 0 s

/-- Whether a value lies in a band. -/
def inBand (b : Nat × Nat) (mv : Nat) : Bool := decide (b.1 ≤ mv ∧ mv ≤ b.2)

/-- The fault and warning thresholds in 0.01 °C (R562). -/
def tempFault (s : State) : Int := 100 * ((clampN 90 125 (rd SYS_ENV_TEMP_FAULT 0 s) : Nat) : Int)
def tempWarn (s : State) : Int :=
  100 * ((minN (rd SYS_ENV_TEMP_WARN 0 s) (clampN 90 125 (rd SYS_ENV_TEMP_FAULT 0 s) - 5) : Nat) : Int)

/-- The number of the hottest sensor, the lowest of equals. -/
def hottest (t : List Int) : Nat :=
  (List.range t.length).foldl (fun (b : Nat) (i : Nat) => if t.getD b 0 < t.getD i 0 then i else b) 0

/-- The readings of the die sensors act: the brown-out of R538, thresholds of R547 and R548, and the triggers of recalibration (R523). -/
def sensorRead (temps : List Int) (supplies : List Nat) (s : State) : State :=
  if (List.range 5).any (fun i => decide (supplies.getD i 0 < brownOutLevel i)) then brownOut s else
  let s := onSys (fun x => { x with temps := temps, supplies := supplies }) s
  let k := hottest temps
  let t := temps.getD k 0
  let ok := (List.range 5).filter (fun i => inBand (supplyRange i) (supplies.getD i 0))
  let s := wrZ SYS_ENV_TEMP_MAX 0 t (wr SYS_ENV_SUPPLY_OK 0 (sumN (ok.map (fun i => 2 ^ i))) s)
  let run := if tempFault s ≤ t then s.sys.hotRun + 1 else 0
  let s := onSys (fun x => { x with hotRun := run }) s
  let s := if 3 ≤ run then setCause 1 s else if t < tempFault s - 1000 then clearCause 1 s else s
  let s := if tempWarn s ≤ t then
      if s.sys.tempWarned then s
      else eventRecord 0x61 12 (place 1 8 1 + k) (rd SYS_PICK_NUM_NUM 0 s) (ux 48 t) (ux 48 (tempWarn s))
        (raise 12 (onSys (fun x => { x with tempWarned := true }) s))
    else if t ≤ tempWarn s - 500 then onSys (fun x => { x with tempWarned := false }) s else s
  calTriggers s

/-- A supply has had a value in mV for 1 ms: outside its operating range that is a fault (R547), below its brown-out level a reset
(R538). -/
def supplyFault (k mv : Nat) (s : State) : State :=
  if mv < brownOutLevel k then brownOut s else if inBand (supplyRange k) mv then s else
  let s := onSys (fun x => { x with supplyOut := setBitTo x.supplyOut k true }) s
  setCause 2 (wr SYS_ENV_SUPPLY_OK 0 (setBitTo (rd SYS_ENV_SUPPLY_OK 0 s) k false) s)

/-- Every supply has been in range for 100 ms (R547). -/
def supplyRecover (s : State) : State :=
  clearCause 2 (wr SYS_ENV_SUPPLY_OK 0 31 (onSys (fun x => { x with supplyOut := 0 }) s))

/-- A supply's value against its warning band: leaving it is reported once for each excursion (R548); below the brown-out level it is a
reset (R538). -/
def supplyWarn (k mv : Nat) (s : State) : State :=
  let b := supplyWarnBand k
  if mv < brownOutLevel k then brownOut s
  else if inBand b mv then onSys (fun x => { x with supplyWarn := setBitTo x.supplyWarn k false }) s
  else if bitOf s.sys.supplyWarn k then s
  else
    eventRecord 0x61 13 k (rd SYS_PICK_NUM_NUM 0 s) mv (if mv < b.1 then b.1 else b.2)
      (raise 13 (onSys (fun x => { x with supplyWarn := setBitTo x.supplyWarn k true }) s))

/-! ### Bring-up (R542 to R544) -/

/-- The step in progress. -/
def bringStep (s : State) : Nat := rd SYS_BRINGUP_STEP 0 s

/-- The next step begins. -/
def toStep (n : Nat) (s : State) : State := wr SYS_BRINGUP_STEP 0 n s

/-- A weak word of the fill takes the next spare row of its bank: its row, where a row holds it, is mapped onto that (R305). -/
def fillRepair (bank : Nat) (row : Option Nat) (s : State) : State :=
  let n := s.warp.sparesUsed.get 0 bank + 1
  let s := { s with warp := { s.warp with sparesUsed := s.warp.sparesUsed.put 0 bank n } }
  let s := match row with
    | some r => { s with warp := { s.warp with
        rowMap := s.warp.rowMap.put 0 (rowKey bank r) n, lastRow := s.warp.lastRow.put 0 bank r } }
    | none => s
  raise 116 (bump WRP_CNT2_REPAIRS 0 s)

/-- A word of the fill: where it stands in the store, and its bank. From 0x180_0000 on, the words are those of the spare rows: one in use
is the row that is mapped onto it. -/
def fillWord (x : Nat) (s : State) : Option Nat × Nat :=
  let a := if x < warpWords then some x else warpUnplace x s
  (a, match a with
    | some a => bankOfQuad (a / 4)
    | none => (x - warpWords) / 2048 % 128)

/-- A word that does not read back bare at the fill is weak, and is repaired at once; the answer says whether its bank had a spare row
(R306, R307, R543). -/
def fillWeak (acc : Bool × State) (x : Nat) : Bool × State :=
  let s := bump WRP_CNT2_WEAK 0 (raise 115 acc.2)
  let (a, bank) := fillWord x s
  let noSpare := match a with
    | some a => noSpareNotice a s
    | none => s
  if 8 ≤ s.warp.sparesUsed.get 0 bank then (false, noSpare)
  else if rdB WRP_CTL_AUTO_REPAIR 0 s then (acc.1, fillRepair bank (a.map (fun a => rowOfQuad (a / 4))) s)
  else (acc.1, noSpare)

/-- The fill of bring-up (R307): every word of the Warp store, those that queue items hold among them, is bare, and every loom word and
instruction of the engines; an armed injection is applied (R311). It acts at the step's end (DESIGN CHOICE, log entry 109). The answer
names the word with the injection. -/
def storeWipe (s : State) : Option Nat × State :=
  let s := { s with
    warp := { s.warp with words := [], pool := [], wbs := [] },
    queues := s.queues.map (fun e => (e.1, { e.2 with items := e.2.items.map (fun it => { it with word := bareWord }) })) }
  let s := (List.range 34).foldl (fun s e => onEng e (fun x => { x with loom := [], istore := [] }) s) s
  let w := rd WRP_INJ_ADDR_WORD 0 s
  if rdB WRP_INJ_ADDR_ARM 0 s && decide (w < warpWords) then (some w, injectPut w bareWord s) else (none, s)

/-- Whether a word reads back bare. -/
def readsBare (r : WRead) : Bool :=
  match r with
  | .clean _ => false
  | .corrected _ => false
  | .bare => true
  | .bareUpset => true
  | .bad => false

/-- The word with the injection is read back, with the accounting of every read (R300): it is weak where it does not read bare. -/
def wipeWeak (w : Option Nat) (s : State) : List Nat × State :=
  match w with
  | none => ([], s)
  | some a =>
    let (r, s) := warpFetch reqTSL a s
    (if readsBare r then [] else [a], s)

/-- How a weak word of the fill reads back is not given: clean, corrected or uncorrectable, with the accounting of that (R300; log entry
1). -/
def weakReads (x : Nat) (s : State) : State :=
  let (k, s) := drawBelow 3 s
  if k = 1 then bankCount (fillWord x s).2 (bump WRP_CNT_CORR 0 s) else if k = 2 then warpUe reqTSL x s else s

/-- The fill is verified: the words that do not read back bare are weak, and are repaired; the answer says whether each had a spare row
(R307, R543). -/
def fillVerify (weak : List Nat) (t : Option Nat × State) : Bool × State :=
  let r := wipeWeak t.1 (weak.foldl (fun s x => weakReads x s) t.2)
  (weak ++ r.1).foldl fillWeak (true, r.2)

/-- What an SPD read gives (R385). -/
def spdGiven (x : SpdRead) : Option Spd :=
  match x with
  | .absent => none
  | .present known ranks density gib trfc => spdOf true known ranks density gib trfc

/-- A channel that serves is trained with the given narrowest eyes (R389). -/
def trainServing (c eyeR eyeW : Nat) (s : State) : State :=
  if chState c s = chSERVING then (trainResult c eyeR eyeW s).2 else s

/-- Step 0101: SPD read and training; the ranks leave self-refresh after a hold (R404, R544), and the serving channels are placed. -/
def memoryStep (a b : SpdRead) (eyes : List Nat) (s : State) : State :=
  let s := dramPopulate (spdGiven a) (spdGiven b) s
  let s := trainServing 1 (eyes.getD 2 0) (eyes.getD 3 0) (trainServing 0 (eyes.getD 0 0) (eyes.getD 1 0) s)
  let s := placeHome (wr DRM_STAT_HELD 0 0 s)
  let s := onDram (fun d => { d with pollDue := s.now + 16000000, patrolAt := s.now }) s
  if chState 0 s = chSERVING ∨ chState 1 s = chSERVING then toStep 6 s else setCause 4 s

/-- Bring-up ends in IDLE (R542). -/
def bringupDone (s : State) : State :=
  let us := satU 24 (s.now / ccUs)
  let s := wr SYS_BRINGUP_TIME_US 0 us (toStep 8 s)
  let mask := sumN ((List.range 5).map (fun i => rd (causeFlds.getD i SYS_RESET_POR) 0 s * 2 ^ i))
  raise 11 (goState stIDLE 0 us mask s)

/-- A bring-up step ends after `cc` core cycles, with what the step found (R542 to R544, R526): an outcome of another step than the one
in progress, or a list of measurements that leaves an object out, is none. -/
def bringupStep (cc : Nat) (o : BringStep) (s : State) : State :=
  if devState s ≠ stBRINGUP then s
  else
    let n := bringStep s
    let t := advanceTo (s.now + cc) s
    match o with
    | .lock =>
      if n = 1 then toStep (if rdB SYS_STRAP_NOFLASH 0 s then 3 else 2)
        (wr SYS_ENV_SUPPLY_OK 0 31 (wr SYS_CLK_STAT_PLL_LOCK 0 1 (wr SYS_CLK_STAT_SREF_OK 0 1 t))) else s
    | .flash a b => if n = 2 then toStep 3 (flashApply (a.map (·.toNat)) (b.map (·.toNat)) t) else s
    | .selfTest ok => if n = 3 then (if ok then toStep 4 (wr WRP_STAT_SELFTEST_OK 0 1 t) else setCause 3 t) else s
    | .storeFill weak =>
      if n = 4 then
        let given := weak.map (fun a => if a.toNat < warpWords + 0x40000 then a.toNat else a.toNat % warpWords)
        let r := fillVerify given (storeWipe t)
        if r.1 then toStep 5 r.2 else setCause 3 r.2
      else s
    | .memory a b eyes => if n = 5 then memoryStep a b (eyes.map (·.val)) t else s
    | .regions => if n = 6 then bootPairs (toStep 7 (onSys (fun x => { x with hold := false }) (bringupFill s.sys.hold t))) else s
    | .calibration ms bufs =>
      if n = 7 ∧ bringupMeasOk ms s then bringupDone (advanceTo (s.now + cc) (bringupCal ms bufs s)) else s

/-- The PLL has not locked 10 ms after the release (R543). -/
def pllTimeout (s : State) : State :=
  if devState s = stBRINGUP ∧ bringStep s = 1 then setCause 0 (advanceTo (10 * ccMs) s) else s

/-! ### The commands of this chapter -/

/-- SREF_LOSS. -/
def execSrefLoss (s : State) : Res := .next (clockLost SYS_CLK_STAT_SREF_OK SYS_CLK_STAT_SREF_LOST 1 s)

/-- PLL_UNLOCK. -/
def execPllUnlock (s : State) : Res := .next (clockLost SYS_CLK_STAT_PLL_LOCK SYS_CLK_STAT_PLL_UNLOCKED 0 s)

/-- SREF_RETURN. -/
def execSrefReturn (s : State) : Res := .next (wr SYS_CLK_STAT_SREF_OK 0 1 s)

/-- PLL_RELOCK. -/
def execPllRelock (s : State) : Res := .next (wr SYS_CLK_STAT_PLL_LOCK 0 1 s)

/-- POWER_ON_RESET. -/
def execPowerOnReset (s : State) : Res := .next (assertReset true false 0 s)

/-- BROWN_OUT: a power-on reset (R538, R565). -/
def execBrownOut (s : State) : Res := .next (brownOut s)

/-- PERST_N. -/
def execPerstN (s : State) : Res := .next (assertReset true false 1 s)

/-- RST_N. -/
def execRstN (s : State) : Res := .next (assertReset false false 2 s)

/-- FLR. -/
def execFlr (s : State) : Res := .next (assertReset false true 3 s)

/-- CORE_RST: a SYS_CTL write with the key and CORE_RST = 1. -/
def execCoreRst (s : State) : Res :=
  if s.sys.inReset then .next s else
  .next (sysCtlWrite .pcie 0xC301#64 s)

/-- RESET_RELEASE; the straps as their pins then stand. -/
def execResetRelease (pcie : Fin 4) (noflash : Bool) (s : State) : Res := .next (resetRelease pcie noflash s)

/-- BRINGUP_STEP_END. -/
def execBringupStepEnd (cc : Nat) (o : BringStep) (s : State) : Res := .next (bringupStep cc o s)

/-- PLL_LOCK_TIMEOUT. -/
def execPllLockTimeout (s : State) : Res := .next (pllTimeout s)

/-- FAULT_CLR: a SYS_CTL write with FAULT_CLR = 1. -/
def execFaultClr (s : State) : Res :=
  if s.sys.inReset then .next s else
  .next (sysCtlWrite .pcie 2#64 s)

/-- FAULT_FORCE: a SYS_CTL write with FAULT_FORCE = 1. -/
def execFaultForce (s : State) : Res :=
  if s.sys.inReset then .next s else
  .next (sysCtlWrite .pcie 4#64 s)

/-- SENSOR_READ: the die sensors in 0.01 °C, and the supplies in mV at the same moment. -/
def execSensorRead (t0 t1 t2 t3 : BitVec 16) (v0 v1 v2 v3 v4 : BitVec 16) (s : State) : Res :=
  if s.sys.inReset then .next s
  else
    let s := advanceTo ((s.now / (10 * ccMs) + 1) * (10 * ccMs)) s
    .next (sensorRead [t0.toInt, t1.toInt, t2.toInt, t3.toInt] [v0.toNat, v1.toNat, v2.toNat, v3.toNat, v4.toNat] s)

/-- SUPPLY_FAULT: a supply and its value in mV. -/
def execSupplyFault (k : Fin 5 × BitVec 16) (s : State) : Res :=
  .next (if s.sys.inReset then s else supplyFault k.1 k.2.toNat s)

/-- SUPPLY_RECOVER. -/
def execSupplyRecover (s : State) : Res := .next (if s.sys.inReset then s else supplyRecover s)

/-- SUPPLY_WARN: a supply's value in mV. -/
def execSupplyWarn (k : Fin 5) (mv : BitVec 16) (s : State) : Res :=
  .next (if s.sys.inReset then s else supplyWarn k mv.toNat s)

/-- SYS_PROFILE_WRITE. -/
def execSysProfileWrite (v : BitVec 64) (s : State) : Res :=
  if s.sys.inReset then .next s else
  .next (profileWrite .pcie v s)

/-- WEAVE_STOP_COMPLETE. -/
def execWeaveStopComplete (s : State) : Res := .next (weaveStopped s)

/-- HOLD_ENTER_COMPLETE: a HOLD_ENTER waits, and traffic and operations have ended. -/
def execHoldEnterComplete (s : State) : Res :=
  .next (if s.host.cmds.any (fun c => decide (c.opcode = 0x0B ∧ c.phase = .running)) && dramQuiet s
      && decide (devState s = stIDLE ∨ devState s = stFAULT) then enterHold s else s)

/-- What IDCODE reads (R571): version 1 on A1, 0 on A0. -/
def idcode (s : State) : BitVec 32 := if rd SYS_ID_STEP_MINOR 0 s = 1 then 0x14816C6B#32 else 0x04816C6B#32

/-- TAP_INSTRUCTION_LOAD: the instruction, and what SAMPLE/PRELOAD preloads the boundary cells with. EXTEST, HIGHZ and CLAMP hold the device in
core reset and make the cells drive; SYS_RESET's cause for it is not stated (R571; log entry 114). -/
def execTapInstructionLoad (i : TapInstr × BitVec 49) (s : State) : Res :=
  let s := onSys (fun x => { x with tap := i.1, cells := if i.1 = .sample then i.2 else x.cells }) s
  if tapHolds s then
    let (c, s) := drawBelow 5 s
    .next (tapPins (assertReset false false c s))
  else .next (if i.1 = .idcode then emit (.idcode (idcode s)) s else s)

end Sys2Proof.Machine
end

