-- ==== Sys2Proof/Machine/Bus.lean ====
section
/-!
DEFINITION. Accesses from outside: the 64-bit reads and writes of BAR0 (R1 to R4, R577, R578), the answers to other accesses of
BAR0 and of BAR2 (R334, R335), the MSI-X structures, and the frames of the management port (R351). A register whose write does
more than R3 says has its own line below; every other one takes the write field by field.
-/

set_option autoImplicit false

namespace Sys2Proof.Machine

/-- The register and the instance at an offset of BAR0. -/
def regAt (off : Nat) : Option (Reg × Nat) := regTable.findSome? (fun r => (r.instAt off).map (fun i => (r, i)))

/-! ### Reads -/

/-- What is put together at a read for a register, beside the fields it stores. -/
def regOverlay (b i : Nat) (s : State) : Nat :=
  if b = TRD_STAT.base then
    place s.trd.pc 36 12 + place s.trd.loops.length 34 2 + place (b2n s.trd.ppsWait.isSome) 33 1
      + place (b2n s.trd.swapStaged) 32 1
      + (match s.trd.set with
        | some c => place (if c.prepared then 2 else 1) 30 2 + place c.tries 25 5
        | none => 0)
  else if b = TRD_FLAGS.base then place s.trd.flags 0 16
  else if b = TRD_DRAFT_DATA.base then draftAt (rd TRD_DRAFT_ADDR_BANK 0 s) (rd TRD_DRAFT_ADDR_ADDR 0 s) s
  else if b = PRT_GZ_DATA.base then prtGzShow i s
  else if b = RED_LOAD_DATA.base then redLoadShow s
  else if b = RED_SLOT_INFO.base then redSlotInfo i s
  else if b = GAU_LINE_DATA.base then gauLineData s
  else if b = GAU_STAT.base then gauStatShow i s
  else if b = HDL_STAT.base then
    place (heddleLoad none s) 24 23 + place (b2n (decide (heddleLoad none s ≤ 16 * periodOf s))) 0 1
  else if b = HDL_GRID.base then place s.heddle.gridK 0 48
  else if b = SPC_STAT.base then sumN ((List.range 16).map (fun p => place (areaOf p s).state (2 * p) 2))
  else if b = SPC_LO_DATA.base then spcLoShow s
  else if b = SPC_LINE_SPAN.base then spcLineShow 0 s
  else if b = SPC_LINE_SHAPE.base then spcLineShow 1 s
  else if b = SPC_LINE_STRIPE.base then spcLineShow 2 s
  else if b = SPC_LO_STAT.base then
    (match s.spc.strobeAt with
    | some t => place (b2n (decide (256 * t + loSettle s ≤ 256 * s.now))) 6 1
    | none => 0)
  else if b = SHT_LOG_DATA.base then logDataShow s
  else if b = SHT_ENG_DBG.base then place (engOf i s).pc 34 14 + place (engOf i s).faultPc 18 14
  else if b = WRP_BANK_DATA.base then
    let k := rd WRP_BANK_ADDR_BANK 0 s
    place (s.warp.bankCorr.get 0 k) 32 16 + place (s.warp.lastRow.get 0 k) 16 10 + place (sparesLeft k s) 0 4
  else if b = WRP_STAT.base then place (b2n (storeFilling s && !(rdB WRP_STAT_FILL_BUSY 0 s))) 4 1
  else if b = WFQ_POOL_STAT.base then place (poolFree s) 22 22 + place (freeUnres s).toNat 0 22
  else if b = WFQ_STAT.base then
    place (qCount i s) 26 22 + place (b2n (ringBound i s)) 1 1 + place (b2n (decide (qRoom i s = 0))) 0 1
  else if b = SRC_STAT.base then
    sumN ((List.range 8).map (fun c => place (b2n (chanFault c s)) (8 + c) 1)) + place (b2n (presetHeld s)) 4 1
      + place (b2n s.src.bus.isSome) 3 1 + place (b2n s.src.intlkLow) 0 1
  else if b = SRC_LINE_DATA.base then swShow (2 * rd SRC_LINE_ADDR_LINE 0 s + rd SRC_LINE_ADDR_WORD 0 s) s
  else if b = TSU_STAT.base then place (b2n (calRuns 1 s)) 37 1
  else if b = TSU_MAP_DATA.base then tsuMapShow s
  else if b = ANC_TBL_DATA.base then ancTblShow s
  else if b = CAL_STAT.base then calStatShow s
  else if b = CAL_OBJ_DATA.base then calObjShow s
  else if b = EVT_VEC.base then sumN ((List.range 32).map (fun v => place (b2n (summary v s)) v 1))
  else if b = HST_STAT.base then
    place (if weaving s then (if s.trd.closing then 2 else 1) else 0) 20 2 + place (b2n (cplFull s)) 17 1
      + place s.host.cmds.length 0 9
  else if b = HST_CPL_TAIL.base then place (b2n s.host.phase) 16 1
  else if b = SYS_TIME_LO.base then s.tod.latchedLo
  else 0

/-- What a register shows, without the effects of reading it. -/
def regLook (r : Reg) (i : Nat) (s : State) : Nat := regShow r i s + regOverlay r.base i s

/-- The effects of a read beside RC fields: data windows advance (R578). -/
def readEffect (org : Origin) (b i : Nat) (s : State) : State :=
  if b = TRD_DRAFT_DATA.base then draftData org none s
  else if b = PRT_GZ_DATA.base then prtGzData org i none s
  else if b = RED_LOAD_DATA.base then redLoadData org none s
  else if b = SPC_LO_DATA.base then spcLoData none s
  else if b = SHT_LOG_DATA.base then logData org none s
  else if b = SRC_LINE_DATA.base then srcLineData org none s
  else if b = TSU_MAP_DATA.base then tsuMapData org none s
  else if b = ANC_TBL_DATA.base then ancTblData org none s
  else if b = WRP_BANK_DATA.base then
    { s with warp := { s.warp with bankCorr := s.warp.bankCorr.put 0 (rd WRP_BANK_ADDR_BANK 0 s) 0 } }
  else s

/-- A read of a register. While a migration runs, how far it has come is not given, so DONE reads as a free count up to TOTAL. -/
def regRead (org : Origin) (r : Reg) (i : Nat) (s : State) : Nat × State :=
  if r.base = WFQ_HPOP.base then wfqHpop org s
  else if r.base = SYS_TIME_HI.base then timeHiRead s
  else if r.base = DRM_MIG_STAT.base ∧ s.dram.op.isSome = true then
    let was := rd DRM_MIG_STAT_DONE 0 s
    let (n, s) := drawBelow (rd DRM_MIG_STAT_TOTAL 0 s - was + 1) s
    let s := wr DRM_MIG_STAT_DONE 0 (was + n) s
    (regLook r i s, s)
  else (regLook r i s, readEffect org r.base i (regClearRc r i s))

/-! ### MSI-X structures (R331, R334, R349) -/

/-- Whether an offset lies in the MSI-X table or the pending-bit array: 32 entries of 16 bytes, and one qword. -/
def inMsix (off : Nat) : Bool := decide ((0x6000 ≤ off ∧ off < 0x6200) ∨ (0x7000 ≤ off ∧ off < 0x7008))

/-- The pending-bit array. -/
def pbaShow (s : State) : Nat := sumN ((List.range 32).map (fun v => place (b2n (msixOf v s).pend) v 1))

/-- One aligned doubleword of the two structures. -/
def msixDword (off : Nat) (s : State) : Nat :=
  if 0x7000 ≤ off then (if off = 0x7000 then pbaShow s else 0)
  else
    let m := msixOf ((off - 0x6000) / 16) s
    match (off - 0x6000) % 16 / 4 with
    | 0 => m.addr % 2 ^ 32
    | 1 => m.addr / 2 ^ 32
    | 2 => m.data
    | _ => m.ctrl

/-- A write of one aligned doubleword: the pending bits are read only; clearing a Mask bit lets a pending vector send. -/
def msixPut (off d : Nat) (s : State) : State :=
  if 0x7000 ≤ off then s
  else
    let v := (off - 0x6000) / 16
    let m := msixOf v s
    let m := match (off - 0x6000) % 16 / 4 with
      | 0 => { m with addr := m.addr / 2 ^ 32 * 2 ^ 32 + d / 4 % 2 ^ 30 * 4 }
      | 1 => { m with addr := m.addr % 2 ^ 32 + d % 2 ^ 32 * 2 ^ 32 }
      | 2 => { m with data := d % 2 ^ 32 }
      | _ => { m with ctrl := d % 2 }
    sendPending v (setMsix v m s)

/-! ### Writes (R3, R577) -/

/-- The fields of TSU_IN that a write of one input leaves alone (R466): EN and EDGE of inputs 0 to 16, and of a port's input DELAY while
the port is neither STOPPED nor GATED, which is logged. -/
def tsuInWrite (org : Origin) (i : Nat) (v : Qword) (s : State) : State :=
  let locked := if i < 16 ∧ portIdle i s = false then [TSU_IN_DELAY] else []
  let t := guardedWrite org TSU_IN i locked v s
  if i ≤ 16 then wr TSU_IN_EN i (rd TSU_IN_EN i s) (wr TSU_IN_EDGE i (rd TSU_IN_EDGE i s) t) else t

/-- The write of CNV_CORR or CNV_RATIO (R54, R80, R524): in force at the port's next shed-free edge; at once for a converter that serves
no port (DESIGN CHOICE, log entry 101). What is written while a pair runs goes with the pair's end, and is no value of the record (R62,
R530). -/
def cnvWrite (r : Reg) (j : Nat) (v : Qword) (s : State) : State :=
  let s := regWrite r j v s
  let s := if (pairOf 0 j s).isSome then s else setCalRec 0 j { calRec 0 j s with source := 3 } s
  if (slotOfConv j s).isNone then convEnforce j s else s

/-- The write of SPC_COEF_BASE (R197): only outside WEAVING, and only an address of a coefficient area; one that
is no multiple of 16 is ignored and logged too (DESIGN CHOICE, log entry 106). -/
def coefBaseWrite (org : Origin) (v : Qword) (s : State) : State :=
  let a := SPC_COEF_BASE_COEF_BASE.ofQ v
  if weaving s ∨ a < 0x1600000 ∨ 0x17FF800 < a ∨ a % 16 ≠ 0 then writeIgnored org (SPC_COEF_BASE.off 0) v s
  else regWrite SPC_COEF_BASE 0 v s

/-- A write that is ignored as a whole under a condition. -/
def writeUnless (bad : Bool) (org : Origin) (r : Reg) (i : Nat) (v : Qword) (s : State) : State :=
  if bad then writeIgnored org (r.off i) v s else regWrite r i v s

/-- The registers of SYS, HST, TRD, PRT and CNV whose writes do more than R3 says. -/
def writeA (org : Origin) (b i : Nat) (v : Qword) (s : State) : Option State :=
  if b = SYS_CTL.base then some (sysCtlWrite org v s)
  else if b = SYS_PROFILE.base then some (profileWrite org v s)
  else if b = SYS_PICK_PERIOD.base then some (stageReg SYS_PICK_PERIOD 0 v s)
  else if b = SYS_PICK_LIM.base then some (stageReg SYS_PICK_LIM 0 v s)
  else if b = SYS_LINE_SHED.base then some (stageReg SYS_LINE_SHED i v s)
  else if b = SYS_TOD_SET.base then some (todSetWrite v s)
  else if b = SYS_DISC_CTL.base then some (discCtlWrite v s)
  else if b = HST_CTL.base then some (hstCtlWrite org v s)
  else if b = HST_CMD_BASE.base then
    some (guardedWrite org HST_CMD_BASE 0 (if rdB HST_CTL_CMD_EN 0 s then [HST_CMD_BASE_CMD_BASE] else []) v s)
  else if b = HST_CPL_BASE.base then
    some (guardedWrite org HST_CPL_BASE 0 (if rdB HST_CTL_CPL_EN 0 s then [HST_CPL_BASE_CPL_BASE] else []) v s)
  else if b = HST_CMD_TAIL.base then some (cmdTailWrite org v s)
  else if b = HST_CPL_HEAD.base then some (cplHeadWrite org v s)
  else if b = HST_MBX_CTL.base then some (mbxCtlWrite org v s)
  else if b = TRD_CTL.base then some (trdCtlWrite org v s)
  else if b = TRD_DRAFT_DATA.base then some (draftData org (some v) s)
  else if b = TRD_BANK_CFG.base then some (bankCfgWrite org i v s)
  else if b = TRD_FLAG_SET.base then some (flagSet v s)
  else if b = TRD_PORT.base then some (trdPortWrite i v s)
  else if b = PRT_CTL.base then some (prtCtlWrite org i v s)
  else if b = PRT_GZ_DATA.base then some (prtGzData org i (some v) s)
  else if b = CNV_CORR.base then some (cnvWrite CNV_CORR i v s)
  else if b = CNV_RATIO.base then some (cnvWrite CNV_RATIO i v s)
  else if b = CNV_GRP_CTL.base then some (cnvGrpCtlWrite org i v s)
  else none

/-- The registers of RED, GAU, HDL, SPC and SHT whose writes do more than R3 says. -/
def writeB (org : Origin) (b i : Nat) (v : Qword) (s : State) : Option State :=
  if b = RED_LOAD_DATA.base then some (redLoadData org (some v) s)
  else if b = RED_SLOT_CFG.base then some (redSlotCfgWrite org v s)
  else if b = RED_SLOT_CTL.base then some (redSlotCtlWrite org v s)
  else if b = RED_PORT_CFG.base then some (stageReg RED_PORT_CFG i v s)
  else if b = GAU_NG.base then some (regWrite GAU_NG 0 v s)
  else if b = GAU_BRK_CTL.base then some (gauLatchWrite GAU_BRK_CTL v s)
  else if b = GAU_LINE_DATA.base then some (gauLineWrite v s)
  else if b = GAU_SPAN.base then some (gauStructWrite org GAU_SPAN i v s)
  else if b = GAU_SHAPE.base then some (gauStructWrite org GAU_SHAPE i v s)
  else if b = GAU_REF.base then some (gauRefWrite org i v s)
  else if b = HDL_CTL.base then some (guardedWrite org HDL_CTL 0 (if weaving s then HDL_CTL.fields else []) v s)
  else if b = HDL_PORT_CFG.base then some (stageReg HDL_PORT_CFG i v s)
  else if b = HDL_ALIGN.base then some (guardedWrite org HDL_ALIGN i (if portIdle i s then [] else HDL_ALIGN.fields) v s)
  else if b = SPC_CTL.base then some (writeUnless (weaving s) org SPC_CTL 0 v s)
  else if b = SPC_REC_BASE.base then some (writeUnless (weaving s) org SPC_REC_BASE 0 v s)
  else if b = SPC_COEF_BASE.base then some (coefBaseWrite org v s)
  else if b = SPC_LO_DATA.base then some (spcLoData (some v) s)
  else if b = SPC_LINE_SPAN.base then some (spcLineWrite org 0 v s)
  else if b = SPC_LINE_SHAPE.base then some (spcLineWrite org 1 v s)
  else if b = SPC_LINE_STRIPE.base then some (spcLineWrite org 2 v s)
  else if b = SHT_RUN.base then some (shtRunWrite org v s)
  else if b = SHT_LOG_DATA.base then some (logData org (some v) s)
  else if b = SHT_IMG_CTL.base then some (imgCtlWrite org v s)
  else if b = SHT_SWAP.base then some (shtSwapWrite org v s)
  else none

/-- The registers of WRP, WFQ, DRM and SRC whose writes do more than R3 says. A restore asked for by a plain register write finds the
module that was read last. -/
def writeC (org : Origin) (b i : Nat) (v : Qword) (s : State) : Option State :=
  if b = WRP_FILL_CTL.base then some (fillCtlWrite org v s)
  else if b = WFQ_HPUSH.base then some (wfqHpush org v s)
  else if b = WFQ_FLUSH.base then some (wfqFlushWrite org v s)
  else if b = WFQ_CFG.base then some (wfqCfgWrite org i v s)
  else if b = DRM_ACT.base then some (drmActWrite org v (s.dram.spd.get none (v.toNat % 2)) s)
  else if b = DRM_REGION.base then some (drmRegionWrite org i v s)
  else if b = DRM_REGION_CTL.base then some (drmRegionCtlWrite org i v s)
  else if b = DRM_RPL.base then some (drmRplWrite org i v s)
  else if b = DRM_RPL_RING.base then some (drmRplRingWrite org i v s)
  else if b = SRC_CTL.base then some (srcCtlWrite org v s)
  else if b = SRC_LINE_DATA.base then some (srcLineData org (some v) s)
  else if b = SRC_LAUNCH.base then some (srcLaunchWrite org i v s)
  else if b = SRC_CUR.base then some (srcCurWrite i v s)
  else if b = SRC_CUR_MODE.base then some (srcCurModeWrite org i v s)
  else none

/-- The registers of TSU, ANC, BOB, CAL and EVT whose writes do more than R3 says. -/
def writeD (org : Origin) (b i : Nat) (v : Qword) (s : State) : Option State :=
  if b = TSU_MAP_DATA.base then some (tsuMapData org (some v) s)
  else if b = TSU_IN.base then some (tsuInWrite org i v s)
  else if b = TSU_GATE.base then some (tsuGateWrite i v s)
  else if b = ANC_CTL.base then some (ancCtlWrite v s)
  else if b = ANC_CELL_BASE.base then some (ancCellBaseWrite org v s)
  else if b = ANC_TBL_DATA.base then some (ancTblData org (some v) s)
  else if b = BOB_SAVE_BASE.base then some (bobSaveBaseWrite org v s)
  else if b = BOB_CTX_CFG.base then some (bobCfgWrite org BOB_CTX_CFG i v s)
  else if b = BOB_CTX_SHAPE.base then some (bobCfgWrite org BOB_CTX_SHAPE i v s)
  else if b = BOB_CTX_HIST.base then some (bobCfgWrite org BOB_CTX_HIST i v s)
  else if b = BOB_CTX_CTL.base then some (bobCommand org i v s)
  else if b = CAL_CTL.base then some (calCtlWrite org v s)
  else if b = CAL_REF.base then some (calRefWrite v s)
  else if b = CAL_REPL.base then some (calReplWrite org v s)
  else if b = EVT_RAW.base then some (evtRawWrite i v s)
  else if b = EVT_EN.base then some (evtMapWrite EVT_EN i v s)
  else if b = EVT_MAP.base then some (evtMapWrite EVT_MAP i v s)
  else none

/-- The write of a register. -/
def regStore (org : Origin) (r : Reg) (i : Nat) (v : Qword) (s : State) : State :=
  match writeA org r.base i v s with
  | some t => t
  | none => match writeB org r.base i v s with
    | some t => t
    | none => match writeC org r.base i v s with
      | some t => t
      | none => match writeD org r.base i v s with
        | some t => t
        | none => regWrite r i v s

/-! ### 64-bit accesses -/

/-- A 64-bit read at an offset that is a multiple of 8: its value and what it does. Where no register lies it reads zero (R2), and in
RESET nothing answers (R540). -/
def busRead (org : Origin) (off : Nat) (s : State) : Nat × State :=
  if s.sys.inReset then (0, s)
  else if inMsix off then (msixDword off s + msixDword (off + 4) s * 2 ^ 32, s)
  else match regAt off with
    | some (r, i) => regRead org r i s
    | none => (0, s)

/-- A 64-bit write at an offset that is a multiple of 8. Where no register lies it has no effect (R2). -/
def busWrite (org : Origin) (off : Nat) (v : Qword) (s : State) : State :=
  if s.sys.inReset then s
  else if inMsix off then msixPut (off + 4) (v.toNat / 2 ^ 32) (msixPut off (v.toNat % 2 ^ 32) s)
  else match regAt off with
    | some (r, i) => regStore org r i v s
    | none => s

/-- The data registers whose accesses advance an address (R578). -/
def windowBases : List Nat :=
  [TRD_DRAFT_DATA.base, PRT_GZ_DATA.base, RED_LOAD_DATA.base, SPC_LO_DATA.base, SHT_LOG_DATA.base, SRC_LINE_DATA.base,
   TSU_MAP_DATA.base, ANC_TBL_DATA.base]

/-- A read and write in one access (R341): the old value and the state. A data window is accessed once. -/
def busRmw (org : Origin) (off : Nat) (mask value : Qword) (s : State) : Nat × State :=
  let (old, t) := busRead org off s
  let t := match regAt off with
    | some (r, _) => if windowBases.contains r.base then s else t
    | none => t
  (old, busWrite org off ((BitVec.ofNat 64 old &&& ~~~mask) ||| (value &&& mask)) t)

/-! ### Other accesses of BAR0 and BAR2 (R334, R335) -/

/-- A BAD_ACCESS entry: the space (0 BAR0, 2 BAR2, 0xFF management port), the length and the byte offset (R376). -/
def badAccess (blk : Nat) (org : Origin) (space len off : Nat) (s : State) : State :=
  violate blk 0x05 org (space * 256 + len % 256) off 0 s

/-- A request is completed as Unsupported Request, which AER reports (R331, R334). -/
def unsupportedRequest (s : State) : State := aerReport aerUnsupported (emit .unsupported s)

/-- A write that reaches the data register of a window without being a 64-bit write is discarded and advances the address (R578). -/
def dataAdvance (off : Nat) (s : State) : State :=
  match regAt off with
  | none => s
  | some (r, i) =>
    if r.base = TRD_DRAFT_DATA.base then draftAdvance s
    else if r.base = PRT_GZ_DATA.base then prtGzAdvance i s
    else if r.base = RED_LOAD_DATA.base then redLoadAdvance s
    else if r.base = SPC_LO_DATA.base then spcLoAdvance s
    else if r.base = SHT_LOG_DATA.base then logAdvance s
    else if r.base = SRC_LINE_DATA.base then srcLineAdvance s
    else if r.base = TSU_MAP_DATA.base then tsuMapAdvance s
    else if r.base = ANC_TBL_DATA.base then ancTblAdvance s
    else s

/-- An access of BAR0 of any length at any offset by the PCIe host; `w` is what a write carries. -/
def bar0Access (off len : Nat) (w : Option Qword) (s : State) : State :=
  if s.sys.inReset then resetAccess len w.isNone s
  else if len = 0 then s
  else if inMsix off then
    if len = 8 ∧ off % 8 = 0 then
      match w with
      | none => emit (.readData (BitVec.ofNat 64 (busRead .pcie off s).1)) s
      | some v => busWrite .pcie off v s
    else if len = 4 ∧ off % 4 = 0 then
      match w with
      | none => emit (.readBytes 4 (msixDword off s)) s
      | some v => msixPut off (v.toNat % 2 ^ 32) s
    else badAccess blkHST .pcie 0 len off (unsupportedRequest s)
  else if 8 < off % 8 + len then badAccess blkHST .pcie 0 len off (unsupportedRequest s)
  else
    match w with
    | none =>
      let (x, s) := busRead .pcie (off / 8 * 8) s
      if len = 8 then emit (.readData (BitVec.ofNat 64 x)) s else emit (.readBytes len (slice x (8 * (off % 8)) (8 * len))) s
    | some v =>
      if len = 8 then busWrite .pcie off v s
      else dataAdvance (off / 8 * 8) (violate blkHST 0x01 .pcie len off (v.toNat % 2 ^ minN (8 * len) 48) s)

/-- A decoded word in the slot layout of BAR2 (R298). -/
def slotShow (r : WRead) : Nat := if r.isBare then 2 ^ 63 else if r = .bad then 2 ^ 62 else r.data

/-- A read of a loom word of an engine: zero while it is GATED or LOADING; a corrected word is written back (R242, R335). -/
def loomSlotRead (e a : Nat) (s : State) : Nat × State :=
  if engSt e s = eGATED ∨ engSt e s = eLOADING then (0, s)
  else
    let r := decodeWord ((engOf e s).loom.get bareWord a)
    let s := match r with
      | .corrected d => onEng e (fun x => x.putLoom a (encodeWord d)) s
      | .bareUpset => onEng e (fun x => x.putLoom a bareWord) s
      | .clean _ => s
      | .bare => s
      | .bad => s
    (slotShow r, if r.isBare then bump WRP_CNT_BARE_READS 0 s else s)

/-- Where the loom words begin in BAR2, and where the reserved range does (R335). -/
def bar2Loom : Nat := 0xC000000
def bar2Reserved : Nat := 0xD100000

/-- A read of the slot at a byte offset of BAR2. -/
def slotRead (off : Nat) (s : State) : Nat × State :=
  if off < bar2Loom then
    let (r, s) := warpRead reqBAR2 (off / 8) s
    (slotShow r, s)
  else if off < bar2Reserved then loomSlotRead ((off - bar2Loom) / 0x80000) ((off - bar2Loom) % 0x80000 / 8) s
  else (0, s)

/-- A write of the slot at a byte offset of BAR2 (R297, R298, R335). -/
def slotWrite (off : Nat) (v : Qword) (s : State) : State :=
  let d := v.toNat % 2 ^ 48
  if off < bar2Loom then
    let a := off / 8
    if a < 0x1000000 ∨ (0x1400000 ≤ a ∧ a < 0x1600000) then badAccess blkWRP .pcie 2 8 off s
    else warpWrite a d s
  else if off < bar2Reserved then
    let e := (off - bar2Loom) / 0x80000
    if engSt e s = eGATED ∨ engSt e s = eLOADING then badAccess blkHST .pcie 2 8 off s
    else onEng e (fun x => x.putLoom ((off - bar2Loom) % 0x80000 / 8) (encodeWord d)) s
  else badAccess blkHST .pcie 2 8 off s

/-- The slots of a longer read, in ascending order. -/
def slotReads : Nat → Nat → State → State
  | 0, _, s => s
  | n + 1, off, s =>
    let (x, s) := slotRead off s
    slotReads n (off + 8) (emit (.readData (BitVec.ofNat 64 x)) s)

/-- The slots of a longer write, in ascending order. -/
def slotWrites : List Qword → Nat → State → State
  | [], _, s => s
  | v :: t, off, s => slotWrites t (off + 8) (slotWrite off v s)

/-- An access of BAR2 by the PCIe host. What an access answers that crosses slots without being a run of whole ones is not given: it
writes nothing, and what it reads is free. -/
def bar2Access (off len : Nat) (w : Option (List Qword)) (s : State) : State :=
  if s.sys.inReset then resetAccess len w.isNone s
  else if len = 0 then s
  else if off % 8 = 0 ∧ len % 8 = 0 then
    match w with
    | none => slotReads (len / 8) off s
    | some vs => slotWrites (vs.take (len / 8)) off s
  else
    match w with
    | none =>
      if off % 8 + len ≤ 8 then
        let (x, s) := slotRead (off / 8 * 8) s
        emit (.readBytes len (slice x (8 * (off % 8)) (8 * len))) s
      else
        let (x, s) := draw s
        badAccess blkHST .pcie 2 len off (emit (.readBytes len (x % 2 ^ (8 * len))) s)
    | some _ => badAccess blkHST .pcie 2 len off s

/-! ### The management port (R351) -/

/-- A frame of the management port: its instruction byte, offset and data, and, when MSPI_CS_N ended it early, the bytes it had by then. -/
def mspiFrame (op : Byte) (off : Nat) (v : Qword) (early : Option Nat) (s : State) : State :=
  if s.sys.inReset then s
  else
    match early with
    | some n => badAccess blkHST .mgmt 0xFF n off s
    | none =>
      if off % 8 ≠ 0 ∨ 0x6000 ≤ off ∨ (op ≠ 0x0B#8 ∧ op ≠ 0x02#8) then
        badAccess blkHST .mgmt 0xFF 8 off (emit (.miso 0#64) s)
      else if op = 0x0B#8 then
        let (x, s) := busRead .mgmt off s
        emit (.miso (BitVec.ofNat 64 x)) s
      else busWrite .mgmt off v s

/-! ### The link (R331, R332, R350) -/

/-- The link's speed and width are shown (R356). -/
def linkShow (speed width : Nat) (s : State) : State :=
  wr HST_STAT_LINK_SPEED 0 speed (wr HST_STAT_LINK_WIDTH 0 width s)

/-- The link trains, or goes down at speed and width 0: event 21 when the speed or the width falls (R350). -/
def linkTrain (speed width : Nat) (s : State) : State :=
  let t := linkShow speed width s
  if speed < rd HST_STAT_LINK_SPEED 0 s ∨ width < rd HST_STAT_LINK_WIDTH 0 s then raise 21 t else t

/-- The highest speed code the strap PCIE lets the link train to (R541). -/
def strapSpeed (s : State) : Nat := [5, 4, 3, 1].getD (rd SYS_STRAP_PCIE 0 s) 1

/-! ### The commands of this part -/

/-- REGISTER_WRITE: a 64-bit BAR0 write by the PCIe host, the offset in units of 8 bytes. -/
def execRegisterWrite (r : Fin 8192) (v : BitVec 64) (s : State) : Res := .next (busWrite .pcie (8 * r) v s)

/-- RC_REGISTER_READ: a 64-bit BAR0 read by the PCIe host, the offset in units of 8 bytes. -/
def execRcRegisterRead (r : Fin 8192) (s : State) : Res :=
  if s.sys.inReset then .next (resetAccess 8 true s)
  else
    let (x, t) := busRead .pcie (8 * r) s
    .next (emit (.readData (BitVec.ofNat 64 x)) t)

/-- BAR0_NARROW_ACCESS. -/
def execBar0NarrowAccess (off : BitVec 16) (len : BitVec 13) (w : Option (BitVec 64)) (s : State) : Res :=
  .next (bar0Access off.toNat len.toNat w s)

/-- BAR2_ACCESS. -/
def execBar2Access (off : BitVec 28) (len : BitVec 13) (w : Option (List Qword)) (s : State) : Res :=
  .next (bar2Access off.toNat len.toNat w s)

/-- MSPI_FRAME. -/
def execMspiFrame (op : BitVec 8) (off : BitVec 16) (v : BitVec 64) (early : Option (Fin 12)) (s : State) : Res :=
  .next (mspiFrame op off.toNat v (early.map (·.val)) s)

end Sys2Proof.Machine
end

