-- ==== Sys2Proof/Machine/HostCmds.lean ====
section
/-!
DEFINITION. What each command of R341 does when it starts. A row names the command by its TAG; the row acts when that command
stands in the queue, has the row's opcode and may start (R339), and changes nothing otherwise.
-/

set_option autoImplicit false

namespace Sys2Proof.Machine

/-- The legal states of R341: I and W; I, W and F; any. -/
def inIW (s : State) : Bool := inStates [stIDLE, stWEAVING] s
def inIWF (s : State) : Bool := inStates [stIDLE, stWEAVING, stFAULT] s
def inAny (_ : State) : Bool := true

/-- An operand of a command. -/
def Cmd.op (c : Cmd) (i : Nat) : Nat := c.ops.getD i 0

/-! ### Register commands (R341, R342) -/

/-- The body of CSR_READ, CSR_WRITE and CSR_RMW: BAD_ADDRESS at 0x6000 or above, else the access and its result. -/
def csrBody (acc : Cmd → State → Nat × State) (c : Cmd) (s : State) : State :=
  if 0x6000 ≤ c.op 0 then endCmd c.tag 0x14 0 0 s
  else
    let (x, s) := acc c s
    endCmd c.tag 0 0 x s

/-- CSR_READ's access. -/
def csrRead (c : Cmd) (s : State) : Nat × State := busRead (cmdOrigin c) (c.op 0) s

/-- CSR_WRITE's access. -/
def csrWrite (c : Cmd) (s : State) : Nat × State := (0, busWrite (cmdOrigin c) (c.op 0) (BitVec.ofNat 64 (c.op 1)) s)

/-- CSR_RMW's access. -/
def csrRmw (c : Cmd) (s : State) : Nat × State :=
  busRmw (cmdOrigin c) (c.op 0) (BitVec.ofNat 64 (c.op 1)) (BitVec.ofNat 64 (c.op 2)) s

/-! ### State commands (R342 to R344, R404, R549) -/

/-- WEAVE_START: deferred while WEAVE reads CLOSING. -/
def weaveStartBody (c : Cmd) (s : State) : State :=
  if weaving s then onHost (fun h => { h with deferredWeave := some c.tag }) s else weaveStart s

/-- WEAVE_STOP: begins the close; while it runs, it cancels a deferred WEAVE_START or joins the close. -/
def weaveStopBody (c : Cmd) (s : State) : State :=
  if s.trd.closing then
    match s.host.deferredWeave with
    | some _ =>
      let s := finishWhere (fun x => decide (x.opcode = 0x08)) 2 0 0 (onHost (fun h => { h with deferredWeave := none }) s)
      endCmd c.tag 0 0 0 s
    | none => s
  else weaveClose s

/-- Where WEAVE_START is legal: IDLE, and WEAVING while it closes. -/
def weaveLegal (s : State) : Bool := inStates [stIDLE] s || (weaving s && s.trd.closing)

/-- PROFILE_SET. -/
def profileBody (c : Cmd) (s : State) : State :=
  if profileFree s then endCmd c.tag 0 0 0 (setProfile (c.op 0) s) else endCmd c.tag 0x12 (stateCode s) 0 s

/-- HOLD_ENTER: at once when the SDRAM is held already; else once traffic has ended. -/
def holdBody (s : State) : State := if rdB DRM_STAT_HELD 0 s then enterHold s else s

/-- HOLD_EXIT: refused while a fault cause is active. -/
def holdExitBody (drift : List Int) (c : Cmd) (s : State) : State :=
  if faultActive s ≠ 0 then endCmd c.tag 0x15 (faultActive s) 0 s else endCmd c.tag 0 0 0 (leaveHold drift s)

/-! ### Mask commands (R341, R345) -/

/-- A unit of the mask command that acts was refused. -/
def noteRefused (acts : Cmd) (i : Nat) (s : State) : State :=
  mapCmds (fun c => if c.tag = acts.tag ∧ c.phase = .running then { c with refused := setBitTo c.refused i true } else c) s

/-- One port of PORT_START: it runs, its start is deferred, or it is refused. It acts as a RUN write to PRT_CTL that leaves
FRUGAL_MEMBER as it stands (log entry 51). -/
def portStartOne (c : Cmd) (p : Nat) (s : State) : State :=
  let r := portStart p s
  let t := startLog (cmdOrigin c) p (BitVec.ofNat 64 (2 * rd PRT_CTL_FRUGAL_MEMBER p s + 1)) r
  match r.2 with
  | .refused _ _ => noteRefused c p t
  | .ignored => noteRefused c p t
  | .accepted =>
    if portSt p s = pRUNNING then noteGot 0x10 p t else if portSt p s = pFAULTED then noteRefused c p t else t

/-- One port of PORT_STOP. -/
def portStopOne (p : Nat) (s : State) : State :=
  let t := portStop p s
  if portIdle p t then noteGot 0x11 p t else t

/-- One engine of ENGINE_START. It acts as a write of SHT_RUN with the mask's bits set beside those that run; `v` is that value. An engine
that is SWAPPING comes to its outcome at the takeover. -/
def engineStartOne (c : Cmd) (v : Qword) (l : Nat) (s : State) : State :=
  let (t, ignored) := engineStart l s
  if ignored then noteRefused c l (writeIgnored (cmdOrigin c) (SHT_RUN.off 0) v t)
  else if engSt (physOf l t) t = eRUNNING then noteGot 0x12 l t
  else if startPending l t ∨ engSt (physOf l t) t = eSWAPPING then t else noteRefused c l t

/-- One engine of ENGINE_STOP: an engine that is out of use counts as stopped. -/
def engineStopOne (l : Nat) (s : State) : State :=
  let t := engineStop l s
  let st := engSt (physOf l t) t
  if st = eRUNNING ∨ st = eCLOSING ∨ st = eFAULTED ∨ st = eSWAPPING then t else noteGot 0x13 l t

/-- A mask command acts on its units in ascending order. -/
def maskBody (n : Nat) (one : Nat → State → State) (c : Cmd) (s : State) : State :=
  maskFinish ((maskList n (c.op 0)).foldl (fun s i => one i s) s)

/-! ### Requests to units (R341, R345) -/

/-- A request to a unit: refused with the unit's reason, or the command waits. -/
def request (c : Cmd) (aux : Nat) (r : State × Nat) : State :=
  if r.2 = 0 then waitOn c.tag aux r.1 else endCmd c.tag 0x15 r.2 0 r.1

/-- A request whose unit names no reason. -/
def requestB (c : Cmd) (aux : Nat) (r : State × Bool) : State :=
  if r.2 then endCmd c.tag 0x15 0 0 r.1 else waitOn c.tag aux r.1

/-- BEAT: the next program takes it; once the Treadle has stopped nothing will, and it ends as EXITED. -/
def beatBody (c : Cmd) (s : State) : State :=
  if s.trd.weaving then trdCtlWrite (cmdOrigin c) (BitVec.ofNat 64 (0x40 + bankOf s)) s
  else endCmd c.tag 3 0 (place ocEXITED 60 4 + place (rd SYS_PICK_NUM_NUM 0 s) 0 48) s

/-- TIME_SET: at once, or armed. -/
def timeSetBody (c : Cmd) (s : State) : State :=
  let imm := bitOf (c.op 1) 0
  let s := todSetWrite (BitVec.ofNat 64 (c.op 0 * 256 + b2n imm * 2 + 1)) s
  if imm then endCmd c.tag 0 0 0 s else waitOn c.tag 1 s

/-- CAL_RUN's object: its kind and index. -/
def calRunBody (c : Cmd) (s : State) : State :=
  let kind := slice (c.op 0) 0 4
  let idx := slice (c.op 0) 8 8
  request c (calAux kind idx) (calRunRequest kind idx s)

/-! ### The commands -/

/-- CMD_NOP. -/
def execCmdNop (tag : BitVec 8) (s : State) : Res :=
  .next (startCmd 0x00 tag inAny (fun c s => endCmd c.tag 0 0 0 s) s)

/-- IDENTIFY. -/
def execIdentify (tag : BitVec 8) (s : State) : Res :=
  .next (startCmd 0x01 tag inAny (fun c s => endCmd c.tag 0 0 (regShow SYS_ID 0 s) s) s)

/-- CSR_READ. -/
def execCsrRead (tag : BitVec 8) (s : State) : Res := .next (startCmd 0x02 tag inAny (csrBody csrRead) s)

/-- CSR_WRITE. -/
def execCsrWrite (tag : BitVec 8) (s : State) : Res := .next (startCmd 0x03 tag inAny (csrBody csrWrite) s)

/-- CSR_RMW. -/
def execCsrRmw (tag : BitVec 8) (s : State) : Res := .next (startCmd 0x04 tag inAny (csrBody csrRmw) s)

/-- WEAVE_START. -/
def execWeaveStart (tag : BitVec 8) (s : State) : Res := .next (startCmd 0x08 tag weaveLegal weaveStartBody s)

/-- WEAVE_STOP. -/
def execWeaveStop (tag : BitVec 8) (s : State) : Res := .next (startCmd 0x09 tag weaving weaveStopBody s)

/-- PROFILE_SET. -/
def execProfileSet (tag : BitVec 8) (s : State) : Res := .next (startCmd 0x0A tag (inStates [stIDLE]) profileBody s)

/-- HOLD_ENTER. -/
def execHoldEnter (tag : BitVec 8) (s : State) : Res :=
  .next (startCmd 0x0B tag (inStates [stIDLE, stFAULT]) (fun _ s => holdBody s) s)

/-- HOLD_EXIT; `drift` is what the oscillator update of each rank finds (R390, R404). -/
def execHoldExit (tag : BitVec 8) (drift : List Int) (s : State) : Res :=
  .next (startCmd 0x0C tag (inStates [stHOLD]) (holdExitBody drift) s)

/-- PORT_START. -/
def execPortStart (tag : BitVec 8) (s : State) : Res := .next (startCmd 0x10 tag inIW (fun c s => maskBody 16 (portStartOne c) c s) s)

/-- PORT_STOP. -/
def execPortStop (tag : BitVec 8) (s : State) : Res := .next (startCmd 0x11 tag inIWF (maskBody 16 portStopOne) s)

/-- ENGINE_START. -/
def execEngineStart (tag : BitVec 8) (s : State) : Res := .next (startCmd 0x12 tag inIW 
    (fun c s => maskBody 32 (engineStartOne c (BitVec.ofNat 64 (Nat.lor (rd SHT_RUN_RUN 0 s) (c.op 0)))) c s) s)

/-- ENGINE_STOP. -/
def execEngineStop (tag : BitVec 8) (s : State) : Res := .next (startCmd 0x13 tag inIWF (maskBody 32 engineStopOne) s)

/-- CMD_BEAT. -/
def execCmdBeat (tag : BitVec 8) (s : State) : Res := .next (startCmd 0x14 tag weaving beatBody s)

/-- TIME_SET. -/
def execTimeSet (tag : BitVec 8) (s : State) : Res :=
  .next (startCmd 0x16 tag (inStates [stIDLE, stWEAVING, stHOLD]) timeSetBody s)

/-- CODE_PREPARE. -/
def execCodePrepare (tag : BitVec 8) (s : State) : Res :=
  .next (startCmd 0x18 tag inIW (fun c s => requestB c (c.op 0) (redPrepare (c.op 0) s)) s)

/-- IMAGE_LOAD. -/
def execImageLoad (tag : BitVec 8) (s : State) : Res :=
  .next (startCmd 0x19 tag inIW (fun c s => requestB c (c.op 1) (imgRequest (c.op 1) (c.op 0) s)) s)

/-- ENGINE_SWAP. -/
def execEngineSwap (tag : BitVec 8) (s : State) : Res :=
  .next (startCmd 0x1A tag inIW (fun c s => request c 0 (engSwapRequest (BitVec.ofNat 64 (c.op 0)) s)) s)

/-- CONV_SWAP. -/
def execConvSwap (tag : BitVec 8) (s : State) : Res :=
  .next (startCmd 0x1B tag inIW
    (fun c s => request c (slice (c.op 0) 16 2) (convSwapRequest (slice (c.op 0) 16 2) (slice (c.op 0) 0 4) true s)) s)

/-- WARP_FILL. -/
def execWarpFill (tag : BitVec 8) (s : State) : Res :=
  .next (startCmd 0x1C tag inIW (fun c s => requestB c 0 (fillRequest (c.op 0) (c.op 1) s)) s)

/-- CAL_RUN. -/
def execCalRun (tag : BitVec 8) (s : State) : Res := .next (startCmd 0x28 tag inIW calRunBody s)

/-- MEM_VACATE. -/
def execMemVacate (tag : BitVec 8) (s : State) : Res :=
  .next (startCmd 0x30 tag inIW (fun c s => request c (c.op 0) (vacateRequest (c.op 0) true s)) s)

/-- MEM_RESTORE; the channel's module then says what `present` to `trfc` give. -/
def execMemRestore (tag : BitVec 8) (present known : Bool) (ranks : Fin 8) (density : Fin 64) (gib : Fin 256) (trfc : Fin 65536)
    (s : State) : Res :=
  .next (startCmd 0x31 tag inIW
    (fun c s => request c (c.op 0) (restoreRequest (c.op 0) (spdOf present known ranks density gib trfc) true s)) s)

end Sys2Proof.Machine
end

