-- ==== Sys2Proof/Machine/Rings.lean ====
section
/-!
DEFINITION. Delivery rings (R360 to R368, R383), DMA errors (R333) and the conditions of the DMA (R332).
-/

set_option autoImplicit false

namespace Sys2Proof.Machine

/-- The ring of a queue. -/
def ringOf (q : Nat) (s : State) : Option Ring := s.rings.find? (fun r => decide (r.queue = q))

/-- The ring of a queue is changed. -/
def onRing (q : Nat) (f : Ring → Ring) (s : State) : State :=
  { s with rings := s.rings.map (fun r => if r.queue = q then f r else r) }

/-- The fill F of a ring: what it holds that the host has not consumed (R366). A CONS beyond the PROD last written leaves nothing, so a
difference in the upper half of the 48 bits is negative and counts as 0. -/
def Ring.fill (r : Ring) (prod : Nat) : Nat :=
  let f := (prod + 2 ^ 48 - r.cons) % 2 ^ 48
  if 2 ^ 47 ≤ f then 0 else f

/-- The room of a ring by the last-read CONS (R363). -/
def Ring.room (r : Ring) : Nat := 2 ^ r.size - r.fill r.prod

/-- Whether the device may work on a ring now (R332, R367, R368). -/
def Ring.live (r : Ring) (s : State) : Bool := dmaOk s && !r.stopped && !r.fresh && !r.ending

/-- A DMA write, cut so that no part crosses a 4 KiB boundary (R363). -/
def dmaWrite (addr : Nat) (bytes : List Byte) (s : State) : State :=
  let n := 4096 - addr % 4096
  if bytes.length ≤ n then emit (.dma addr bytes) s
  else emit (.dma (addr + n) (bytes.drop n)) (emit (.dma addr (bytes.take n)) s)

/-- The write of qword 0 of an index block (R362). -/
def indexWrite (r : Ring) (s : State) : State :=
  emit (.dma r.index (qBytes (place (b2n r.stopped) 62 1 + place r.prod 0 48))) s

/-- A batch ends: qword 0 with the new PROD, and the level test on F (R363, R366). -/
def batchEnd (q : Nat) (s : State) : State :=
  match ringOf q s with
  | none => s
  | some r =>
    if r.prod = r.posted then onRing q (fun x => { x with batchAt := none }) s
    else
      let s := onRing q (fun x => { x with posted := x.prod, batchAt := none }) (indexWrite r s)
      levelCross q (r.fill r.posted) (r.fill r.prod) s

/-- The binding's first write of qword 0, after which RING_BIND completes (R362). -/
def ringOpen (q : Nat) (s : State) : State :=
  match ringOf q s with
  | none => s
  | some r =>
    if r.fresh && dmaOk s then finishCmd 0x20 (q + 1) 0 0 0 (onRing q (fun x => { x with fresh := false }) (indexWrite r s)) else s

/-- An unbind's last write, that of a stopped ring too, after which the ring is gone and RING_UNBIND completes (R367). -/
def ringClose (q : Nat) (s : State) : State :=
  match ringOf q s with
  | none => s
  | some r =>
    if r.ending && (dmaOk s || decide (r.prod = r.posted)) then
      let s := batchEnd q s
      finishCmd 0x21 (q + 1) 0 0 0 { s with rings := s.rings.filter (fun x => decide (x.queue ≠ q)) }
    else s

/-- Why a RING_BIND is refused, 0 when it is not (R360). -/
def bindReason (q : Nat) (s : State) : Nat :=
  if ringBound q s then 1 else if engineBound q s then 2 else if 64 ≤ s.rings.length then 3 else if q = doneQ s then 4 else 0

/-- RING_BIND (R360 to R362, R496). -/
def bindBody (c : Cmd) (s : State) : State :=
  let q := c.op 0
  let r := bindReason q s
  if r ≠ 0 then endCmd c.tag 0x15 r 0 s
  else
    let ring : Ring := { queue := q, base := c.op 1, size := c.op 2, index := c.op 3, fresh := true }
    ringOpen q (waitOn c.tag (q + 1) (bobBound q { s with rings := s.rings ++ [ring] }))

/-- RING_UNBIND (R360, R367). -/
def unbindBody (c : Cmd) (s : State) : State :=
  let q := c.op 0
  match ringOf q s with
  | none => endCmd c.tag 0x15 1 0 s
  | some r =>
    if r.ending then endCmd c.tag 0x15 1 0 s
    else
      let s := finishCmd 0x20 (q + 1) 2 0 0 (onRing q (fun x => { x with ending := true, fresh := false }) s)
      ringClose q (waitOn c.tag (q + 1) s)

/-- One item moves from a bound queue into its ring while the ring has room (R363, R365): its bytes are written, least significant first;
the batch it belongs to ends when the queue is empty or 4 KiB of items have been written since the last qword 0. -/
def ringDeliver (q : Nat) (s : State) : State :=
  match ringOf q s with
  | none => s
  | some r =>
    if !(r.live s) || r.room = 0 then s
    else
      let (x, s) := popItem q s
      match x with
      | none => if r.prod = r.posted then s else batchEnd q s
      | some (_, d) =>
        let bytes := (List.range 6).map (fun i => BitVec.ofNat 8 (slice d (8 * i) 8))
        let s := dmaWrite (r.base + 6 * (r.prod % 2 ^ r.size)) bytes s
        let prod := (r.prod + 1) % 2 ^ 48
        let y : Ring := { r with
          prod := prod, batchAt := if r.batchAt.isSome then r.batchAt else some (s.now + ccUs) }
        let y : Ring := { y with pollAt := if y.room < 512 ∧ y.pollAt.isNone then some s.now else y.pollAt }
        let s := onRing q (fun _ => y) s
        if (queueOf q s).items.isEmpty ∨ 4096 ≤ 6 * ((prod + 2 ^ 48 - r.posted) % 2 ^ 48) then batchEnd q s else s

/-- 1 µs after a batch's first data write it ends (R363). -/
def ringBatchEnd (q : Nat) (s : State) : State :=
  match ringOf q s with
  | none => s
  | some r =>
    match r.batchAt with
    | none => s
    | some t => if r.live s then batchEnd q (advanceTo t s) else s

/-- A read of CONS is issued when one is due (R364). -/
def consPoll (q : Nat) (s : State) : State :=
  match ringOf q s with
  | none => s
  | some r =>
    match r.pollAt with
    | none => s
    | some t =>
      if r.live s && !r.reading && readFree s then
        emit (.dmaRead (r.index + 8)) (onRing q (fun x => { x with reading := true, pollAt := none }) (advanceTo t s))
      else s

/-- A read of CONS returns (R364, R366): a valid value is taken; an invalid one is ignored and logged once for a binding; while the room
is 0 the read is repeated 1 µs later. -/
def consDone (q : Nat) (v : Qword) (s : State) : State :=
  match ringOf q s with
  | none => s
  | some r =>
    if !r.reading then s
    else
      let cons := v.toNat % 2 ^ 48
      let good := decide ((r.prod + 2 ^ 48 - cons) % 2 ^ 48 ≤ 2 ^ r.size)
      let y : Ring := { r with reading := false, cons := if good then cons else r.cons, badLogged := r.badLogged || !good }
      let y : Ring := { y with pollAt := if y.room = 0 then some (s.now + ccUs) else y.pollAt }
      let s := onRing q (fun _ => y) s
      let s := if good || r.badLogged then s else violate blkHST 0x0F .device 1 cons (place q 0 8) s
      if good then levelCross q (r.fill r.posted) (y.fill y.posted) s else s

/-! ### DMA errors (R333, R368) and DMA conditions (R332) -/

/-- What every DMA error does: DMA_ERR, event 19 and the entry of class DMA (R376). -/
def dmaErrorLog (detail addr queue : Nat) (s : State) : State :=
  violate blkHST 0x09 .device detail (addr % 2 ^ 48) (place queue 16 8 + place (addr / 2 ^ 48) 0 16)
    (raise 19 (wr HST_STAT_DMA_ERR 0 1 s))

/-- A fetch ends in error: fetching stops (R333). -/
def fetchError (s : State) : State :=
  if canFetch s then dmaErrorLog 1 (fetchAddr s) 0 (onHost (fun h => { h with fetchStopped := true }) s) else s

/-- A read of CONS ends in error: the ring stops, and says so in qword 0 (R368). -/
def consError (q : Nat) (s : State) : State :=
  match ringOf q s with
  | none => s
  | some r =>
    if !r.reading then s
    else
      let y : Ring := { r with reading := false, stopped := true, batchAt := none, pollAt := none }
      let s :=
        if dmaOk s then
          levelCross q (r.fill r.posted) (r.fill r.prod) (indexWrite y (onRing q (fun _ => { y with posted := y.prod }) s))
        else onRing q (fun _ => y) s
      dmaErrorLog 2 (r.index + 8) q s

/-- Writes that waited for the DMA are made (R332, R362, R367). -/
def dmaResume (s : State) : State :=
  s.rings.foldl (fun s r => ringClose r.queue (ringOpen r.queue s)) s

/-! ### The commands of this part -/

/-- RING_BIND. -/
def execRingBind (tag : BitVec 8) (s : State) : Res := .next (startCmd 0x20 tag inIW bindBody s)

/-- RING_UNBIND. -/
def execRingUnbind (tag : BitVec 8) (s : State) : Res := .next (startCmd 0x21 tag inIW unbindBody s)

/-- RING_DELIVER. -/
def execRingDeliver (q : Fin 256) (s : State) : Res := .next (ringDeliver q s)

/-- RING_BATCH_END. -/
def execRingBatchEnd (q : Fin 256) (s : State) : Res := .next (ringBatchEnd q s)

/-- CONS_POLL. -/
def execConsPoll (q : Fin 256) (s : State) : Res := .next (consPoll q s)

/-- CONS_READ_DONE: the read returns this qword. -/
def execConsReadDone (q : Fin 256) (v : BitVec 64) (s : State) : Res := .next (consDone q v s)

/-- What AER reports of a read that ends in error (R331, R333): a timeout, an Unsupported Request, a Completer Abort; for poisoned data
R331 names no report. -/
def aerOfRead (kind : Nat) (s : State) : State :=
  if kind = 0 then aerReport aerTimeout s
  else if kind = 1 then aerReport aerUnsupported s
  else if kind = 2 then aerReport aerAbort s
  else s

/-- DMA_ERROR: of a command fetch, or of the CONS read of a queue's ring. Its kind is 0 for Completion Timeout, 1 for Unsupported Request,
2 for Completer Abort and 3 for poisoned data. It changes nothing when no such read is out. -/
def execDmaError (what : Option (Fin 256) × Fin 4) (s : State) : Res :=
  let (ring, kind) := what
  match ring with
  | none => .next (if canFetch s then aerOfRead kind (fetchError s) else s)
  | some q => .next (if (ringOf q s).any (fun (r : Ring) => r.reading) then aerOfRead kind (consError q s) else s)

/-- BUS_MASTER_CHANGE. -/
def execBusMasterChange (enable d3hot : Bool) (s : State) : Res :=
  .next (if s.sys.inReset then s else dmaResume (onHost (fun h => { h with busMaster := enable, d3hot := d3hot }) s))

/-- HST_LINK: the link goes down, or trains to a lower speed or width, which raises event 21 (R350). -/
def execHstLink (speed : Fin 5) (width : Fin 4) (down : Bool) (s : State) : Res :=
  .next (if s.sys.inReset then s
    else if down then linkTrain 0 0 s else dmaResume (linkTrain (minN (speed + 1) (strapSpeed s)) (2 ^ width.val) s))

/-- PCIE_LINK_UP: the link trains, at most at the speed the strap allows; writes that waited for the link are made. -/
def execPcieLinkUp (speed : Fin 5) (width : Fin 4) (s : State) : Res :=
  .next (if s.sys.inReset then s else dmaResume (linkTrain (minN (speed + 1) (strapSpeed s)) (2 ^ width.val) s))

end Sys2Proof.Machine
end

