-- ==== Sys2Proof/Machine/Dispatch.lean ====
section
/-!
DEFINITION. The dispatch: one arm per command of the opcode table, each one call of its meaning.
-/

namespace Sys2Proof.Machine

/-- The effect of a command on everything but the queue. -/
def exec (i : Instr) (s : State) : Host.Outcome State Fault Refusal :=
  match i with
  | .pickTick => Sys2Proof.Machine.execPickTick s
  | .pickDrop => Sys2Proof.Machine.execPickDrop s
  | .pickDone => Sys2Proof.Machine.execPickDone s
  | .srefLoss => Sys2Proof.Machine.execSrefLoss s
  | .pllUnlock => Sys2Proof.Machine.execPllUnlock s
  | .ppsEdge k tap => Sys2Proof.Machine.execPpsEdge k tap s
  | .ppsHoldover => Sys2Proof.Machine.execPpsHoldover s
  | .todArm sec => Sys2Proof.Machine.execTodArm sec s
  | .todSetImm sec => Sys2Proof.Machine.execTodSetImm sec s
  | .sysTimeHiRead => Sys2Proof.Machine.execSysTimeHiRead s
  | .discCtlWrite v => Sys2Proof.Machine.execDiscCtlWrite v s
  | .convSwapRequest g v => Sys2Proof.Machine.execConvSwapRequest g v s
  | .swapSwitch g => Sys2Proof.Machine.execSwapSwitch g s
  | .convStuck j => Sys2Proof.Machine.execConvStuck j s
  | .autoSwapRequest g => Sys2Proof.Machine.execAutoSwapRequest g s
  | .prtRunStart p v => Sys2Proof.Machine.execPrtRunStart p v s
  | .prtRunStop p v => Sys2Proof.Machine.execPrtRunStop p v s
  | .portCloseDone p => Sys2Proof.Machine.execPortCloseDone p s
  | .frugalMemberWrite p member => Sys2Proof.Machine.execFrugalMemberWrite p member s
  | .corrApply p => Sys2Proof.Machine.execCorrApply p s
  | .gzDataAccess p w => Sys2Proof.Machine.execGzDataAccess p w s
  | .redLoadDataAccess w => Sys2Proof.Machine.execRedLoadDataAccess w s
  | .prepare v => Sys2Proof.Machine.execPrepare v s
  | .prepareDeferredStart => Sys2Proof.Machine.execPrepareDeferredStart s
  | .prepareEnd => Sys2Proof.Machine.execPrepareEnd s
  | .gaugeCellResult p first codes => Sys2Proof.Machine.execGaugeCellResult p first codes s
  | .breakDecision p => Sys2Proof.Machine.execBreakDecision p s
  | .envReset v => Sys2Proof.Machine.execEnvReset v s
  | .heddleUpdate p stalled => Sys2Proof.Machine.execHeddleUpdate p stalled s
  | .heddleUpdateResume p stalled => Sys2Proof.Machine.execHeddleUpdateResume p stalled s
  | .pickMarkerPush p => Sys2Proof.Machine.execPickMarkerPush p s
  | .spectralCellStage p first codes => Sys2Proof.Machine.execSpectralCellStage p first codes s
  | .fitDoneItem => Sys2Proof.Machine.execFitDoneItem s
  | .fitTimeout p => Sys2Proof.Machine.execFitTimeout p s
  | .stripeFlushStart => Sys2Proof.Machine.execStripeFlushStart s
  | .stripeFramePushed => Sys2Proof.Machine.execStripeFramePushed s
  | .spcLoDataAccess w => Sys2Proof.Machine.execSpcLoDataAccess w s
  | .spcLineWrite r v => Sys2Proof.Machine.execSpcLineWrite r v s
  | .programStart => Sys2Proof.Machine.execProgramStart s
  | .trdNop => Sys2Proof.Machine.execTrdNop s
  | .draftWrap => Sys2Proof.Machine.execDraftWrap s
  | .pick => Sys2Proof.Machine.execPick s
  | .kind k mask => Sys2Proof.Machine.execKind k mask s
  | .slot k mask => Sys2Proof.Machine.execSlot k mask s
  | .gzt t mask => Sys2Proof.Machine.execGzt t mask s
  | .line inc l mask => Sys2Proof.Machine.execLine inc l mask s
  | .lo e => Sys2Proof.Machine.execLo e s
  | .stripe line stripe => Sys2Proof.Machine.execStripe line stripe s
  | .loop count => Sys2Proof.Machine.execLoop count s
  | .endl => Sys2Proof.Machine.execEndl s
  | .jump target => Sys2Proof.Machine.execJump target s
  | .jflg flag target => Sys2Proof.Machine.execJflg flag target s
  | .note q pri code => Sys2Proof.Machine.execNote q pri code s
  | .ppsa ofs => Sys2Proof.Machine.execPpsa ofs s
  | .ppsaTimeout => Sys2Proof.Machine.execPpsaTimeout s
  | .beat => Sys2Proof.Machine.execBeat s
  | .swap => Sys2Proof.Machine.execSwap s
  | .trdDraftDataAccess w => Sys2Proof.Machine.execTrdDraftDataAccess w s
  | .trdBankCfgWrite b v => Sys2Proof.Machine.execTrdBankCfgWrite b v s
  | .validate b => Sys2Proof.Machine.execValidate b s
  | .scanEnd b => Sys2Proof.Machine.execScanEnd b s
  | .hostBeat => Sys2Proof.Machine.execHostBeat s
  | .discard => Sys2Proof.Machine.execDiscard s
  | .trdCtlSwap => Sys2Proof.Machine.execTrdCtlSwap s
  | .trdFlagSetWrite v => Sys2Proof.Machine.execTrdFlagSetWrite v s
  | .handlerDispatch e => Sys2Proof.Machine.execHandlerDispatch e s
  | .tickHandlerPending => Sys2Proof.Machine.execTickHandlerPending s
  | .pbudgetExpiry l => Sys2Proof.Machine.execPbudgetExpiry l s
  | .engineRunStart l => Sys2Proof.Machine.execEngineRunStart l s
  | .engineRunStop l => Sys2Proof.Machine.execEngineRunStop l s
  | .imgLoad v => Sys2Proof.Machine.execImgLoad v s
  | .imgLoadEnd => Sys2Proof.Machine.execImgLoadEnd s
  | .engineSwapRequest v => Sys2Proof.Machine.execEngineSwapRequest v s
  | .swapCancel => Sys2Proof.Machine.execSwapCancel s
  | .swapBoundary => Sys2Proof.Machine.execSwapBoundary s
  | .swapTakeover => Sys2Proof.Machine.execSwapTakeover s
  | .shtLogDataAccess w => Sys2Proof.Machine.execShtLogDataAccess w s
  | .ldqComplete e k => Sys2Proof.Machine.execLdqComplete e k s
  | .stqComplete e k => Sys2Proof.Machine.execStqComplete e k s
  | .wfenceRelease e => Sys2Proof.Machine.execWfenceRelease e s
  | .doneRetire e => Sys2Proof.Machine.execDoneRetire e s
  | .pushResume e => Sys2Proof.Machine.execPushResume e s
  | .popResume e => Sys2Proof.Machine.execPopResume e s
  | .illegalInstruction e => Sys2Proof.Machine.execIllegalInstruction e s
  | .nop e => Sys2Proof.Machine.execNop e s
  | .add e wd wa b => Sys2Proof.Machine.execAdd e wd wa b s
  | .sub e wd wa b => Sys2Proof.Machine.execSub e wd wa b s
  | .adds e wd wa b => Sys2Proof.Machine.execAdds e wd wa b s
  | .subs e wd wa b => Sys2Proof.Machine.execSubs e wd wa b s
  | .and e wd wa b => Sys2Proof.Machine.execAnd e wd wa b s
  | .or e wd wa b => Sys2Proof.Machine.execOr e wd wa b s
  | .xor e wd wa b => Sys2Proof.Machine.execXor e wd wa b s
  | .shl e wd wa b => Sys2Proof.Machine.execShl e wd wa b s
  | .shr e wd wa b => Sys2Proof.Machine.execShr e wd wa b s
  | .sar e wd wa b => Sys2Proof.Machine.execSar e wd wa b s
  | .cmp e wa b => Sys2Proof.Machine.execCmp e wa b s
  | .min e wd wa b => Sys2Proof.Machine.execMin e wd wa b s
  | .max e wd wa b => Sys2Proof.Machine.execMax e wd wa b s
  | .abs e wd wa => Sys2Proof.Machine.execAbs e wd wa s
  | .nrm e wd wa => Sys2Proof.Machine.execNrm e wd wa s
  | .mul e wd wa b => Sys2Proof.Machine.execMul e wd wa b s
  | .mulh e wd wa b => Sys2Proof.Machine.execMulh e wd wa b s
  | .div e wd wa b => Sys2Proof.Machine.execDiv e wd wa b s
  | .movi e wd imm => Sys2Proof.Machine.execMovi e wd imm s
  | .movh e wd imm => Sys2Proof.Machine.execMovh e wd imm s
  | .mfs e wd spr => Sys2Proof.Machine.execMfs e wd spr s
  | .mts e wa spr => Sys2Proof.Machine.execMts e wa spr s
  | .vget e wd va lane => Sys2Proof.Machine.execVget e wd va lane s
  | .vset e wa vd lane => Sys2Proof.Machine.execVset e wa vd lane s
  | .vbc e wa vd => Sys2Proof.Machine.execVbc e wa vd s
  | .lw e wd lo => Sys2Proof.Machine.execLw e wd lo s
  | .sw e wa lo => Sys2Proof.Machine.execSw e wa lo s
  | .lwA e wd a => Sys2Proof.Machine.execLwA e wd a s
  | .swA e wa a => Sys2Proof.Machine.execSwA e wa a s
  | .lv e vd lo => Sys2Proof.Machine.execLv e vd lo s
  | .sv e va lo => Sys2Proof.Machine.execSv e va lo s
  | .pset e p a => Sys2Proof.Machine.execPset e p a s
  | .pmod e p m => Sys2Proof.Machine.execPmod e p m s
  | .vadd e vd s1 s2 => Sys2Proof.Machine.execVadd e vd s1 s2 s
  | .vsub e vd s1 s2 => Sys2Proof.Machine.execVsub e vd s1 s2 s
  | .vadds e vd s1 s2 => Sys2Proof.Machine.execVadds e vd s1 s2 s
  | .vsubs e vd s1 s2 => Sys2Proof.Machine.execVsubs e vd s1 s2 s
  | .vaddh e vd s1 s2 => Sys2Proof.Machine.execVaddh e vd s1 s2 s
  | .vsubh e vd s1 s2 => Sys2Proof.Machine.execVsubh e vd s1 s2 s
  | .vand e vd s1 s2 => Sys2Proof.Machine.execVand e vd s1 s2 s
  | .vor e vd s1 s2 => Sys2Proof.Machine.execVor e vd s1 s2 s
  | .vxor e vd s1 s2 => Sys2Proof.Machine.execVxor e vd s1 s2 s
  | .vshl e vd s1 n => Sys2Proof.Machine.execVshl e vd s1 n s
  | .vsar e vd s1 n => Sys2Proof.Machine.execVsar e vd s1 n s
  | .vmin e vd s1 s2 => Sys2Proof.Machine.execVmin e vd s1 s2 s
  | .vmax e vd s1 s2 => Sys2Proof.Machine.execVmax e vd s1 s2 s
  | .vabs e vd s1 => Sys2Proof.Machine.execVabs e vd s1 s
  | .vconj e vd s1 => Sys2Proof.Machine.execVconj e vd s1 s
  | .vcmp e cc s1 s2 => Sys2Proof.Machine.execVcmp e cc s1 s2 s
  | .vsel e vd s1 s2 => Sys2Proof.Machine.execVsel e vd s1 s2 s
  | .vsum e wd s1 => Sys2Proof.Machine.execVsum e wd s1 s
  | .vshr e vd s1 n => Sys2Proof.Machine.execVshr e vd s1 n s
  | .macC e ac s1 s2 cj ng clr => Sys2Proof.Machine.execMacC e ac s1 s2 cj ng clr s
  | .macR e ac s1 s2 ng clr => Sys2Proof.Machine.execMacR e ac s1 s2 ng clr s
  | .macP e ac s1 ng clr => Sys2Proof.Machine.execMacP e ac s1 ng clr s
  | .clrac e ac => Sys2Proof.Machine.execClrac e ac s
  | .rndC e vd ac sh => Sys2Proof.Machine.execRndC e vd ac sh s
  | .rndR e vd ac sh => Sys2Proof.Machine.execRndR e vd ac sh s
  | .acredR e wd ac sh => Sys2Proof.Machine.execAcredR e wd ac sh s
  | .acredC e wd ac sh => Sys2Proof.Machine.execAcredC e wd ac sh s
  | .ldacR e ac va sh => Sys2Proof.Machine.execLdacR e ac va sh s
  | .ldacC e ac va sh => Sys2Proof.Machine.execLdacC e ac va sh s
  | .ldq e wa lo => Sys2Proof.Machine.execLdq e wa lo s
  | .stq e wa lo => Sys2Proof.Machine.execStq e wa lo s
  | .wfence e => Sys2Proof.Machine.execWfence e s
  | .push e wa q => Sys2Proof.Machine.execPush e wa q s
  | .pop e wd q => Sys2Proof.Machine.execPop e wd q s
  | .qcnt e wd q => Sys2Proof.Machine.execQcnt e wd q s
  | .bCond e cond target => Sys2Proof.Machine.execBCond e cond target s
  | .call e target => Sys2Proof.Machine.execCall e target s
  | .jr e wa => Sys2Proof.Machine.execJr e wa s
  | .rep e count last => Sys2Proof.Machine.execRep e count last s
  | .rexit e => Sys2Proof.Machine.execRexit e s
  | .done e => Sys2Proof.Machine.execDone e s
  | .clst e mask => Sys2Proof.Machine.execClst e mask s
  | .warpWriteBack => Sys2Proof.Machine.execWarpWriteBack s
  | .scrubRead => Sys2Proof.Machine.execScrubRead s
  | .rowRepairStart => Sys2Proof.Machine.execRowRepairStart s
  | .rowRepairDone => Sys2Proof.Machine.execRowRepairDone s
  | .wrpFillGo v => Sys2Proof.Machine.execWrpFillGo v s
  | .wrpFillDone => Sys2Proof.Machine.execWrpFillDone s
  | .wfqHpush v => Sys2Proof.Machine.execWfqHpush v s
  | .wfqHpop => Sys2Proof.Machine.execWfqHpop s
  | .wfqFlush v => Sys2Proof.Machine.execWfqFlush v s
  | .wfqCfgWrite q v => Sys2Proof.Machine.execWfqCfgWrite q v s
  | .queueStale q => Sys2Proof.Machine.execQueueStale q s
  | .hstCmdTailWrite v => Sys2Proof.Machine.execHstCmdTailWrite v s
  | .commandFetch q0 q1 q2 q3 q4 q5 q6 q7 => Sys2Proof.Machine.execCommandFetch q0 q1 q2 q3 q4 q5 q6 q7 s
  | .completionWrite => Sys2Proof.Machine.execCompletionWrite s
  | .hstCplHeadWrite v => Sys2Proof.Machine.execHstCplHeadWrite v s
  | .hstCtlWrite v => Sys2Proof.Machine.execHstCtlWrite v s
  | .dmaError what => Sys2Proof.Machine.execDmaError what s
  | .bar0NarrowAccess off len w => Sys2Proof.Machine.execBar0NarrowAccess off len w s
  | .bar2Access off len w => Sys2Proof.Machine.execBar2Access off len w s
  | .evtRawWrite ix v => Sys2Proof.Machine.execEvtRawWrite ix v s
  | .holdoffExpiry v => Sys2Proof.Machine.execHoldoffExpiry v s
  | .msixUnmask v fm => Sys2Proof.Machine.execMsixUnmask v fm s
  | .mspiFrame op off v early => Sys2Proof.Machine.execMspiFrame op off v early s
  | .mbxGo v => Sys2Proof.Machine.execMbxGo v s
  | .hstLink speed width down => Sys2Proof.Machine.execHstLink speed width down s
  | .busMasterChange enable d3hot => Sys2Proof.Machine.execBusMasterChange enable d3hot s
  | .cmdNop tag => Sys2Proof.Machine.execCmdNop tag s
  | .identify tag => Sys2Proof.Machine.execIdentify tag s
  | .csrRead tag => Sys2Proof.Machine.execCsrRead tag s
  | .csrWrite tag => Sys2Proof.Machine.execCsrWrite tag s
  | .csrRmw tag => Sys2Proof.Machine.execCsrRmw tag s
  | .weaveStart tag => Sys2Proof.Machine.execWeaveStart tag s
  | .weaveStop tag => Sys2Proof.Machine.execWeaveStop tag s
  | .weaveStopComplete => Sys2Proof.Machine.execWeaveStopComplete s
  | .profileSet tag => Sys2Proof.Machine.execProfileSet tag s
  | .holdEnter tag => Sys2Proof.Machine.execHoldEnter tag s
  | .holdEnterComplete => Sys2Proof.Machine.execHoldEnterComplete s
  | .holdExit tag drift => Sys2Proof.Machine.execHoldExit tag drift s
  | .portStart tag => Sys2Proof.Machine.execPortStart tag s
  | .portStop tag => Sys2Proof.Machine.execPortStop tag s
  | .engineStart tag => Sys2Proof.Machine.execEngineStart tag s
  | .engineStop tag => Sys2Proof.Machine.execEngineStop tag s
  | .cmdBeat tag => Sys2Proof.Machine.execCmdBeat tag s
  | .timeSet tag => Sys2Proof.Machine.execTimeSet tag s
  | .codePrepare tag => Sys2Proof.Machine.execCodePrepare tag s
  | .imageLoad tag => Sys2Proof.Machine.execImageLoad tag s
  | .engineSwap tag => Sys2Proof.Machine.execEngineSwap tag s
  | .convSwap tag => Sys2Proof.Machine.execConvSwap tag s
  | .warpFill tag => Sys2Proof.Machine.execWarpFill tag s
  | .ringBind tag => Sys2Proof.Machine.execRingBind tag s
  | .ringUnbind tag => Sys2Proof.Machine.execRingUnbind tag s
  | .calRun tag => Sys2Proof.Machine.execCalRun tag s
  | .memVacate tag => Sys2Proof.Machine.execMemVacate tag s
  | .memRestore tag present known ranks density gib trfc => Sys2Proof.Machine.execMemRestore tag present known ranks density gib trfc s
  | .ringDeliver q => Sys2Proof.Machine.execRingDeliver q s
  | .ringBatchEnd q => Sys2Proof.Machine.execRingBatchEnd q s
  | .consPoll q => Sys2Proof.Machine.execConsPoll q s
  | .consReadDone q v => Sys2Proof.Machine.execConsReadDone q v s
  | .refreshDue k stalled drift => Sys2Proof.Machine.execRefreshDue k stalled drift s
  | .mr4Poll hot => Sys2Proof.Machine.execMr4Poll hot s
  | .dramWriteBack => Sys2Proof.Machine.execDramWriteBack s
  | .parityAlert k again => Sys2Proof.Machine.execParityAlert k again s
  | .patrolScrubRead upset flip => Sys2Proof.Machine.execPatrolScrubRead upset flip s
  | .pageRetireDone => Sys2Proof.Machine.execPageRetireDone s
  | .drmActRankOut v => Sys2Proof.Machine.execDrmActRankOut v s
  | .rankMigrateDone => Sys2Proof.Machine.execRankMigrateDone s
  | .drmActVacate v => Sys2Proof.Machine.execDrmActVacate v s
  | .vacateDone => Sys2Proof.Machine.execVacateDone s
  | .drmActRestore v present known ranks density gib trfc => Sys2Proof.Machine.execDrmActRestore v present known ranks density gib trfc s
  | .restoreDone eyeR eyeW => Sys2Proof.Machine.execRestoreDone eyeR eyeW s
  | .regionFillGo r v => Sys2Proof.Machine.execRegionFillGo r v s
  | .regionFillDone => Sys2Proof.Machine.execRegionFillDone s
  | .moveRequest => Sys2Proof.Machine.execMoveRequest s
  | .moveDone => Sys2Proof.Machine.execMoveDone s
  | .drmRplWrite w v => Sys2Proof.Machine.execDrmRplWrite w v s
  | .srcCurWrite c v => Sys2Proof.Machine.execSrcCurWrite c v s
  | .srcCurModeWrite c v => Sys2Proof.Machine.execSrcCurModeWrite c v s
  | .fadeStep c => Sys2Proof.Machine.execFadeStep c s
  | .busFrameDone miso => Sys2Proof.Machine.execBusFrameDone miso s
  | .blankEnd p => Sys2Proof.Machine.execBlankEnd p s
  | .launchWindowEnd p => Sys2Proof.Machine.execLaunchWindowEnd p s
  | .currentMeasure c vcomp current => Sys2Proof.Machine.execCurrentMeasure c vcomp current s
  | .proofPulse c vcomp current => Sys2Proof.Machine.execProofPulse c vcomp current s
  | .intlkNLow => Sys2Proof.Machine.execIntlkNLow s
  | .permitWrite v => Sys2Proof.Machine.execPermitWrite v s
  | .hbeatToggle => Sys2Proof.Machine.execHbeatToggle s
  | .srcLineDataAccess w => Sys2Proof.Machine.execSrcLineDataAccess w s
  | .stampEdge ix k tap fall => Sys2Proof.Machine.execStampEdge ix k tap fall s
  | .stampDeliver => Sys2Proof.Machine.execStampDeliver s
  | .stampLoss => Sys2Proof.Machine.execStampLoss s
  | .gateOpen g k tap => Sys2Proof.Machine.execGateOpen g k tap s
  | .gateClose g k tap => Sys2Proof.Machine.execGateClose g k tap s
  | .gateMaxLen g => Sys2Proof.Machine.execGateMaxLen g s
  | .tsuGateWrite g v => Sys2Proof.Machine.execTsuGateWrite g v s
  | .spareLineChange => Sys2Proof.Machine.execSpareLineChange s
  | .tsuMapDataAccess w => Sys2Proof.Machine.execTsuMapDataAccess w s
  | .ancEnWrite v => Sys2Proof.Machine.execAncEnWrite v s
  | .entryDelayEnd => Sys2Proof.Machine.execEntryDelayEnd s
  | .conversionEnd v vexc clip => Sys2Proof.Machine.execConversionEnd v vexc clip s
  | .impedanceCheckEnd z => Sys2Proof.Machine.execImpedanceCheckEnd z s
  | .excitationTrip ch current => Sys2Proof.Machine.execExcitationTrip ch current s
  | .ancStale ch => Sys2Proof.Machine.execAncStale ch s
  | .ancTblDataAccess w => Sys2Proof.Machine.execAncTblDataAccess w s
  | .bobStart x => Sys2Proof.Machine.execBobStart x s
  | .bobPause x => Sys2Proof.Machine.execBobPause x s
  | .bobFinish x => Sys2Proof.Machine.execBobFinish x s
  | .bobFlush x => Sys2Proof.Machine.execBobFlush x s
  | .bobAbort x => Sys2Proof.Machine.execBobAbort x s
  | .bobSave x slot => Sys2Proof.Machine.execBobSave x slot s
  | .bobRestore x slot => Sys2Proof.Machine.execBobRestore x slot s
  | .bobItemRead x => Sys2Proof.Machine.execBobItemRead x s
  | .bobOutputDrain x => Sys2Proof.Machine.execBobOutputDrain x s
  | .bobIdleFlush x => Sys2Proof.Machine.execBobIdleFlush x s
  | .bobSaveDone x => Sys2Proof.Machine.execBobSaveDone x s
  | .bobRestoreDone x => Sys2Proof.Machine.execBobRestoreDone x s
  | .calRunStart kind g => Sys2Proof.Machine.execCalRunStart kind g s
  | .calRunEnd kind idx m => Sys2Proof.Machine.execCalRunEnd kind idx m s
  | .calPairEnd kind idx => Sys2Proof.Machine.execCalPairEnd kind idx s
  | .disagreeRetry kind idx => Sys2Proof.Machine.execDisagreeRetry kind idx s
  | .inplaceCheck j sum rail => Sys2Proof.Machine.execInplaceCheck j sum rail s
  | .replicaTimeout => Sys2Proof.Machine.execReplicaTimeout s
  | .calRefWrite v => Sys2Proof.Machine.execCalRefWrite v s
  | .calSave v => Sys2Proof.Machine.execCalSave v s
  | .calSaveDone ok => Sys2Proof.Machine.execCalSaveDone ok s
  | .refCheck measured => Sys2Proof.Machine.execRefCheck measured s
  | .sensorRead t0 t1 t2 t3 v0 v1 v2 v3 v4 => Sys2Proof.Machine.execSensorRead t0 t1 t2 t3 v0 v1 v2 v3 v4 s
  | .powerOnReset => Sys2Proof.Machine.execPowerOnReset s
  | .brownOut => Sys2Proof.Machine.execBrownOut s
  | .perstN => Sys2Proof.Machine.execPerstN s
  | .rstN => Sys2Proof.Machine.execRstN s
  | .flr => Sys2Proof.Machine.execFlr s
  | .coreRst => Sys2Proof.Machine.execCoreRst s
  | .resetRelease pcie noflash => Sys2Proof.Machine.execResetRelease pcie noflash s
  | .bringupStepEnd cc o => Sys2Proof.Machine.execBringupStepEnd cc o s
  | .pllLockTimeout => Sys2Proof.Machine.execPllLockTimeout s
  | .faultClr => Sys2Proof.Machine.execFaultClr s
  | .faultForce => Sys2Proof.Machine.execFaultForce s
  | .supplyFault k => Sys2Proof.Machine.execSupplyFault k s
  | .supplyRecover => Sys2Proof.Machine.execSupplyRecover s
  | .supplyWarn k mv => Sys2Proof.Machine.execSupplyWarn k mv s
  | .sysProfileWrite v => Sys2Proof.Machine.execSysProfileWrite v s
  | .rcRegisterRead r => Sys2Proof.Machine.execRcRegisterRead r s
  | .registerWrite r v => Sys2Proof.Machine.execRegisterWrite r v s
  | .srefReturn => Sys2Proof.Machine.execSrefReturn s
  | .pllRelock => Sys2Proof.Machine.execPllRelock s
  | .intlkNHigh => Sys2Proof.Machine.execIntlkNHigh s
  | .pcieLinkUp speed width => Sys2Proof.Machine.execPcieLinkUp speed width s
  | .calclkLoss => Sys2Proof.Machine.execCalclkLoss s
  | .calclkReturn => Sys2Proof.Machine.execCalclkReturn s
  | .engineSelfCheckFail e => Sys2Proof.Machine.execEngineSelfCheckFail e s
  | .owedRefresh k drift => Sys2Proof.Machine.execOwedRefresh k drift s
  | .tapInstructionLoad ix => Sys2Proof.Machine.execTapInstructionLoad ix s

end Sys2Proof.Machine
end

