-- ==== Sys2Proof/Safety.lean ====
section
/-!
DEFINITION. What counts as a safe run, and the form in which every reachable state holds its stores.
-/

set_option autoImplicit false

namespace Sys2Proof.Machine

/-- A step that answers a next state: neither a fault nor a refusal. -/
def stepsOn (s : State) : Prop := ∃ t, step s = Host.Outcome.next t

/-- A run of `n` steps that never faults and never refuses. -/
def safeRun : Nat → State → Prop
  | 0, _ => True
  | n + 1, s => ∃ t, step s = Host.Outcome.next t ∧ safeRun n t

/-- The stores of the register fields and of the Warp store are in their canonical form: keys strictly rising and, in the Warp
store, no word listed that an unlisted one reads as. -/
def State.canon (s : State) : Bool :=
  Smap.rising none s.csr && Smap.rising none s.inf && Smap.rising none s.queues && Smap.wf bareWord s.warp.words

/-! ### What a command leaves as it was -/

/-- The parts of the state beside the register fields and the count of free values. -/
inductive Part where
  | pending | now | inf | out | tod | ports | reed | gauge | heddle | spc | trd | src | cal | warp | queues | host | rings | sht
  | dram | tsu | anc | bob | sys
deriving DecidableEq, Repr

/-- The same content in a part of two states. -/
def Part.same (p : Part) (s t : State) : Prop :=
  match p with
  | .pending => t.pending = s.pending
  | .now => t.now = s.now
  | .inf => t.inf = s.inf
  | .out => t.out = s.out
  | .tod => t.tod = s.tod
  | .ports => t.ports = s.ports
  | .reed => t.reed = s.reed
  | .gauge => t.gauge = s.gauge
  | .heddle => t.heddle = s.heddle
  | .spc => t.spc = s.spc
  | .trd => t.trd = s.trd
  | .src => t.src = s.src
  | .cal => t.cal = s.cal
  | .warp => t.warp = s.warp
  | .queues => t.queues = s.queues
  | .host => t.host = s.host
  | .rings => t.rings = s.rings
  | .sht => t.sht = s.sht
  | .dram => t.dram = s.dram
  | .tsu => t.tsu = s.tsu
  | .anc => t.anc = s.anc
  | .bob => t.bob = s.bob
  | .sys => t.sys = s.sys

/-- A command changed nothing but the parts `ps` and the register fields whose keys are in `ks` (and drew free values). -/
def State.framed (s t : State) (ps : List Part) (ks : List Nat) : Prop :=
  (∀ p : Part, p ∉ ps → p.same s t) ∧ ∀ (f : Fld) (i : Nat), f.key i ∉ ks → rd f i t = rd f i s

/-- A command changed none but the parts `ps`; its register fields are said apart. -/
def State.partsKept (s t : State) (ps : List Part) : Prop := ∀ p : Part, p ∉ ps → p.same s t

/-- The item that a push of data makes, where no injection is armed: its stored word, and the pool slot and number it gets. -/
def pushedItem (q pri d : Nat) (s : State) : QItem :=
  { pri := pri, word := encodeWord d, slot := poolAlloc q (queueOf q s).seq s, seq := (queueOf q s).seq }

/-- The key of the register field that holds the flag of an event (R348). -/
def evtKey (e : Nat) : Nat := EVT_RAW_RAW.key (e / 64)

/-- Whether the flag of an event is set (R348). -/
def evtSet (e : Nat) (s : State) : Bool := bitOf (rd EVT_RAW_RAW (e / 64) s) (e % 64)

/-- The parts an event changes: its message leaves, and the state of its vector. -/
def evtParts : List Part := [.out, .host]

/-- The parts a record, a notice or a log entry changes. -/
def recParts : List Part := [.out, .host, .queues]

/-- The keys of the register fields that pushing to a queue changes: LVL and LOST of the queue, an armed injection, and the flags of the
events of its level and of the pool. -/
def pushKeys (q : Nat) : List Nat :=
  [WFQ_STAT_LVL.key q, WFQ_STAT_LOST.key q, WRP_INJ_ADDR_ARM.key 0, evtKey (qEvent q), evtKey 120]

/-- The keys of the register fields that an event record of queue 56 changes (R373). -/
def recKeys : List Nat := pushKeys 56

/-- The keys of the register fields that a violation-log entry changes (R375, R350). -/
def logKeys : List Nat := evtKey 20 :: pushKeys 57

/-- The keys of the register fields that show the proof pulses of the eight channels off (R435). -/
def proofKeys : List Nat := (List.range 8).map (fun c => SRC_CUR_STAT_PROOF_OFF.key c)

/-- The keys of the register fields that count the tick handlers skipped by each logical engine (R251). -/
def skipKeys : List Nat := (List.range 32).map (fun l => SHT_LCNT_SKIPPED.key l)

/-! ### A phase cell -/

/-- The compressed word of shed sample `z` of one polarisation, from the codes that a cell's command carries (R96, R98). -/
def wordAt (y : PortPick) (first : Nat) (codes : Codes) (pol z : Nat) : Comp :=
  compress y (replicaOf y.bank) pol z (samplesOf y first codes pol z (nCodeOf y.bank))

/-- The products of the terms of a cell whose span begins at shed sample `z`, both polarisations (R116). -/
def spanProds (y : PortPick) (first : Nat) (codes : Codes) (z w g : Nat) : List (Int × Int) :=
  (List.range w).map (fun m => gaugeProd (wordAt y first codes 0 (z + m + g)) (wordAt y first codes 0 (z + m))) ++
    (List.range w).map (fun m => gaugeProd (wordAt y first codes 1 (z + m + g)) (wordAt y first codes 1 (z + m)))

/-- The sum of complex integers. -/
def sumProds (l : List (Int × Int)) : Int × Int := l.foldl (fun (z : Int × Int) p => (z.1 + p.1, z.2 + p.2)) (0, 0)

/-- The share of its increment that a pick has placed once it reaches the grid point `i` that it closes (R157). -/
def shareTo (f : Int) (sp : SpanInfo) (i : Nat) : Int :=
  ratRound (mkRat (f * 65536 * (sp.points.getD i 0 - sp.prev.getD sp.tn)) (sp.tn - sp.prev.getD sp.tn).toNat)

/-! ### Commands of the host -/

/-- The command of a tag is queued with an opcode, may start, and no other command in flight has its tag (R338, R339). -/
abbrev State.starts (s : State) (op : Nat) (tag : Byte) (c : Cmd) : Prop :=
  startable tag.toNat s = some c ∧ c.opcode = op ∧ s.host.cmds.filter (fun e => decide (e.tag = tag.toNat)) = [c]

/-- A command has ended with one outcome, and its completion waits behind those that waited (R340, R346). -/
def State.answered (s t : State) (c : Cmd) (status detail result : Nat) : Prop :=
  t.host.cplWait = s.host.cplWait ++ [cplOf c status detail result]

/-- A command runs and waits for the thing `aux` names. -/
def State.waits (t : State) (c : Cmd) (aux : Nat) : Prop := { c with phase := .running, aux := aux } ∈ t.host.cmds

/-! ### What an instruction of an engine leaves as it was -/

/-- `y` is the engine `x` after an instruction that moves on and writes no register but the scalar registers `ws` and the status bits
`bs`. -/
def Eng.scalarOnly (x y : Eng) (ws : List (BitVec 5)) (bs : List Nat) : Prop :=
  y = { x.advance with w := y.w, st := y.st } ∧ (∀ r : BitVec 5, r ∉ ws → y.reg r = x.reg r) ∧ ∀ b : Nat, b ∉ bs → y.bit b = x.bit b

/-- `y` is the engine `x` after an instruction that moves on and writes no register but the lane registers `vs` and the status bits
`bs`. -/
def Eng.laneOnly (x y : Eng) (vs : List (BitVec 4)) (bs : List Nat) : Prop :=
  y = { x.advance with v := y.v, st := y.st } ∧ (∀ (u : BitVec 4) (i : Nat), i < 4 → u ∉ vs → y.lane u i = x.lane u i)
    ∧ ∀ b : Nat, b ∉ bs → y.bit b = x.bit b

/-- `y` is the engine `x` after an instruction that moves on and writes no register but the accumulator `a` and the status bits `bs`. -/
def Eng.accOnly (x y : Eng) (a : BitVec 2) (bs : List Nat) : Prop :=
  y = { x.advance with ac := y.ac, st := y.st } ∧ (∀ (c : BitVec 2) (i : Nat), i < 4 → c ≠ a → y.acc1 c i = x.acc1 c i)
    ∧ ∀ b : Nat, b ∉ bs → y.bit b = x.bit b

end Sys2Proof.Machine
end

