-- ==== Sys2Proof/Certificates/Slice0/Obligations.lean ====
section
/-!
DEFINITION. The statements for the provers, by the rules of the spec they formalise. `State.framed` says what a command leaves as it was:
every part of the state but those listed, and every register field but those whose keys are listed.
-/

set_option autoImplicit false

open Sys2Proof Sys2Proof.Machine

/-! ### Steps -/

/-- A command runs from the front of the queue (R336); on an empty queue one core cycle passes (the model's choice, log entry 2). -/
def Obligations.StepRunsFrontCommand : Prop :=
  (∀ (c : Instr) (s : State), step { s with pending := c :: s.pending } = exec c s) ∧
  (∀ (c : Instr) (rest : List Instr) (s : State), s.pending = c :: rest → step s = exec c { s with pending := rest }) ∧
  (∀ s : State, s.pending = [] → step s = .next { s with now := s.now + 1 })

/-! ### Chronov: scalar instructions -/

/-- R279: add, sub, adds, subs, cmp and abs on every engine and every operand: the result, Z and N of it, C and V or SV. -/
def Obligations.ScalarArithmetic : Prop :=
  ∀ (e : Fin 34) (wd wa : BitVec 5) (b : OpB) (s : State) (x : Eng) (p q : Nat) (P Q : Int),
    x = engOf e s → p = x.reg wa → q = x.opb b → P = sx 48 p → Q = sx 48 q →
    (issues e (encA 0x01 wd wa b) s = true → ∃ y, exec (.add e wd wa b) s = .next (setEng e y s) ∧
      x.scalarOnly y [wd] [0, 1, 2, 3] ∧ y.reg wd = (p + q) % 2 ^ 48 ∧ y.bit 0 = decide (y.reg wd = 0) ∧
      y.bit 1 = bitOf (y.reg wd) 47 ∧ y.bit 2 = decide (2 ^ 48 ≤ p + q) ∧ y.bit 3 = decide (P + Q < -2 ^ 47 ∨ 2 ^ 47 ≤ P + Q)) ∧
    (issues e (encA 0x02 wd wa b) s = true → ∃ y, exec (.sub e wd wa b) s = .next (setEng e y s) ∧
      x.scalarOnly y [wd] [0, 1, 2, 3] ∧ y.reg wd = ux 48 ((p : Int) - q) ∧ y.bit 0 = decide (y.reg wd = 0) ∧
      y.bit 1 = bitOf (y.reg wd) 47 ∧ y.bit 2 = decide (p < q) ∧ y.bit 3 = decide (P - Q < -2 ^ 47 ∨ 2 ^ 47 ≤ P - Q)) ∧
    (issues e (encA 0x0B 0 wa b) s = true → ∃ y, exec (.cmp e wa b) s = .next (setEng e y s) ∧
      x.scalarOnly y [] [0, 1, 2, 3] ∧ y.bit 0 = decide (ux 48 ((p : Int) - q) = 0) ∧
      y.bit 1 = bitOf (ux 48 ((p : Int) - q)) 47 ∧ y.bit 2 = decide (p < q) ∧
      y.bit 3 = decide (P - Q < -2 ^ 47 ∨ 2 ^ 47 ≤ P - Q)) ∧
    (issues e (encA 0x03 wd wa b) s = true → ∃ y, exec (.adds e wd wa b) s = .next (setEng e y s) ∧
      x.scalarOnly y [wd] [0, 1, 3, 4] ∧ y.reg wd = ux 48 (max (-2 ^ 47) (min (2 ^ 47 - 1) (P + Q))) ∧
      y.bit 0 = decide (y.reg wd = 0) ∧ y.bit 1 = bitOf (y.reg wd) 47 ∧
      y.bit 3 = decide (P + Q < -2 ^ 47 ∨ 2 ^ 47 ≤ P + Q) ∧ y.bit 4 = (x.bit 4 || y.bit 3)) ∧
    (issues e (encA 0x04 wd wa b) s = true → ∃ y, exec (.subs e wd wa b) s = .next (setEng e y s) ∧
      x.scalarOnly y [wd] [0, 1, 3, 4] ∧ y.reg wd = ux 48 (max (-2 ^ 47) (min (2 ^ 47 - 1) (P - Q))) ∧
      y.bit 0 = decide (y.reg wd = 0) ∧ y.bit 1 = bitOf (y.reg wd) 47 ∧
      y.bit 3 = decide (P - Q < -2 ^ 47 ∨ 2 ^ 47 ≤ P - Q) ∧ y.bit 4 = (x.bit 4 || y.bit 3)) ∧
    (issues e (encA 0x0E wd wa (.reg 0)) s = true → ∃ y, exec (.abs e wd wa) s = .next (setEng e y s) ∧
      x.scalarOnly y [wd] [0, 1, 4] ∧ y.reg wd = (if P = -2 ^ 47 then 2 ^ 47 - 1 else P.natAbs) ∧
      y.bit 0 = decide (y.reg wd = 0) ∧ y.bit 1 = bitOf (y.reg wd) 47 ∧ y.bit 4 = (x.bit 4 || decide (P = -2 ^ 47)))

/-- R279: the instructions whose flags are Z and N alone: the low 48 bits of the bitwise, shift, minimum, maximum and product results.
R279: div, with both of its corners; nrm; nop. What the spec leaves open in it is the model's choice: log entry 1. -/
def Obligations.ScalarLogicAndDivision : Prop :=
  (∀ (e : Fin 34) (wd wa : BitVec 5) (b : OpB) (s : State) (x : Eng) (p q : Nat) (P Q : Int),
    x = engOf e s → p = x.reg wa → q = x.opb b → P = sx 48 p → Q = sx 48 q →
    ∀ t ∈ ([(.and e wd wa b, 0x05, Nat.land p q % 2 ^ 48), (.or e wd wa b, 0x06, Nat.lor p q % 2 ^ 48),
        (.xor e wd wa b, 0x07, Nat.xor p q % 2 ^ 48),
        (.shl e wd wa b, 0x08, if 48 ≤ q % 64 then 0 else p * 2 ^ (q % 64) % 2 ^ 48),
        (.shr e wd wa b, 0x09, if 48 ≤ q % 64 then 0 else p / 2 ^ (q % 64) % 2 ^ 48),
        (.sar e wd wa b, 0x0A, ux 48 (if 48 ≤ q % 64 then (if P < 0 then -1 else 0) else P / 2 ^ (q % 64))),
        (.min e wd wa b, 0x0C, ux 48 (min P Q)), (.max e wd wa b, 0x0D, ux 48 (max P Q)),
        (.mul e wd wa b, 0x10, ux 48 (P * Q)), (.mulh e wd wa b, 0x11, ux 48 (P * Q / 2 ^ 48))] : List (Instr × Nat × Nat)),
      issues e (encA t.2.1 wd wa b) s = true → ∃ y, exec t.1 s = .next (setEng e y s) ∧ x.scalarOnly y [wd] [0, 1] ∧
        y.reg wd = t.2.2 ∧ y.bit 0 = decide (y.reg wd = 0) ∧ y.bit 1 = bitOf (y.reg wd) 47) ∧
  (∀ (e : Fin 34) (wd wa : BitVec 5) (b : OpB) (s : State) (x : Eng) (P Q : Int) (k : Nat),
    x = engOf e s → P = sx 48 (x.reg wa) → Q = sx 48 (x.opb b) →
    (issues e (encA 0x12 wd wa b) s = true → ∃ y, exec (.div e wd wa b) s = .next (setEng e y s) ∧
      x.scalarOnly y [wd] [0, 1, 4] ∧
      y.reg wd = ux 48 (if Q = 0 then (if 0 ≤ P then 2 ^ 47 - 1 else -2 ^ 47)
        else if P = -2 ^ 47 ∧ Q = -1 then 2 ^ 47 - 1 else P.tdiv Q) ∧
      y.bit 0 = decide (y.reg wd = 0) ∧ y.bit 1 = bitOf (y.reg wd) 47 ∧
      y.bit 4 = (x.bit 4 || decide (Q = 0 ∨ P = -2 ^ 47 ∧ Q = -1))) ∧
    (issues e (encA 0x0F wd wa (.reg 0)) s = true →
      (k ≤ 47 ∧ -2 ^ (47 - k) ≤ P ∧ P < 2 ^ (47 - k) ∧ (k < 47 → ¬ (-2 ^ (46 - k) ≤ P ∧ P < 2 ^ (46 - k)))) →
      ∃ y, exec (.nrm e wd wa) s = .next (setEng e y s) ∧
        x.scalarOnly y [wd] [0] ∧ y.reg wd = k ∧ y.bit 0 = decide (k = 0)) ∧
    (issues e (chOp 0x00 0) s = true → exec (.nop e) s = .next (setEng e x.advance s)))

/-- R279: movi, movh, vget, vset and vbc move values and change no status bit. R274, R276, R280: what mfs reads of each special register,
and what mts writes. -/
def Obligations.MovesAndSpecialRegisters : Prop :=
  (∀ (e : Fin 34) (w : BitVec 5) (v : BitVec 4) (l : BitVec 2) (imm : BitVec 24) (s : State) (x : Eng), x = engOf e s →
    (issues e (encK 0x13 w imm) s = true → ∃ y, exec (.movi e w imm) s = .next (setEng e y s) ∧
      x.scalarOnly y [w] [] ∧ y.reg w = ux 48 imm.toInt) ∧
    (issues e (encK 0x14 w imm) s = true → ∃ y, exec (.movh e w imm) s = .next (setEng e y s) ∧
      x.scalarOnly y [w] [] ∧ y.reg w = imm.toNat * 2 ^ 24 + x.reg w % 2 ^ 24) ∧
    (issues e (encE 0x17 w v l) s = true → ∃ y, exec (.vget e w v l) s = .next (setEng e y s) ∧
      x.scalarOnly y [w] [] ∧ y.reg w = x.lane v l.toNat % 2 ^ 48) ∧
    (issues e (encE 0x18 w v l) s = true → ∃ y, exec (.vset e w v l) s = .next (setEng e y s) ∧
      x.laneOnly y [v] [] ∧ ∀ i : Nat, i < 4 → y.lane v i = if i = l.toNat then x.reg w % 2 ^ 48 else x.lane v i) ∧
    (issues e (encE 0x19 w v 0) s = true → ∃ y, exec (.vbc e w v) s = .next (setEng e y s) ∧
      x.laneOnly y [v] [] ∧ ∀ i : Nat, i < 4 → y.lane v i = x.reg w % 2 ^ 48)) ∧
  (∀ (e : Fin 34) (w : BitVec 5) (n : BitVec 6) (s : State) (x : Eng), x = engOf e s →
    (n.toNat < 24 → issues e (encS 0x15 w n) s = true → ∃ y, exec (.mfs e w n) s = .next (setEng e y s) ∧ x.scalarOnly y [w] [] ∧
      (n.toNat < 8 → y.reg w = x.p.get 0 n.toNat % 2 ^ 48) ∧
      (8 ≤ n.toNat → n.toNat < 16 → y.reg w = x.m.get 0 (n.toNat - 8) % 2 ^ 48) ∧
      (16 ≤ n.toNat → n.toNat < 20 → y.reg w = x.lc.get 0 (n.toNat - 16) % 2 ^ 48) ∧
      (n.toNat = 20 → y.reg w = (x.st + x.reps.length % 8 * 2 ^ 16) % 2 ^ 48) ∧
      (n.toNat = 21 → y.reg w = s.now % 2 ^ 48) ∧
      (n.toNat = 22 → y.reg w = rd SYS_PICK_NUM_NUM 0 s % 2 ^ 48) ∧
      (n.toNat = 23 → ∀ l : Nat, l < 32 → servedBy e s = some l → y.reg w = e.val * 2 ^ 8 + l)) ∧
    (n.toNat < 21 → issues e (encS 0x16 w n) s = true → ∃ y, exec (.mts e w n) s = .next (setEng e y s) ∧
      (∀ r : BitVec 5, y.reg r = x.reg r) ∧ y.v = x.v ∧ y.ac = x.ac ∧ y.loom = x.loom ∧ y.acc = x.acc ∧
      (∀ k : Nat, k < 8 → y.p.get 0 k = if k = n.toNat then x.reg w % 2 ^ 16 else x.p.get 0 k) ∧
      (∀ k : Nat, k < 8 → y.m.get 0 k = if k + 8 = n.toNat then Nat.land (x.reg w) 0x80FFFF00FFFF else x.m.get 0 k) ∧
      (x.reps = [] → ∀ k : Nat, k < 4 → y.lc.get 0 k = if k + 16 = n.toNat then x.reg w % 2 ^ 17 else x.lc.get 0 k) ∧
      (y.st = if n.toNat = 20 then Nat.land (x.reg w) 0xFF7F else x.st)))

/-! ### Chronov: loom memory and pointers -/

/-- R275, R281: loads and stores through a loom descriptor whose address forms and whose words are neither owed by an ldq nor
uncorrectable. A load gives what a word decodes to, a bare word reads as zero, sets BR and is counted; a store writes each word with
its check bits and no other loom word. R276, R281: lw.a and sw.a name their word; pset and pmod write one pointer; pmod applies next(a,
m) to its pointer. R276: next(a, m) with a linear, a modulo and a bit-reversing modifier, and both misuses. What the spec leaves open
in it is the model's choice: log entry 54. -/
def Obligations.LoomTransfers : Prop :=
  (∀ (e : Fin 34) (w : BitVec 5) (v : BitVec 4) (o : LoomOp) (s : State) (x : Eng) (a q : Nat),
    x = engOf e s → loomAddr x o = .ok (a, q) → (∀ k ∈ loomSpan o a, x.owed k = false) →
    (issues e (encL 0x20 w o) s = true → o.g = false → ∀ d : Nat, decodeWord (x.loom.get bareWord a) = .clean d →
      ∃ y, exec (.lw e w o) s = .next (setEng e y s) ∧ (x.updP o q).scalarOnly y [w] [] ∧ y.reg w = d % 2 ^ 48) ∧
    (issues e (encL 0x20 w o) s = true → o.g = false → decodeWord (x.loom.get bareWord a) = .bare →
      ∃ y, exec (.lw e w o) s = .next (bump WRP_CNT_BARE_READS 0 (setEng e y s)) ∧ (x.updP o q).scalarOnly y [w] [5] ∧
        y.reg w = 0 ∧ y.bit 5 = true) ∧
    (issues e (encLV 0x24 v o) s = true → o.g = true → ∀ d : Nat → Nat,
      (∀ i : Nat, i < 4 → decodeWord (x.loom.get bareWord (a + i)) = .clean (d i)) →
      ∃ y, exec (.lv e v o) s = .next (setEng e y s) ∧ (x.updP o q).laneOnly y [v] [] ∧
        ∀ i : Nat, i < 4 → y.lane v i = d i % 2 ^ 48) ∧
    (issues e (encLV 0x24 v o) s = true → o.g = false → ∀ d : Nat, decodeWord (x.loom.get bareWord a) = .clean d →
      ∃ y, exec (.lv e v o) s = .next (setEng e y s) ∧ (x.updP o q).laneOnly y [v] [] ∧
        ∀ i : Nat, i < 4 → y.lane v i = d % 2 ^ 48) ∧
    (issues e (encL 0x21 w o) s = true → o.g = false → ∃ y, exec (.sw e w o) s = .next (setEng e y s) ∧
      y = { (x.updP o q).advance with loom := y.loom } ∧
      ∀ k : Nat, y.loom.get bareWord k = if k = a then encodeWord (x.reg w) else x.loom.get bareWord k) ∧
    (issues e (encLV 0x25 v o) s = true → ∃ y, exec (.sv e v o) s = .next (setEng e y s) ∧
      y = { (x.updP o q).advance with loom := y.loom } ∧
      ∀ k : Nat, y.loom.get bareWord k =
        if k ∈ loomSpan o a then encodeWord (x.lane v (k - a)) else x.loom.get bareWord k)) ∧
  (∀ (e : Fin 34) (w : BitVec 5) (a : BitVec 16) (p m : BitVec 3) (s : State) (x : Eng), x = engOf e s →
    (issues e (encLA 0x22 w a) s = true → x.owed a.toNat = false → ∀ d : Nat,
      decodeWord (x.loom.get bareWord a.toNat) = .clean d →
      ∃ y, exec (.lwA e w a) s = .next (setEng e y s) ∧ x.scalarOnly y [w] [] ∧ y.reg w = d % 2 ^ 48) ∧
    (issues e (encLA 0x23 w a) s = true → x.owed a.toNat = false →
      ∃ y, exec (.swA e w a) s = .next (setEng e y s) ∧ y = { x.advance with loom := y.loom } ∧
      ∀ k : Nat, y.loom.get bareWord k = if k = a.toNat then encodeWord (x.reg w) else x.loom.get bareWord k) ∧
    (issues e (encP 0x26 p 0 a) s = true → ∃ y, exec (.pset e p a) s = .next (setEng e y s) ∧
      y = { x.advance with p := y.p } ∧ ∀ k : Nat, y.p.get 0 k = if k = p.toNat then a.toNat else x.p.get 0 k) ∧
    (issues e (encP 0x27 p m 0) s = true → ∀ c : Nat, nextPtr (x.p.get 0 p.toNat) (x.m.get 0 m.toNat) = some c →
      ∃ y, exec (.pmod e p m) s = .next (setEng e y s) ∧ y = { x.advance with p := y.p } ∧
        ∀ k : Nat, y.p.get 0 k = if k = p.toNat then c % 65536 else x.p.get 0 k) ∧
    (issues e (encP 0x27 p m 0) s = true → nextPtr (x.p.get 0 p.toNat) (x.m.get 0 m.toNat) = none →
      exec (.pmod e p m) s = .next (engineFault e 6 x.pc s))) ∧
  (∀ (a m k : Nat), a < 65536 → m < 2 ^ 48 →
    (m / 2 ^ 47 = 0 → m / 2 ^ 24 % 2 ^ 16 = 0 → nextPtr a m = some ((a + m % 2 ^ 16) % 65536)) ∧
    (m / 2 ^ 47 = 0 → 2 ^ k < 2 * (m / 2 ^ 24 % 2 ^ 16) → m / 2 ^ 24 % 2 ^ 16 ≤ 2 ^ k →
      nextPtr a m = if m / 2 ^ 24 % 2 ^ 16 ≤ a % 2 ^ k then none
        else some (a - a % 2 ^ k + (((a % 2 ^ k : Nat) + sx 16 m) % ((m / 2 ^ 24 % 2 ^ 16 : Nat) : Int)).toNat)) ∧
    (m / 2 ^ 47 = 1 → (∀ j : Nat, 1 ≤ j → j ≤ 15 → m / 2 ^ 24 % 2 ^ 16 ≠ 2 ^ j) → nextPtr a m = none) ∧
    (m / 2 ^ 47 = 1 → 1 ≤ k → k ≤ 15 → m / 2 ^ 24 % 2 ^ 16 = 2 ^ k →
      nextPtr a m = some (a - a % 2 ^ k + revBits ((revBits (a % 2 ^ k) k + revBits (m % 2 ^ 16 % 2 ^ k) k) % 2 ^ k) k)))

/-! ### Chronov: vectors and accumulators -/

/-- R281, R282: a lane register as a vector source gives its lanes; a loom source follows lv. One instruction's sources are read together
and the engine keeps all but pointers, corrected loom words and BR. R282: the two-source instructions, lane by lane: modulo and
saturating sums and differences, bitwise results, minimum and maximum; SV is set when a lane, or a half of one, saturates. -/
def Obligations.VectorLanes : Prop :=
  (∀ (x z : Eng) (u v : BitVec 4) (l : List (List Nat)) (srcs : List VSrc) (n : Nat) (o : LoomOp) (a q : Nat) (d : Nat → Nat),
    readSrcs x x [.reg u, .reg v] = .ok ([x.lanes u, x.lanes v], x, 0) ∧
    (readSrcs x x srcs = .ok (l, z, n) → z = { x with p := z.p, loom := z.loom, st := z.st } ∧ l.length = srcs.length ∧
      ∀ b : Nat, b ≠ 5 → z.bit b = x.bit b) ∧
    (loomAddr x o = .ok (a, q) → (∀ k ∈ loomSpan o a, x.owed k = false) →
      (∀ k ∈ loomSpan o a, decodeWord (x.loom.get bareWord k) = .clean (d (k - a))) →
      readSrcs x x [.loom o] = .ok ([if o.g then [d 0, d 1, d 2, d 3] else [d 0, d 0, d 0, d 0]], x.updP o q, 0))) ∧
  (∀ (e : Fin 34) (vd : BitVec 4) (s1 s2 : VSrc) (s : State) (x z : Eng) (l1 l2 : List Nat) (n : Nat),
    x = engOf e s → readSrcs x x [s1, s2] = .ok ([l1, l2], z, n) → l1.length = 4 → l2.length = 4 →
    (∀ t ∈ ([(.vadd e vd s1 s2, 0x30, fun a b => (a + b) % 2 ^ 48), (.vsub e vd s1 s2, 0x31, fun a b => ux 48 ((a : Int) - b)),
        (.vand e vd s1 s2, 0x36, fun a b => Nat.land a b % 2 ^ 48), (.vor e vd s1 s2, 0x37, fun a b => Nat.lor a b % 2 ^ 48),
        (.vxor e vd s1 s2, 0x38, fun a b => Nat.xor a b % 2 ^ 48),
        (.vmin e vd s1 s2, 0x3B, fun a b => ux 48 (min (sx 48 a) (sx 48 b))),
        (.vmax e vd s1 s2, 0x3C, fun a b => ux 48 (max (sx 48 a) (sx 48 b)))] : List (Instr × Nat × (Nat → Nat → Nat))),
      issues e (encV t.2.1 vd s1 s2 0) s = true → ∃ y, exec t.1 s = .next (bumpBy WRP_CNT_BARE_READS 0 n (setEng e y s)) ∧
        z.laneOnly y [vd] [] ∧ ∀ i : Nat, i < 4 → y.lane vd i = t.2.2 (l1.getD i 0) (l2.getD i 0)) ∧
    (∀ t ∈ ([(.vadds e vd s1 s2, 0x32, fun a b => a + b), (.vsubs e vd s1 s2, 0x33, fun a b => a - b)] :
        List (Instr × Nat × (Int → Int → Int))),
      issues e (encV t.2.1 vd s1 s2 0) s = true → ∃ y, exec t.1 s = .next (bumpBy WRP_CNT_BARE_READS 0 n (setEng e y s)) ∧
        z.laneOnly y [vd] [4] ∧
        (∀ i : Nat, i < 4 → y.lane vd i =
          ux 48 (max (-2 ^ 47) (min (2 ^ 47 - 1) (t.2.2 (sx 48 (l1.getD i 0)) (sx 48 (l2.getD i 0)))))) ∧
        (y.bit 4 = true ↔ z.bit 4 = true ∨ ∃ i : Nat, i < 4 ∧
          (t.2.2 (sx 48 (l1.getD i 0)) (sx 48 (l2.getD i 0)) < -2 ^ 47 ∨ 2 ^ 47 ≤ t.2.2 (sx 48 (l1.getD i 0)) (sx 48 (l2.getD i 0))))) ∧
    (∀ t ∈ ([(.vaddh e vd s1 s2, 0x34, fun a b => a + b), (.vsubh e vd s1 s2, 0x35, fun a b => a - b)] :
        List (Instr × Nat × (Int → Int → Int))),
      issues e (encV t.2.1 vd s1 s2 0) s = true → ∃ y, exec t.1 s = .next (bumpBy WRP_CNT_BARE_READS 0 n (setEng e y s)) ∧
        z.laneOnly y [vd] [4] ∧ ∀ re im : Nat → Int,
          (∀ i : Nat, re i = t.2.2 (sx 24 (l1.getD i 0 / 2 ^ 24)) (sx 24 (l2.getD i 0 / 2 ^ 24))) →
          (∀ i : Nat, im i = t.2.2 (sx 24 (l1.getD i 0)) (sx 24 (l2.getD i 0))) →
          (∀ i : Nat, i < 4 → y.lane vd i = ux 24 (max (-2 ^ 23) (min (2 ^ 23 - 1) (re i))) * 2 ^ 24
            + ux 24 (max (-2 ^ 23) (min (2 ^ 23 - 1) (im i)))) ∧
          (y.bit 4 = true ↔ z.bit 4 = true ∨ ∃ i : Nat, i < 4 ∧
            (re i < -2 ^ 23 ∨ 2 ^ 23 ≤ re i ∨ im i < -2 ^ 23 ∨ 2 ^ 23 ≤ im i))))

/-- R282: the one-source instructions, vcmp, vsel and vsum. -/
def Obligations.VectorShiftsComparesSum : Prop :=
  ∀ (e : Fin 34) (vd : BitVec 4) (wd : BitVec 5) (cc : BitVec 3) (k : BitVec 6) (s1 s2 : VSrc) (s : State) (x z : Eng)
    (l1 l2 : List Nat) (n : Nat), x = engOf e s → l1.length = 4 → l2.length = 4 →
    (readSrcs x x [s1] = .ok ([l1], z, n) →
      (∀ t ∈ ([(.vshl e vd s1 k, 0x39, k.toNat, fun a => if 48 ≤ k.toNat then 0 else a * 2 ^ k.toNat % 2 ^ 48),
          (.vshr e vd s1 k, 0x42, k.toNat, fun a => if 48 ≤ k.toNat then 0 else a / 2 ^ k.toNat % 2 ^ 48),
          (.vsar e vd s1 k, 0x3A, k.toNat,
            fun a => ux 48 (if 48 ≤ k.toNat then (if sx 48 a < 0 then -1 else 0) else sx 48 a / 2 ^ k.toNat))] :
          List (Instr × Nat × Nat × (Nat → Nat))),
        issues e (encV t.2.1 vd s1 (.reg 0) t.2.2.1) s = true →
        ∃ y, exec t.1 s = .next (bumpBy WRP_CNT_BARE_READS 0 n (setEng e y s)) ∧ z.laneOnly y [vd] [] ∧
          ∀ i : Nat, i < 4 → y.lane vd i = t.2.2.2 (l1.getD i 0)) ∧
      (issues e (encV 0x3D vd s1 (.reg 0) 0) s = true →
        ∃ y, exec (.vabs e vd s1) s = .next (bumpBy WRP_CNT_BARE_READS 0 n (setEng e y s)) ∧ z.laneOnly y [vd] [4] ∧
          (∀ i : Nat, i < 4 → y.lane vd i =
            if sx 48 (l1.getD i 0) = -2 ^ 47 then 2 ^ 47 - 1 else (sx 48 (l1.getD i 0)).natAbs) ∧
          (y.bit 4 = true ↔ z.bit 4 = true ∨ ∃ i : Nat, i < 4 ∧ sx 48 (l1.getD i 0) = -2 ^ 47)) ∧
      (issues e (encV 0x3E vd s1 (.reg 0) 0) s = true →
        ∃ y, exec (.vconj e vd s1) s = .next (bumpBy WRP_CNT_BARE_READS 0 n (setEng e y s)) ∧ z.laneOnly y [vd] [4] ∧
          (∀ i : Nat, i < 4 → y.lane vd i = l1.getD i 0 / 2 ^ 24 % 2 ^ 24 * 2 ^ 24
            + (if sx 24 (l1.getD i 0) = -2 ^ 23 then 2 ^ 23 - 1 else ux 24 (-(sx 24 (l1.getD i 0))))) ∧
          (y.bit 4 = true ↔ z.bit 4 = true ∨ ∃ i : Nat, i < 4 ∧ sx 24 (l1.getD i 0) = -2 ^ 23)) ∧
      (issues e (encV 0x41 0 s1 (.reg 0) wd.toNat) s = true →
        ∃ y, exec (.vsum e wd s1) s = .next (bumpBy WRP_CNT_BARE_READS 0 n (setEng e y s)) ∧ z.scalarOnly y [wd] [0, 1] ∧
          y.reg wd = (l1.getD 0 0 + l1.getD 1 0 + l1.getD 2 0 + l1.getD 3 0) % 2 ^ 48 ∧
          y.bit 0 = decide (y.reg wd = 0) ∧ y.bit 1 = bitOf (y.reg wd) 47)) ∧
    (readSrcs x x [s1, s2] = .ok ([l1, l2], z, n) →
      (cc.toNat < 6 → issues e (encV 0x3F 0 s1 s2 cc.toNat) s = true →
        ∃ y, exec (.vcmp e cc s1 s2) s = .next (bumpBy WRP_CNT_BARE_READS 0 n (setEng e y s)) ∧
          z.laneOnly y [] [8, 9, 10, 11] ∧ ∀ i : Nat, i < 4 → (y.bit (8 + i) = true ↔
            (cc.toNat = 0 ∧ sx 48 (l1.getD i 0) = sx 48 (l2.getD i 0)) ∨ (cc.toNat = 1 ∧ sx 48 (l1.getD i 0) ≠ sx 48 (l2.getD i 0)) ∨
            (cc.toNat = 2 ∧ sx 48 (l1.getD i 0) < sx 48 (l2.getD i 0)) ∨ (cc.toNat = 3 ∧ sx 48 (l2.getD i 0) ≤ sx 48 (l1.getD i 0)) ∨
            (cc.toNat = 4 ∧ sx 48 (l2.getD i 0) < sx 48 (l1.getD i 0)) ∨ (cc.toNat = 5 ∧ sx 48 (l1.getD i 0) ≤ sx 48 (l2.getD i 0)))) ∧
      (issues e (encV 0x40 vd s1 s2 0) s = true →
        ∃ y, exec (.vsel e vd s1 s2) s = .next (bumpBy WRP_CNT_BARE_READS 0 n (setEng e y s)) ∧ z.laneOnly y [vd] [] ∧
          ∀ i : Nat, i < 4 → y.lane vd i = (if z.bit (8 + i) then l1.getD i 0 else l2.getD i 0) % 2 ^ 48))

/-- R283: the multiply-accumulates on every lane: mac.c with conjugation and negation, mac.r, mac.p, clrac, and the loads of an
accumulator. SV is set when a lane saturates. R283: scaling by 2^-SH rounds half away from zero before it saturates: rnd.c, rnd.r,
acred.r and acred.c. -/
def Obligations.Accumulators : Prop :=
  (∀ (e : Fin 34) (ac : BitVec 2) (va : BitVec 4) (sh : BitVec 6) (s1 s2 : VSrc) (cj ng clr : Bool) (s : State) (x z : Eng)
    (l1 l2 : List Nat) (n : Nat) (sat56 sat104 : Int → Int), x = engOf e s →
    (∀ r : Int, sat56 r = max (-2 ^ 55) (min (2 ^ 55 - 1) r)) → (∀ r : Int, sat104 r = max (-2 ^ 103) (min (2 ^ 103 - 1) r)) →
    (readSrcs x x [s1, s2] = .ok ([l1, l2], z, n) → issues e (encM 0x48 ac s1 s2 cj ng clr) s = true →
      ∃ y, exec (.macC e ac s1 s2 cj ng clr) s = .next (bumpBy WRP_CNT_BARE_READS 0 n (setEng e y s)) ∧ z.accOnly y ac [4] ∧
        ∀ xi xq yi yq re im : Nat → Int,
          (∀ i : Nat, xi i = sx 24 (l1.getD i 0 / 2 ^ 24)) → (∀ i : Nat, xq i = sx 24 (l1.getD i 0)) →
          (∀ i : Nat, yi i = sx 24 (l2.getD i 0 / 2 ^ 24)) →
          (∀ i : Nat, yq i = if cj then -(sx 24 (l2.getD i 0)) else sx 24 (l2.getD i 0)) →
          (∀ i : Nat, re i = (if clr then 0 else sx 56 (z.acc1 ac i / 2 ^ 56))
            + (if ng then -(xi i * yi i - xq i * yq i) else xi i * yi i - xq i * yq i)) →
          (∀ i : Nat, im i = (if clr then 0 else sx 56 (z.acc1 ac i))
            + (if ng then -(xi i * yq i + xq i * yi i) else xi i * yq i + xq i * yi i)) →
          (∀ i : Nat, i < 4 → sx 56 (y.acc1 ac i / 2 ^ 56) = sat56 (re i) ∧ sx 56 (y.acc1 ac i) = sat56 (im i)) ∧
          (y.bit 4 = true ↔ z.bit 4 = true ∨ ∃ i : Nat, i < 4 ∧ (sat56 (re i) ≠ re i ∨ sat56 (im i) ≠ im i))) ∧
    (readSrcs x x [s1, s2] = .ok ([l1, l2], z, n) → issues e (encM 0x49 ac s1 s2 false ng clr) s = true →
      ∃ y, exec (.macR e ac s1 s2 ng clr) s = .next (bumpBy WRP_CNT_BARE_READS 0 n (setEng e y s)) ∧ z.accOnly y ac [4] ∧
        ∀ r : Nat → Int, (∀ i : Nat, r i = (if clr then 0 else sx 104 (z.acc1 ac i))
            + (if ng then -(sx 48 (l1.getD i 0) * sx 48 (l2.getD i 0)) else sx 48 (l1.getD i 0) * sx 48 (l2.getD i 0))) →
          (∀ i : Nat, i < 4 → sx 112 (y.acc1 ac i) = sat104 (r i)) ∧
          (y.bit 4 = true ↔ z.bit 4 = true ∨ ∃ i : Nat, i < 4 ∧ sat104 (r i) ≠ r i)) ∧
    (readSrcs x x [s1] = .ok ([l1], z, n) → issues e (encM 0x4A ac s1 (.reg 0) false ng clr) s = true →
      ∃ y, exec (.macP e ac s1 ng clr) s = .next (bumpBy WRP_CNT_BARE_READS 0 n (setEng e y s)) ∧ z.accOnly y ac [4] ∧
        ∀ p r : Nat → Int, (∀ i : Nat, p i = sx 24 (l1.getD i 0 / 2 ^ 24) ^ 2 + sx 24 (l1.getD i 0) ^ 2) →
          (∀ i : Nat, r i = (if clr then 0 else sx 104 (z.acc1 ac i)) + (if ng then -(p i) else p i)) →
          (∀ i : Nat, i < 4 → sx 112 (y.acc1 ac i) = sat104 (r i)) ∧
          (y.bit 4 = true ↔ z.bit 4 = true ∨ ∃ i : Nat, i < 4 ∧ sat104 (r i) ≠ r i)) ∧
    (issues e (encXL 0x4B ac 0 0) s = true → ∃ y, exec (.clrac e ac) s = .next (setEng e y s) ∧ x.accOnly y ac [] ∧
      ∀ i : Nat, i < 4 → y.acc1 ac i = 0) ∧
    (issues e (encXL 0x50 ac va sh) s = true → ∃ y, exec (.ldacR e ac va sh) s = .next (setEng e y s) ∧ x.accOnly y ac [4] ∧
      ∀ r : Nat → Int, (∀ i : Nat, r i = sx 48 (x.lane va i) * 2 ^ sh.toNat) →
        (∀ i : Nat, i < 4 → sx 112 (y.acc1 ac i) = sat104 (r i)) ∧
        (y.bit 4 = true ↔ x.bit 4 = true ∨ ∃ i : Nat, i < 4 ∧ sat104 (r i) ≠ r i)) ∧
    (issues e (encXL 0x51 ac va sh) s = true → ∃ y, exec (.ldacC e ac va sh) s = .next (setEng e y s) ∧ x.accOnly y ac [4] ∧
      ∀ re im : Nat → Int, (∀ i : Nat, re i = sx 24 (x.lane va i / 2 ^ 24) * 2 ^ sh.toNat) →
        (∀ i : Nat, im i = sx 24 (x.lane va i) * 2 ^ sh.toNat) →
        (∀ i : Nat, i < 4 → sx 56 (y.acc1 ac i / 2 ^ 56) = sat56 (re i) ∧ sx 56 (y.acc1 ac i) = sat56 (im i)) ∧
        (y.bit 4 = true ↔ x.bit 4 = true ∨ ∃ i : Nat, i < 4 ∧ (sat56 (re i) ≠ re i ∨ sat56 (im i) ≠ im i)))) ∧
  (∀ (e : Fin 34) (ac : BitVec 2) (vd : BitVec 4) (wd : BitVec 5) (sh : BitVec 6) (s : State) (x : Eng) (rnd : Int → Int)
    (sat24 sat48 : Int → Int) (re im real : Nat → Int), x = engOf e s →
    (∀ z : Int, 0 ≤ z → 2 * z - 2 ^ sh.toNat < 2 ^ (sh.toNat + 1) * rnd z ∧ 2 ^ (sh.toNat + 1) * rnd z ≤ 2 * z + 2 ^ sh.toNat) →
    (∀ z : Int, z < 0 → rnd z = -(rnd (-z))) →
    (∀ r : Int, sat24 r = max (-2 ^ 23) (min (2 ^ 23 - 1) r)) → (∀ r : Int, sat48 r = max (-2 ^ 47) (min (2 ^ 47 - 1) r)) →
    (∀ i : Nat, re i = sx 56 (x.acc1 ac i / 2 ^ 56)) → (∀ i : Nat, im i = sx 56 (x.acc1 ac i)) →
    (∀ i : Nat, real i = sx 104 (x.acc1 ac i)) →
    (issues e (encX 0x4C vd ac sh) s = true → ∃ y, exec (.rndC e vd ac sh) s = .next (setEng e y s) ∧ x.laneOnly y [vd] [4] ∧
      (∀ i : Nat, i < 4 → y.lane vd i = ux 24 (sat24 (rnd (re i))) * 2 ^ 24 + ux 24 (sat24 (rnd (im i)))) ∧
      (y.bit 4 = true ↔ x.bit 4 = true ∨ ∃ i : Nat, i < 4 ∧ (sat24 (rnd (re i)) ≠ rnd (re i) ∨ sat24 (rnd (im i)) ≠ rnd (im i)))) ∧
    (issues e (encX 0x4D vd ac sh) s = true → ∃ y, exec (.rndR e vd ac sh) s = .next (setEng e y s) ∧ x.laneOnly y [vd] [4] ∧
      (∀ i : Nat, i < 4 → y.lane vd i = ux 48 (sat48 (rnd (real i)))) ∧
      (y.bit 4 = true ↔ x.bit 4 = true ∨ ∃ i : Nat, i < 4 ∧ sat48 (rnd (real i)) ≠ rnd (real i))) ∧
    (issues e (encXR 0x4E wd ac sh) s = true → ∀ r : Int, r = rnd (real 0 + real 1 + real 2 + real 3) →
      ∃ y, exec (.acredR e wd ac sh) s = .next (setEng e y s) ∧
      x.scalarOnly y [wd] [0, 1, 4] ∧ y.reg wd = ux 48 (sat48 r) ∧
      y.bit 0 = decide (y.reg wd = 0) ∧ y.bit 1 = bitOf (y.reg wd) 47 ∧ y.bit 4 = (x.bit 4 || decide (sat48 r ≠ r))) ∧
    (issues e (encXR 0x4F wd ac sh) s = true →
      ∀ r q : Int, r = rnd (re 0 + re 1 + re 2 + re 3) → q = rnd (im 0 + im 1 + im 2 + im 3) →
      ∃ y, exec (.acredC e wd ac sh) s = .next (setEng e y s) ∧
      x.scalarOnly y [wd] [4] ∧ y.reg wd = ux 24 (sat24 r) * 2 ^ 24 + ux 24 (sat24 q) ∧
      y.bit 4 = (x.bit 4 || decide (sat24 r ≠ r ∨ sat24 q ≠ q))))

/-! ### Chronov: Warp accesses, queues and control -/

/-- R284, R285: ldq records the quad of its register and the loom group; stq takes the stored form of the group's words at issue, the bare
pattern as it stands; a 17th access waits. R284, R292: wfence issues on when nothing is outstanding and waits otherwise; WFENCE_RELEASE
ends the wait. R245, R285: an outstanding ldq whose quad no earlier access names writes its four loom words, a bare one as the bare
pattern and without BR, and leaves the list; an uncorrectable word leaves them and faults the engine with 0100 at the ldq; an
outstanding stq stores its four words in its quad and no others. What the spec leaves open in it is the model's choice: log entry 6. -/
def Obligations.EngineWarpAccesses : Prop :=
  (∀ (e : Fin 34) (wa : BitVec 5) (o : LoomOp) (s : State) (x : Eng) (a p q : Nat),
    x = engOf e s → o.g = true → loomAddr x o = .ok (a, p) → q = x.reg wa % 2 ^ 23 → (∀ i : Nat, i < 4 → x.owed (a + i) = false) →
    (x.acc.length = 16 →
      (issues e (encL 0x58 wa o) s = true → q < 6291456 → exec (.ldq e wa o) s = .next s) ∧
      (issues e (encL 0x59 wa o) s = true → stqForbidden e q s = false → exec (.stq e wa o) s = .next s)) ∧
    (x.acc.length < 16 → issues e (encL 0x58 wa o) s = true → q < 6291456 → ∃ y, exec (.ldq e wa o) s = .next (setEng e y s) ∧
      y = { (x.updP o p).advance with acc := x.acc ++ [{ store := false, quad := q, loom := a, words := [], pc := x.pc }] }) ∧
    (x.acc.length < 16 → issues e (encL 0x59 wa o) s = true → stqForbidden e q s = false → ∀ d : Nat → Nat,
      (∀ i : Nat, i < 4 → decodeWord (x.loom.get bareWord (a + i)) = .clean (d i)) →
      ∃ y, exec (.stq e wa o) s = .next (setEng e y s) ∧
        y = { (x.updP o p).advance with loom := y.loom, acc := x.acc ++ [{ store := true, quad := q, loom := a, words := [encodeWord (d 0), encodeWord (d 1), encodeWord (d 2), encodeWord (d 3)], pc := x.pc }] } ∧
        ∀ k : Nat, y.loom.get bareWord k = x.loom.get bareWord k) ∧
    (x.acc.length < 16 → issues e (encL 0x59 wa o) s = true → stqForbidden e q s = false →
      (∀ i : Nat, i < 4 → x.loom.get bareWord (a + i) = bareWord) →
      ∃ y, exec (.stq e wa o) s = .next (setEng e y s) ∧
        y = { (x.updP o p).advance with loom := y.loom, acc := x.acc ++ [{ store := true, quad := q, loom := a, words := [bareWord, bareWord, bareWord, bareWord], pc := x.pc }] } ∧
        ∀ k : Nat, y.loom.get bareWord k = x.loom.get bareWord k) ∧
    (issues e (encL 0x58 wa o) s = true → 6291456 ≤ q → exec (.ldq e wa o) s = .next (engineFault e 6 x.pc s)) ∧
    (issues e (encL 0x59 wa o) s = true → stqForbidden e q s = true → exec (.stq e wa o) s = .next (engineFault e 3 x.pc s))) ∧
  (∀ (e : Fin 34) (s : State) (x : Eng), x = engOf e s →
    (issues e (chOp 0x5A 0) s = true → x.acc = [] → exec (.wfence e) s = .next (setEng e x.advance s)) ∧
    (issues e (chOp 0x5A 0) s = true → x.acc ≠ [] → exec (.wfence e) s = .next (setEng e { x with stall := some .fence } s)) ∧
    (x.stall = some .fence → x.acc = [] → exec (.wfenceRelease e) s = .next (setEng e { x with stall := none }.advance s)) ∧
    (x.stall = some .fence → x.acc ≠ [] → exec (.wfenceRelease e) s = .next s)) ∧
  (∀ (e : Fin 34) (k : Fin 16) (s : State) (x : Eng) (a : WarpAccess), x = engOf e s → accessAt e k s = some a → s.warp.fill = none →
    (a.store = false → ∀ d : Nat → Nat, (∀ i : Nat, i < 4 → decodeWord (warpStored (4 * a.quad + i) s) = .clean (d i)) →
      ∃ y, exec (.ldqComplete e k) s = .next (setEng e y s) ∧ y = { x with acc := x.acc.eraseIdx k, loom := y.loom } ∧
        ∀ j : Nat, y.loom.get bareWord j =
          if a.loom ≤ j ∧ j < a.loom + 4 then encodeWord (d (j - a.loom)) else x.loom.get bareWord j) ∧
    (a.store = false → ∀ d : Nat → Nat, (∀ i : Nat, i < 4 → decodeWord (warpStored (4 * a.quad + i) s) = .clean (d i) ∨
        decodeWord (warpStored (4 * a.quad + i) s) = .bare) →
      ∃ t, exec (.ldqComplete e k) s = .next t ∧ s.framed t [.sht] [WRP_CNT_BARE_READS.key 0] ∧ t.sht = (setEng e (engOf e t) s).sht ∧
        engOf e t = { x with acc := x.acc.eraseIdx k, loom := (engOf e t).loom } ∧
        ∀ j : Nat, (engOf e t).loom.get bareWord j = if a.loom ≤ j ∧ j < a.loom + 4 then
          (if decodeWord (warpStored (4 * a.quad + (j - a.loom)) s) = .bare then bareWord else encodeWord (d (j - a.loom)))
          else x.loom.get bareWord j) ∧
    (a.store = false → engSt e s = 4 → (∃ i : Nat, i < 4 ∧ decodeWord (warpStored (4 * a.quad + i) s) = .bad) →
      ∃ t, exec (.ldqComplete e k) s = .next t ∧ engSt e t = 6 ∧ rd SHT_ENG_STAT_FAULT e t = 4 ∧
        engOf e t = { x with acc := x.acc.eraseIdx k, faultPc := a.pc, handler := none, stall := none } ∧
        evtSet (80 + e) t = true ∧ evtSet 114 t = true) ∧
    (a.store = true → a.words.length = 4 → rdB WRP_INJ_ADDR_ARM 0 s = false → inPool (4 * a.quad) = false →
      ∃ t, exec (.stqComplete e k) s = .next t ∧ s.framed t [.sht, .warp] [] ∧
        engOf e t = { x with acc := x.acc.eraseIdx k } ∧ (∀ f : Nat, f ≠ e → engOf f t = engOf f s) ∧
        (∀ i : Nat, i < 4 → warpStored (4 * a.quad + i) t = a.words.getD i 0) ∧
        ∀ p : Nat, (∀ i : Nat, i < 4 → p ≠ warpPlace (4 * a.quad + i) s) →
          t.warp.words.get bareWord p = s.warp.words.get bareWord p))

/-- R286: a push to a queue with room appends its register at its priority, behind the items of that priority or a higher one; a push to a
full queue waits; PUSH_RESUME makes the waiting push once there is room; qcnt reads the number of items. R286: a pop takes the item
that stands first, with its priority in QP, when one falls to its engine (no lower-numbered logical engine waits for it in a pop or in
dispatch); a pop of an empty queue, or of one whose first item falls to another, waits; POP_RESUME does the same for a pop that waited,
and one that waits while its queue is bound to a delivery ring is refused (R287). -/
def Obligations.EngineQueueInstructions : Prop :=
  (∀ (e : Fin 34) (w : BitVec 5) (o : QOp) (s : State) (x : Eng) (n pri d : Nat),
    x = engOf e s → rdB WRP_INJ_ADDR_ARM 0 s = false →
    (n = (if o.r then x.reg o.wq % 256 else o.qi.toNat) → pri = (if o.rp then x.reg o.wq / 256 % 16 else o.pri.toNat) →
      issues e (encQ 0x60 w o) s = true → 64 ≤ n →
      (1 ≤ qRoom n s → ∃ t, exec (.push e w o) s = .next t ∧ s.framed t (.sht :: recParts) (pushKeys n) ∧
        engOf e t = { x with stall := none }.advance ∧
        (queueOf n t).items = insertItem (pushedItem n pri (x.reg w) s) (queueOf n s).items ∧
        ∀ r : Nat, r ≠ n → queueOf r t = queueOf r s) ∧
      (qRoom n s = 0 → exec (.push e w o) s = .next (setEng e { x with stall := some (.push n pri (x.reg w)) } s))) ∧
    (x.stall = some (.push n pri d) → (1 ≤ qRoom n s → ∃ t, exec (.pushResume e) s = .next t ∧
        s.framed t (.sht :: recParts) (pushKeys n) ∧ engOf e t = { x with stall := none }.advance ∧
        (queueOf n t).items = insertItem (pushedItem n pri d s) (queueOf n s).items ∧
        ∀ r : Nat, r ≠ n → queueOf r t = queueOf r s) ∧
      (qRoom n s = 0 → exec (.pushResume e) s = .next s)) ∧
    (n = (if o.r then x.reg o.wq % 256 else o.qi.toNat) → issues e (encQ 0x62 w o) s = true →
      ∃ y, exec (.qcnt e w o) s = .next (setEng e y s) ∧ x.scalarOnly y [w] [] ∧ y.reg w = (queueOf n s).items.length % 2 ^ 48)) ∧
  (∀ (e : Fin 34) (w : BitVec 5) (o : QOp) (s : State) (x : Eng) (n : Nat),
    x = engOf e s → (n = (if o.r then x.reg o.wq % 256 else o.qi.toNat) → issues e (encQ 0x61 w o) s = true → ringBound n s = false →
      (queueOf n s).items = [] ∨ queueTurn ((servedBy e s).getD 0) n s = false →
      exec (.pop e w o) s = .next (setEng e { x with stall := some (.pop w.toNat n) } s)) ∧
    (x.stall = some (.pop w.toNat n) → ringBound n s = false → (queueOf n s).items = [] ∨ queueTurn ((servedBy e s).getD 0) n s = false →
      exec (.popResume e) s = .next (setEng e x s)) ∧
    (∀ (it : QItem) (l : List QItem) (d : Nat), (queueOf n s).items = it :: l → it.linkBad = false → decodeWord it.word = .clean d → it.pri < 16 →
    ringBound n s = false → queueTurn ((servedBy e s).getD 0) n s = true →
    (n = (if o.r then x.reg o.wq % 256 else o.qi.toNat) → issues e (encQ 0x61 w o) s = true →
      ∃ t, exec (.pop e w o) s = .next t ∧ s.framed t [.sht, .queues, .warp] [] ∧ (queueOf n t).items = l ∧
        (∀ r : Nat, r ≠ n → queueOf r t = queueOf r s) ∧ (engOf e t).reg w = d % 2 ^ 48 ∧ slice (engOf e t).st 12 4 = it.pri ∧
        ∀ r : BitVec 5, r ≠ w → (engOf e t).reg r = x.reg r) ∧
    (x.stall = some (.pop w.toNat n) →
      ∃ t, exec (.popResume e) s = .next t ∧ s.framed t [.sht, .queues, .warp] [] ∧ (queueOf n t).items = l ∧
        (engOf e t).stall = none ∧ (engOf e t).reg w = d % 2 ^ 48 ∧ slice (engOf e t).st 12 4 = it.pri)) ∧
    (x.stall = some (.pop w.toNat n) → ringBound n s = true → ∃ t, exec (.popResume e) s = .next t ∧
      s.framed t (.sht :: recParts) logKeys ∧ (∀ r : Nat, r ≠ 57 → queueOf r t = queueOf r s) ∧ (engOf e t).bit 6 = true ∧
      (engOf e t).stall = none ∧ (engOf e t).reg w = 0 ∧ (∀ r : BitVec 5, r ≠ w → (engOf e t).reg r = x.reg r) ∧ evtSet 20 t = true))

/-- R287: a push to queues 0 to 63 and a pop from a queue bound to a delivery ring are refused: the engine does not stall, no item moves (the
violation-log entry is queue 57's), QV is set; the pop writes zero to wd and leaves QP. -/
def Obligations.RefusedQueueInstructions : Prop :=
  ∀ (e : Fin 34) (w : BitVec 5) (o : QOp) (s : State) (x : Eng) (n : Nat),
    x = engOf e s → n = (if o.r then x.reg o.wq % 256 else o.qi.toNat) →
    (issues e (encQ 0x60 w o) s = true → n ≤ 63 → ∃ t, exec (.push e w o) s = .next t ∧ s.framed t (.sht :: recParts) logKeys ∧
      (∀ r : Nat, r ≠ 57 → queueOf r t = queueOf r s) ∧ (engOf e t).bit 6 = true ∧ (engOf e t).w = x.w ∧
      (engOf e t).stall = x.stall ∧ (∀ b : Nat, b ≠ 6 → (engOf e t).bit b = x.bit b) ∧ evtSet 20 t = true) ∧
    (issues e (encQ 0x61 w o) s = true → ringBound n s = true → ∃ t, exec (.pop e w o) s = .next t ∧
      s.framed t (.sht :: recParts) logKeys ∧ (∀ r : Nat, r ≠ 57 → queueOf r t = queueOf r s) ∧ (engOf e t).bit 6 = true ∧
      (engOf e t).reg w = 0 ∧ (∀ r : BitVec 5, r ≠ w → (engOf e t).reg r = x.reg r) ∧ (∀ b : Nat, b ≠ 6 → (engOf e t).bit b = x.bit b) ∧
      (engOf e t).stall = x.stall ∧ evtSet 20 t = true)

/-- R289, R290, R293: branches: b.cond with each of its fourteen conditions, call and jr; a target outside the innermost body from inside
it is misuse. R291, R293: rep opens a level that counts its count, or passes over the body of a count of 0; rexit closes the innermost
level and continues behind it; both misuses fault. R291: what follows an instruction that does not branch: the next address outside a
body; back to the body's start while its count lasts; past the end, closing every level that ends there with its count spent. What the
spec leaves open in it is the model's choice: log entry 53. -/
def Obligations.BranchesAndRepeats : Prop :=
  (∀ (e : Fin 34) (c : BitVec 4) (w : BitVec 5) (target : BitVec 14) (s : State) (x : Eng) (z ng cy v sv br qv none_ : Bool) (inside : Nat → Prop),
    x = engOf e s → z = x.bit 0 → ng = x.bit 1 → cy = x.bit 2 → v = x.bit 3 → sv = x.bit 4 → br = x.bit 5 → qv = x.bit 6 →
    none_ = decide (x.st / 2 ^ 8 % 16 = 0) →
    (∀ a : Nat, inside a ↔ ∀ (f l : Nat) (r : List (Nat × Nat)), x.reps = (f, l) :: r → f ≤ x.pc → x.pc ≤ l → f ≤ a ∧ a ≤ l) →
    (c.toNat < 14 → issues e (encB 0x70 (c.toNat * 2 ^ 22) target) s = true → ∀ holds : Bool,
      holds = ([true, z, !z, ng != v, ng == v, !z && (ng == v), z || (ng != v), cy, !cy, sv, br, qv, none_, !none_].getD c.toNat false) →
      (holds = true → inside target.toNat → exec (.bCond e c target) s = .next (setEng e { x with pc := target.toNat } s)) ∧
      (holds = true → ¬ inside target.toNat → exec (.bCond e c target) s = .next (engineFault e 6 x.pc s)) ∧
      (holds = false → exec (.bCond e c target) s = .next (setEng e x.advance s))) ∧
    (issues e (encB 0x71 0 target) s = true → inside target.toNat →
      ∃ y, exec (.call e target) s = .next (setEng e y s) ∧ y = { x with pc := target.toNat, w := y.w } ∧
        y.reg 31 = (x.pc + 1) % 2 ^ 48 ∧ ∀ r : BitVec 5, r ≠ 31 → y.reg r = x.reg r) ∧
    (issues e (chOp 0x72 (w.toNat * 2 ^ 30)) s = true → inside (x.reg w % 2 ^ 14) →
      exec (.jr e w) s = .next (setEng e { x with pc := x.reg w % 2 ^ 14 } s))) ∧
  (∀ (e : Fin 34) (count : RepCount) (last : BitVec 14) (s : State) (x : Eng) (n : Nat),
    x = engOf e s → n = (match count with | .imm k => k.toNat | .reg w => x.reg w) →
    (issues e (encB 0x73 (repBits count) last) s = true →
      (x.reps.length < 4 → n ≤ 65536 → x.pc < last.toNat → (∀ (f l : Nat) (r : List (Nat × Nat)), x.reps = (f, l) :: r → last.toNat ≤ l) →
        (n = 0 → exec (.rep e count last) s = .next (setEng e { x with pc := last.toNat + 1 } s)) ∧
        (n ≠ 0 → exec (.rep e count last) s = .next (setEng e
          { x with lc := x.lc.put 0 x.reps.length n, reps := (x.pc + 1, last.toNat) :: x.reps, pc := x.pc + 1 } s))) ∧
      (x.reps.length = 4 ∨ 65536 < n ∨ last.toNat ≤ x.pc ∨ (∃ (f l : Nat) (r : List (Nat × Nat)), x.reps = (f, l) :: r ∧ l < last.toNat) →
        exec (.rep e count last) s = .next (engineFault e 6 x.pc s))) ∧
    (issues e (chOp 0x74 0) s = true →
      (∀ (f l : Nat) (r : List (Nat × Nat)), x.reps = (f, l) :: r →
        exec (.rexit e) s = .next (setEng e { x with reps := r, pc := l + 1 } s)) ∧
      (x.reps = [] → exec (.rexit e) s = .next (engineFault e 6 x.pc s)))) ∧
  (∀ (x : Eng) (f l c : Nat) (r : List (Nat × Nat)),
    (x.reps = [] → x.advance = { x with pc := x.pc + 1 }) ∧
    (x.reps = (f, l) :: r → l ≠ x.pc → x.advance = { x with pc := x.pc + 1 }) ∧
    (x.reps = (f, l) :: r → l = x.pc → x.lc.get 0 r.length = c → 1 < c → c < 2 ^ 17 →
      x.advance = { x with pc := f, lc := x.lc.put 0 r.length (c - 1) }) ∧
    (x.reps = (f, l) :: r → l = x.pc → x.lc.get 0 r.length = 1 →
      x.advance = { x with lc := x.lc.put 0 r.length 0, reps := r }.advance))

/-- R249, R284, R292: done ends the handler and closes every repeat when no Warp access is outstanding, and waits otherwise; DONE_RETIRE
ends the wait. clst clears the sticky flags its mask names. R255, R272, R289, R294: an engine that issues from beyond its image faults
with 0010, an uncorrectable word with 0101, an undefined one with 0001; a failed self-check faults with 1111. The fault is recorded
with its address, the handler ends, no register changes. -/
def Obligations.HandlerEndsAndEngineFaults : Prop :=
  (∀ (e : Fin 34) (mask : BitVec 3) (s : State) (x : Eng) (l : Nat), x = engOf e s →
    (issues e (chOp 0x75 0) s = true → engSt e s = 4 → x.acc = [] →
      ∃ t, exec (.done e) s = .next t ∧ engOf e t = { x with handler := none, stall := none, reps := [] } ∧
        s.framed t [.sht, .trd] [] ∧
        (servedBy e s = some l → ∀ n : Nat, x.handler = some (.tick n) →
          (logEngOf l t).pend = (logEngOf l s).pend.filter (fun k => k.pick ≠ n) ∧
          ∀ c ∈ t.trd.picks, c.n = n → l ∉ c.engines)) ∧
    (issues e (chOp 0x75 0) s = true → x.acc ≠ [] → exec (.done e) s = .next (setEng e { x with stall := some .done } s)) ∧
    (x.stall = some .done → x.acc = [] → engSt e s = 4 →
      ∃ t, exec (.doneRetire e) s = .next t ∧ engOf e t = { x with handler := none, stall := none, reps := [] }) ∧
    (issues e (chOp 0x76 mask.toNat) s = true → ∃ y, exec (.clst e mask) s = .next (setEng e y s) ∧ x.scalarOnly y [] [4, 5, 6] ∧
      ∀ i : Nat, i < 3 → y.bit (4 + i) = (x.bit (4 + i) && !(mask.getLsbD i)))) ∧
  (∀ (e : Fin 34) (s : State) (x : Eng) (code : Nat), x = engOf e s → s.sht.swap = none → rdB SHT_CTL_AUTO_SPARE 0 s = false →
    (issuing e s = true →
      (issueRead e s = none ∧ code = 2) ∨ (issueRead e s = some .bad ∧ code = 5) ∨
        (∃ r, issueRead e s = some r ∧ r ≠ .bad ∧ chDecode e r.data = none ∧ code = 1) →
      ∃ t, exec (.illegalInstruction e) s = .next t ∧ engSt e t = 6 ∧ rd SHT_ENG_STAT_FAULT e t = code ∧
        engOf e t = { x with faultPc := x.pc, handler := none, stall := none } ∧ evtSet (80 + e) t = true) ∧
    (engSt e s = 4 → ∃ t, exec (.engineSelfCheckFail e) s = .next t ∧ engSt e t = 6 ∧ rd SHT_ENG_STAT_FAULT e t = 15 ∧
      engOf e t = { x with faultPc := x.pc, handler := none, stall := none } ∧ evtSet (80 + e) t = true))

/-- R272, R273: the word of every well-formed Chronov instruction, with every operand, has 48 bits and decodes to that instruction on
its engine; what a word decodes to has that word. -/
def Obligations.DecodeOfEncode : Prop :=
  ∀ (i : Instr) (w : Nat),
    (chWord i = some w → chOk i = true → w < 2 ^ 48 ∧ ∃ e : Fin 34, chDecode e w = some i) ∧
    (∀ e : Fin 34, chDecode e w = some i → chWord i = some w ∧ chOk i = true)

/-! ### The Shuttle: run control, handlers, images and swaps -/

/-- R254, R262, R288: a start of a STOPPED engine with an image runs it with its registers zero and its loom memory kept; a stop of a
RUNNING engine in no handler stops it, one in a handler closes it. R263, R267: SHT_LOG_DATA reads and writes the entry its address
names, then the address moves on, from 10 back to 0: bindings and windows of a STOPPED engine alone, the budget and OVR_REL of any,
PSYNC of a STOPPED one; a refused write, a binding of a queue that is bound to a ring, and every access beyond entry 10 are logged.
What the spec leaves open in it is the model's choice: log entries 5 and 19. -/
def Obligations.EngineRunAndLogData : Prop :=
  (∀ (l : Fin 32) (s : State) (e : Nat) (x : Eng), e = physOf l s → x = engOf e s → e < 34 → s.sys.inReset = false →
    (engSt e s = 3 → rd SHT_ENG_STAT_IMAGE_ID e s ≠ 0 → (psync l s = true → hasTick e s = true) →
      ∃ t, exec (.engineRunStart l) s = .next t ∧ engSt e t = 4 ∧ bitOf (rd SHT_RUN_RUN 0 t) l = true ∧
        engOf e t = { x with w := [], v := [], ac := [], p := [], m := [], lc := [], st := 0, reps := [], pc := 0, handler := none, stall := none } ∧
        s.framed t [.sht, .host] [SHT_ENG_STAT_ENG_STATE.key e, SHT_ENG_STAT_FAULT.key e, SHT_RUN_RUN.key 0]) ∧
    (engSt e s = 3 → rd SHT_ENG_STAT_IMAGE_ID e s = 0 → ∃ t, exec (.engineRunStart l) s = .next t ∧
      s.framed t recParts logKeys ∧ evtSet 20 t = true) ∧
    (engSt e s = 4 → x.handler = none → x.stall = none → s.sht.swap = none → startPending l s = false →
      ∃ t, exec (.engineRunStop l) s = .next t ∧ engSt e t = 3 ∧ bitOf (rd SHT_RUN_RUN 0 t) l = false ∧
        s.framed t [.sht, .trd, .host] [SHT_ENG_STAT_ENG_STATE.key e, SHT_RUN_RUN.key 0]) ∧
    (engSt e s = 4 → x.handler ≠ none → x.stall = none → s.sht.swap = none →
      ∃ t, exec (.engineRunStop l) s = .next t ∧ engSt e t = 5 ∧ bitOf (rd SHT_RUN_RUN 0 t) l = false ∧ engOf e t = x)) ∧
  (∀ (v : Qword) (s : State) (l k : Nat), l = rd SHT_LOG_ADDR_LOG 0 s → k = rd SHT_LOG_ADDR_ENTRY 0 s → s.sys.inReset = false →
    (k < 8 → engSt (physOf l s) s = 3 → v.getLsbD 15 = false ∨ (ringBound (v.toNat % 256) s = false ∧
        ∀ x : Nat, x < 4 → rd BOB_CTX_STAT_STATE x s = 0 ∨ rd BOB_CTX_CFG_SRC_Q x s ≠ v.toNat % 256) →
      ∃ t, exec (.shtLogDataAccess (some v)) s = .next t ∧
        logEntry l k t = v.toNat / 2 ^ 12 % 16 * 2 ^ 12 + v.toNat % 256 ∧ rd SHT_LOG_ADDR_ENTRY 0 t = k + 1 ∧
        (∀ j : Nat, j ≠ k → logEntry l j t = logEntry l j s) ∧ s.framed t [.sht] [SHT_LOG_ADDR_ENTRY.key 0]) ∧
    (k < 8 → engSt (physOf l s) s = 3 → v.getLsbD 15 = true → ringBound (v.toNat % 256) s = true →
      ∃ t, exec (.shtLogDataAccess (some v)) s = .next t ∧
        s.framed t recParts (SHT_LOG_ADDR_ENTRY.key 0 :: logKeys) ∧ evtSet 20 t = true ∧ rd SHT_LOG_ADDR_ENTRY 0 t = k + 1) ∧
    (k = 10 → engSt (physOf l s) s = 3 ∨ v.toNat % 2 = logEntry l 10 s % 2 →
      ∃ t, exec (.shtLogDataAccess (some v)) s = .next t ∧
        logEntry l 10 t = v.toNat / 2 ^ 24 % 2 ^ 24 * 2 ^ 24 + v.toNat % 4 ∧ rd SHT_LOG_ADDR_ENTRY 0 t = 0 ∧
        (∀ j : Nat, j ≠ 10 → logEntry l j t = logEntry l j s) ∧ s.framed t [.sht] [SHT_LOG_ADDR_ENTRY.key 0]) ∧
    (k = 10 → engSt (physOf l s) s ≠ 3 → v.toNat % 2 ≠ logEntry l 10 s % 2 →
      ∃ t, exec (.shtLogDataAccess (some v)) s = .next t ∧
        logEntry l 10 t = v.toNat / 2 ^ 24 % 2 ^ 24 * 2 ^ 24 + v.toNat / 2 % 2 * 2 + logEntry l 10 s % 2 ∧
        rd SHT_LOG_ADDR_ENTRY 0 t = 0 ∧ (∀ j : Nat, j ≠ 10 → logEntry l j t = logEntry l j s) ∧
        s.framed t (.sht :: recParts) (SHT_LOG_ADDR_ENTRY.key 0 :: logKeys) ∧ evtSet 20 t = true) ∧
    (k = 10 → ∃ t, exec (.shtLogDataAccess none) s = .next t ∧ rd SHT_LOG_ADDR_ENTRY 0 t = 0 ∧
      t.out.head? = some (.readData (BitVec.ofNat 64 (logEntry l 10 s + physOf l s % 64 * 2 ^ 16))) ∧ s.framed t [.out] [SHT_LOG_ADDR_ENTRY.key 0]) ∧
    (10 < k →
      (∃ t, exec (.shtLogDataAccess (some v)) s = .next t ∧ s.framed t recParts (SHT_LOG_ADDR_ENTRY.key 0 :: logKeys) ∧ evtSet 20 t = true ∧
        rd SHT_LOG_ADDR_ENTRY 0 t = (k + 1) % 16) ∧
      (∃ t, exec (.shtLogDataAccess none) s = .next t ∧ s.framed t recParts (SHT_LOG_ADDR_ENTRY.key 0 :: logKeys) ∧ evtSet 20 t = true ∧
        rd SHT_LOG_ADDR_ENTRY 0 t = (k + 1) % 16 ∧ t.out.head? = some (.readData 0))) ∧
    (k < 10 → ∃ t, exec (.shtLogDataAccess none) s = .next t ∧ t.out.head? = some (.readData (BitVec.ofNat 64 (logEntry l k s))) ∧
      rd SHT_LOG_ADDR_ENTRY 0 t = k + 1 ∧ s.framed t [.out] [SHT_LOG_ADDR_ENTRY.key 0]) ∧
    ((k = 8 ∨ k = 9) → engSt (physOf l s) s = 3 → ∃ t, exec (.shtLogDataAccess (some v)) s = .next t ∧
      logEntry l k t = v.toNat / 2 ^ 47 % 2 * 2 ^ 47 + v.toNat % 2 ^ 46 ∧ rd SHT_LOG_ADDR_ENTRY 0 t = k + 1 ∧
      (∀ j : Nat, j ≠ k → logEntry l j t = logEntry l j s) ∧ s.framed t [.sht] [SHT_LOG_ADDR_ENTRY.key 0]) ∧
    (k < 10 → engSt (physOf l s) s ≠ 3 → ∃ t, exec (.shtLogDataAccess (some v)) s = .next t ∧
      s.framed t recParts (SHT_LOG_ADDR_ENTRY.key 0 :: logKeys) ∧ evtSet 20 t = true ∧ rd SHT_LOG_ADDR_ENTRY 0 t = k + 1))

/-- R247, R248: an engine in dispatch enters the oldest tick handler that waits, before any queue handler, with the pick in w0 and the pick
number in w2; with none waiting it takes the first item of its first due binding. R250, R251: the tick handlers of the pick whose
ports' work is complete become pending, at the cycle at which the Reed's work ended, for every engine that ran at its tick and has run
since without another start; an engine past its pick budget is counted and its event raised, and with PRELEASE the pick no longer waits
for it. What the spec leaves open in it is the model's choice: log entries 6 and 52. -/
def Obligations.HandlersAndBudget : Prop :=
  (∀ (e : Fin 34) (s : State) (x : Eng) (l : Nat) (im : Img), x = engOf e s → servedBy e s = some l → x.img = some im →
    engSt e s = 4 → x.handler = none → s.sht.swap = none →
    (∀ k : TickPend, (logEngOf l s).pend.find? (fun t => !t.started && im.tickEn) = some k →
      ∃ t, exec (.handlerDispatch e) s = .next t ∧ s.framed t [.sht] [] ∧ (engOf e t).handler = some (.tick k.pick) ∧
        (engOf e t).pc = im.tick ∧ (engOf e t).reg 0 = k.pick % 2 ^ 48 ∧
        (engOf e t).reg 2 = rd SYS_PICK_NUM_NUM 0 s % 2 ^ 48) ∧
    (∀ (q a d : Nat) (it : QItem) (r : List QItem), (logEngOf l s).pend.find? (fun t => !t.started && im.tickEn) = none →
      dueBinding l im s = some (q, a) → (queueOf q s).items = it :: r → it.linkBad = false → decodeWord it.word = .clean d →
      ∃ t, exec (.handlerDispatch e) s = .next t ∧ s.framed t [.sht, .queues, .warp] [] ∧ (queueOf q t).items = r ∧
        (engOf e t).handler = some .queue ∧ (engOf e t).pc = a ∧ (engOf e t).reg 0 = d % 2 ^ 48 ∧
        (engOf e t).reg 1 = (it.pri * 256 + q) % 2 ^ 48 ∧ (engOf e t).reg 2 = rd SYS_PICK_NUM_NUM 0 s % 2 ^ 48)) ∧
  ((∀ (s : State) (x : PickCtx) (l r : Nat), s.trd.picks.filter (fun y => !y.handlers) = [x] →
    x.ports.all (fun y => portWorkDone y s) = true → x.hands = [(l, r)] → (logEngOf l s).pend.length < 2 →
    ∃ t, exec .tickHandlerPending s = .next t ∧ s.framed t [.trd, .sht, .now] [] ∧ t.now = maxN s.now (pickWorkEnd x s) ∧
      (ticked l s = true → (logEngOf l s).run = r →
        (logEngOf l t).pend = (logEngOf l s).pend ++ [{ pick := x.n, at_ := pickWorkEnd x s }]) ∧
      (ticked l s = false ∨ (logEngOf l s).run ≠ r → (logEngOf l t).pend = (logEngOf l s).pend) ∧
      t.trd.picks = s.trd.picks.map (fun y => if y.n = x.n then { y with handlers := true } else y)) ∧
  (∀ (l : Fin 32) (s : State) (k : TickPend), (logEngOf l s).pend.find? (fun t => !t.beyond) = some k → psync l s = true →
    ∃ t, exec (.pbudgetExpiry l) s = .next t ∧ rd SHT_LCNT_OVERRUNS l t = satU SHT_LCNT_OVERRUNS.width (rd SHT_LCNT_OVERRUNS l s + 1) ∧
      evtSet (80 + physOf l s) t = true ∧ s.now ≤ t.now ∧
      ((logEngOf l s).release = true → ∀ c ∈ t.trd.picks, c.n = k.pick → l.val ∉ c.engines)))

/-- R257, R258: a load request of an idle engine starts; one of another engine, of one that a swap names, or while a load runs is refused
and logged; at the end of a load the image and its number stand when every check passed, and the engine has none when one failed, with
the check and the word it failed at. R259, R260, R261: a swap request on a loaded spare waits, and for a STOPPED or FAULTED engine is
its own boundary; a request with a reserved mode, or while one waits, is refused with its reason and logged; a cancelled swap ends; at
the boundary the outgoing engine is SWAPPING; at the takeover of a replacement without carry the spare serves the logical engine with
zero registers and the outgoing engine is FAILED or loaded. What the spec leaves open in it is the model's choice: log entries 6 and
52. -/
def Obligations.ImageLoadsAndSwaps : Prop :=
  (∀ (v : Qword) (s : State) (e src : Nat), e = SHT_IMG_CTL_ENGINE.ofQ v → src = SHT_IMG_CTL_SRC.ofQ v →
    (s.sys.inReset = false → e < 34 → s.sht.load = none → s.sht.swap = none → engSt e s = 0 ∨ engSt e s = 2 ∨ engSt e s = 3 →
      ∃ t, exec (.imgLoad v) s = .next t ∧ engSt e t = 1 ∧ rd SHT_IMG_STAT_BUSY 0 t = 1 ∧ rd SHT_IMG_STAT_ENGINE 0 t = e ∧
        t.sht.load = some { engine := e, src := src, spare := decide (engSt e s ≠ 3) } ∧
        s.framed t [.sht] [SHT_IMG_STAT_BUSY.key 0, SHT_IMG_STAT_ENGINE.key 0, SHT_ENG_STAT_ENG_STATE.key e]) ∧
    (s.sys.inReset = false → 34 ≤ e ∨ s.sht.load ≠ none ∨ (∃ w, s.sht.swap = some w ∧ (w.out = e ∨ w.spare = e)) ∨
        engSt e s = 1 ∨ 4 ≤ engSt e s → ∃ t, exec (.imgLoad v) s = .next t ∧ rd SHT_IMG_STAT_REFUSED 0 t = 1 ∧ evtSet 20 t = true ∧
      s.framed t recParts (SHT_IMG_STAT_REFUSED.key 0 :: logKeys)) ∧
    (∀ (sp : Bool) (at_ err : Nat), s.sht.load = some { engine := e, src := src, spare := sp } → e < 34 → err < 16 → at_ < 2 ^ 24 →
      imgCheck src (imgSeen src s) = some (err, at_) →
      ∃ t, exec .imgLoadEnd s = .next t ∧ rd SHT_ENG_STAT_IMAGE_ID e t = 0 ∧ (engOf e t).img = none ∧
        engSt e t = (if sp then 0 else 3) ∧ rd SHT_IMG_STAT_ERR 0 t = err ∧ rd SHT_IMG_STAT_ERR_WORD 0 t = at_ ∧
        rd SHT_IMG_STAT_BUSY 0 t = 0 ∧ t.sht.load = none ∧ evtSet (80 + e) t = true) ∧
    (∀ sp : Bool, s.sht.load = some { engine := e, src := src, spare := sp } → e < 34 → imgCheck src (imgSeen src s) = none →
      ∃ t, exec .imgLoadEnd s = .next t ∧ rd SHT_ENG_STAT_IMAGE_ID e t = (imgHeader src (imgSeen src s)).id ∧
        (engOf e t).img = some (imgHeader src (imgSeen src s)) ∧ engSt e t = (if sp then 2 else 3) ∧ rd SHT_IMG_STAT_ERR 0 t = 0 ∧
        rd SHT_IMG_STAT_BUSY 0 t = 0 ∧ t.sht.load = none ∧
        ∀ k : Nat, k < (imgHeader src (imgSeen src s)).instr →
          (engOf e t).istore.get bareWord k = encodeWord (imgWord src (9 + k) (imgSeen src s)))) ∧
  (∀ (v : Qword) (s : State) (l sp m e : Nat) (w : EngSwap),
    l = SHT_SWAP_LOG.ofQ v → sp = SHT_SWAP_SPARE.ofQ v → m = SHT_SWAP_MODE.ofQ v → e = physOf l s →
    (s.sys.inReset = false → 2 ≤ m → v.getLsbD 12 = false → sp < 34 → engSt sp s = 0 ∨ engSt sp s = 2 → rd SHT_ENG_STAT_SERVES sp s = 0 →
      s.sht.swap = none → engSt e s ≠ 8 → engSt e s ≠ 1 →
      ∃ t, exec (.engineSwapRequest v) s = .next t ∧ rd SHT_SWAP_STAT_REFUSED 0 t = 1 ∧ rd SHT_SWAP_STAT_REASON 0 t = 4 ∧
        t.sht = s.sht ∧ evtSet (80 + e) t = true ∧ evtSet (80 + sp) t = true ∧ evtSet 20 t = true) ∧
    (s.sys.inReset = false → v.getLsbD 12 = false → sp < 34 → engSt sp s = 2 → rd SHT_ENG_STAT_SERVES sp s = 0 → s.sht.swap = none → engSt e s = 4 → m < 2 →
      (psync l s = true → hasTick sp s = true) →
      ∃ t, exec (.engineSwapRequest v) s = .next t ∧ rd SHT_SWAP_STAT_WAITING 0 t = 1 ∧ rd SHT_SWAP_STAT_LOG 0 t = l ∧
        rd SHT_SWAP_STAT_OUTGOING 0 t = e ∧ t.sht.swap = some
          { log := l, spare := sp, out := e, migrate := decide (m = 1), retire := decide (SHT_SWAP_RETIRE.ofQ v = 1), boundary := false } ∧
        s.framed t [.sht] [SHT_SWAP_STAT_WAITING.key 0, SHT_SWAP_STAT_LOG.key 0, SHT_SWAP_STAT_OUTGOING.key 0]) ∧
    (s.sys.inReset = false → v.getLsbD 12 = false → sp < 34 → engSt sp s = 2 → rd SHT_ENG_STAT_SERVES sp s = 0 → s.sht.swap = none → engSt e s = 3 ∨ engSt e s = 6 →
      e < 34 → m < 2 → (psync l s = true → hasTick sp s = true) →
      ∃ (t : State) (x : EngSwap), exec (.engineSwapRequest v) s = .next t ∧ engSt e t = 9 ∧ rd SHT_SWAP_STAT_WAITING 0 t = 0 ∧
        rd SHT_SWAP_STAT_COPYING 0 t = 1 ∧ t.sht.swap = some x ∧ x.out = e ∧ x.spare = sp ∧ x.was = engSt e s ∧ x.copying = true ∧
        (m = 1 → x.due = s.now + 32832 + 16) ∧
        s.framed t [.sht] [SHT_SWAP_STAT_WAITING.key 0, SHT_SWAP_STAT_LOG.key 0, SHT_SWAP_STAT_OUTGOING.key 0,
          SHT_SWAP_STAT_COPYING.key 0, SHT_ENG_STAT_ENG_STATE.key e]) ∧
    (s.sys.inReset = false → v.getLsbD 12 = false → s.sht.swap = some w → sp < 34 → engSt sp s = 2 → rd SHT_ENG_STAT_SERVES sp s = 0 →
      ∃ t, exec (.engineSwapRequest v) s = .next t ∧ rd SHT_SWAP_STAT_REFUSED 0 t = 1 ∧ rd SHT_SWAP_STAT_REASON 0 t = 2 ∧
        t.sht = s.sht ∧ evtSet 20 t = true) ∧
    (s.sys.inReset = false → s.sht.swap = some w → w.copying = false → rdB SHT_SWAP_STAT_WAITING 0 s = true → w.out < 34 → w.spare < 34 →
      ∃ t, exec .swapCancel s = .next t ∧ t.sht.swap = none ∧ rd SHT_SWAP_STAT_CANCELLED 0 t = 1 ∧
        rd SHT_SWAP_STAT_WAITING 0 t = 0 ∧ evtSet (80 + w.out) t = true ∧ evtSet (80 + w.spare) t = true) ∧
    (s.sys.inReset = false → s.sht.swap = none → rdB SHT_SWAP_STAT_WAITING 0 s = false →
      ∃ t, exec .swapCancel s = .next t ∧ s.framed t recParts logKeys ∧ evtSet 20 t = true) ∧
    (s.sht.swap = some w → w.boundary = true → w.copying = false → w.out < 34 → w.was = 0 →
      ∃ t, exec .swapBoundary s = .next t ∧ engSt w.out t = 9 ∧ rd SHT_SWAP_STAT_COPYING 0 t = 1 ∧ rd SHT_SWAP_STAT_WAITING 0 t = 0 ∧
        (w.migrate = true → t.sht.swap = some { w with copying := true, was := engSt w.out s, due := s.now + 32832 + 16 }) ∧
        s.framed t [.sht] [SHT_SWAP_STAT_COPYING.key 0, SHT_SWAP_STAT_WAITING.key 0, SHT_ENG_STAT_ENG_STATE.key w.out]) ∧
    (s.sht.swap = some w → w.copying = true → w.out < 34 → w.spare < 34 → w.out ≠ w.spare → w.log < 32 → w.migrate = false → w.carry = false →
      w.was = 4 → bitOf (rd SHT_RUN_RUN 0 s) w.log = true → (engOf w.spare s).img ≠ none →
      (∀ x : Nat, x < 34 → rd SHT_ENG_STAT_SERVES x s = 1 → rd SHT_ENG_STAT_LOG x s = w.log → x = w.out) →
      ∃ t, exec .swapTakeover s = .next t ∧ w.due ≤ t.now ∧ t.sht.swap = none ∧ engSt w.spare t = 4 ∧
        rd SHT_ENG_STAT_SERVES w.spare t = 1 ∧ rd SHT_ENG_STAT_LOG w.spare t = w.log ∧ rd SHT_ENG_STAT_SERVES w.out t = 0 ∧
        engSt w.out t = (if w.retire then 7 else if (engOf w.out s).img.isSome then 2 else 0) ∧
        engOf w.spare t = clearRegs (engOf w.spare s) ∧ (logEngOf w.log t).fresh = true ∧
        rd SHT_SWAP_STAT_DONE 0 t = 1 ∧ rd SHT_SWAP_STAT_COPYING 0 t = 0 ∧ evtSet (80 + w.out) t = true ∧ evtSet (80 + w.spare) t = true))

/-! ### The draft and picks -/

/-- R202 to R205, R213, R214: the control instructions of a running program move its address, loops, flags and cost; a program starts at
its due time; execution past LENGTH goes on at ENTRY; the 256th instruction ends the program with event 67. What the spec leaves open
in it is the model's choice: log entries 5 and 6. -/
def Obligations.DraftControl : Prop :=
  ∀ (s : State) (u : Treadle) (at_ : Nat → Prop) (count : BitVec 16) (flag : BitVec 4) (target : BitVec 12),
    u = { s.trd with pc := s.trd.pc + 1, insns := s.trd.insns + 1, cost := s.trd.cost + 2 } →
    (∀ w : Nat, at_ w ↔ s.trd.running = true ∧ s.trd.ppsWait = none ∧ s.trd.pc < rd TRD_BANK_CFG_LENGTH (bankOf s) s ∧
      draftAt (bankOf s) s.trd.pc s = w ∧ s.trd.insns < 255) →
    (at_ encTrdNop → exec .trdNop s = .next { s with trd := u }) ∧
    (at_ (encLoop count) → exec (.loop count) s = .next { s with trd := { u with loops := (s.trd.pc + 1, if count.toNat = 0 then 65536 else count.toNat) :: s.trd.loops } }) ∧
    (∀ (a n : Nat) (l : List (Nat × Nat)), at_ encEndl → s.trd.loops = (a, n) :: l →
      (1 < n → exec .endl s = .next { s with trd := { u with loops := (a, n - 1) :: l, pc := a, cost := s.trd.cost + 4 } }) ∧
      (n ≤ 1 → exec .endl s = .next { s with trd := { u with loops := l } })) ∧
    (at_ (encJump target) → exec (.jump target) s = .next { s with trd := { u with pc := target.toNat, cost := s.trd.cost + 4 } }) ∧
    (at_ (encJflg flag target) →
      (bitOf s.trd.flags flag.toNat = true → exec (.jflg flag target) s = .next { s with trd := { u with flags := s.trd.flags - 2 ^ flag.toNat, pc := target.toNat, cost := s.trd.cost + 4 } }) ∧
      (bitOf s.trd.flags flag.toNat = false → exec (.jflg flag target) s = .next { s with trd := u })) ∧
    (s.trd.running = true → s.trd.ppsWait = none → s.trd.pc = rd TRD_BANK_CFG_LENGTH (bankOf s) s → s.trd.insns < 255 →
      exec .draftWrap s = .next { s with trd := { s.trd with pc := rd TRD_BANK_CFG_ENTRY (bankOf s) s, insns := s.trd.insns + 1, cost := s.trd.cost + 4 } }) ∧
    (∀ d : Nat, s.trd.startDue = some d → s.trd.weaving = true → s.trd.running = false → s.trd.hostBeat = false →
      ∃ t, exec .programStart s = .next t ∧ d ≤ t.now ∧ s.framed t [.now, .trd] [] ∧ t.trd.running = true ∧ t.trd.startDue = none ∧
        t.trd.insns = 0 ∧ t.trd.cost = 0 ∧ t.trd.pc = s.trd.pc ∧
        t.trd.pickN = if s.trd.firstPick then rd SYS_PICK_BASE_BASE 0 s else (s.trd.pickN + 1) % 2 ^ 48) ∧
    (s.trd.running = true → s.trd.ppsWait = none → s.trd.pc < rd TRD_BANK_CFG_LENGTH (bankOf s) s →
      draftAt (bankOf s) s.trd.pc s = encTrdNop → s.trd.insns = 255 → s.trd.set = none → s.trd.loNamed = none →
      s.trd.firstPick = false → ∃ t, exec .trdNop s = .next t ∧ t.trd.running = false ∧ evtSet 67 t = true ∧ evtSet 20 t = true ∧
        rd TRD_CNT_BUDGET 0 t = satU TRD_CNT_BUDGET.width (rd TRD_CNT_BUDGET 0 s + 1))

/-- R208 to R212: KIND, SLOT and GZT set the field of every port in their mask and of no other; LINE stages the line, or is held behind a
prepared set; LO names an entry; STRIPE places a stripe at the tick. R207, R215, R216, R219, R222, R226, R227: PICK ends the program
and tries a waiting set, which is prepared when every affected unit is ready and else marked as failed, with event 66 while no try of
it has counted; NOTE pushes one item or drops it, with one event 71 a program; PPSA fails with event 68 without a PPS discipline and
else waits; its timeout fails it; BEAT opens a set or joins the open one; SWAP stages a bank swap. What the spec leaves open in it is
the model's choice: log entries 5 and 6. -/
def Obligations.DraftInstructions : Prop :=
  (∀ (s : State) (u : Treadle) (at_ : Nat → Prop) (mask : BitVec 16) (k2 g : BitVec 2) (k6 e : BitVec 6) (inc : Bool) (l : BitVec 3)
    (ln : BitVec 7) (st : BitVec 12),
    u = { s.trd with pc := s.trd.pc + 1, insns := s.trd.insns + 1, cost := s.trd.cost + 2 } →
    (∀ w : Nat, at_ w ↔ s.trd.running = true ∧ s.trd.ppsWait = none ∧ s.trd.pc < rd TRD_BANK_CFG_LENGTH (bankOf s) s ∧
      draftAt (bankOf s) s.trd.pc s = w ∧ s.trd.insns < 255) →
    (∀ c ∈ ([(.kind k2 mask, encKind k2 mask, TRD_PORT_KIND, k2.toNat), (.slot k6 mask, encSlot k6 mask, TRD_PORT_SLOT, k6.toNat),
        (.gzt g mask, encGzt g mask, TRD_PORT_GZT, g.toNat)] : List (Instr × Nat × Fld × Nat)),
      at_ c.2.1 → ∃ t, exec c.1 s = .next t ∧ t.trd = u ∧
        s.framed t [.trd] ((List.range 16).map (fun p => c.2.2.1.key p)) ∧
        ∀ p : Nat, p < 16 → rd c.2.2.1 p t = if mask.getLsbD p then c.2.2.2 else rd c.2.2.1 p s) ∧
    (at_ (encLine inc l mask) → s.trd.set = none → ∃ t, exec (.line inc l mask) s = .next t ∧ t.trd = u ∧
      s.framed t [.trd] ((List.range 16).map (fun p => TRD_PORT_LINE_STG.key p)) ∧
      ∀ p : Nat, p < 16 → lineStg p t = if mask.getLsbD p then (if inc then (lineStg p s + 1) % 8 else l.toNat) else lineStg p s) ∧
    (at_ (encLine inc l mask) → setPrepared s = true → exec (.line inc l mask) s = .next { s with trd := { u with held := s.trd.held ++ (maskList 16 mask.toNat).map (fun p => .fld (TRD_PORT_LINE_STG.key p) 0 ((if inc then (lineStg p s + 1) % 8 else l.toNat) % 8)) } }) ∧
    (at_ (encLo e) → exec (.lo e) s = .next { s with trd := { u with loNamed := some e.toNat } }) ∧
    (at_ (encStripe ln st) → exec (.stripe ln st) s = .next { s with trd := { u with places := s.trd.places ++ [(ln.toNat, st.toNat, s.trd.pc)] } })) ∧
  (∀ (s : State) (u : Treadle) (at_ : Nat → Prop) (q : BitVec 2) (pri : BitVec 4) (code : BitVec 16) (ofs : BitVec 29) (n : Nat),
    u = { s.trd with pc := s.trd.pc + 1, insns := s.trd.insns + 1, cost := s.trd.cost + 2 } → n = 60 + q.toNat →
    (∀ w : Nat, at_ w ↔ s.trd.running = true ∧ s.trd.ppsWait = none ∧ s.trd.pc < rd TRD_BANK_CFG_LENGTH (bankOf s) s ∧
      draftAt (bankOf s) s.trd.pc s = w ∧ s.trd.insns < 255) →
    (at_ encPick → s.trd.set = none → s.trd.loNamed = none → s.trd.firstPick = false → ∃ t, exec .pick s = .next t ∧
      s.trd.progStart + s.trd.cost + 2 ≤ t.now ∧ s.framed t [.now, .trd] [] ∧
      t.trd = { u with running := false, progEnd := some (s.trd.progStart + (s.trd.cost + 2)) }) ∧
    (∀ c : ChangeSet, at_ encPick → s.trd.set = some c → c.prepared = false → s.trd.loNamed = none → s.trd.firstPick = false →
      ∃ t, exec .pick s = .next t ∧ t.trd.running = false ∧ t.trd.progEnd = some (s.trd.progStart + (s.trd.cost + 2)) ∧
        (unreadyMask s = 0 → t.trd.set = some { c with prepared := true, affected := affectedMask s }) ∧
        (unreadyMask s ≠ 0 → t.trd.set = some { c with triedFailed := true, affected := affectedMask s, notReady := unreadyMask s } ∧
          (c.tries = 0 → evtSet 66 t = true))) ∧
    (at_ (encNote q pri code) → rdB WRP_INJ_ADDR_ARM 0 s = false → 1 ≤ qRoom n s → ∃ t, exec (.note q pri code) s = .next t ∧
      t.trd = u ∧ s.framed t (.trd :: recParts) (pushKeys n) ∧
      (queueOf n t).items = insertItem
        (pushedItem n pri.toNat (code.toNat * 2 ^ 32 + s.trd.pickN % 2 ^ 32) s) (queueOf n s).items) ∧
    (at_ (encNote q pri code) → qRoom n s = 0 → s.trd.noteDropped = false → ∃ t, exec (.note q pri code) s = .next t ∧
      t.trd = { u with noteDropped := true } ∧ evtSet 71 t = true ∧ t.queues = s.queues ∧
      rd TRD_CNT_NOTE_DROP 0 t = satU TRD_CNT_NOTE_DROP.width (rd TRD_CNT_NOTE_DROP 0 s + 1)) ∧
    (at_ (encPpsa ofs) → rdB SYS_DISC_CTL_PPS_EN 0 s = false → ∃ t, exec (.ppsa ofs) s = .next t ∧ t.trd = u ∧ evtSet 68 t = true ∧
      evtSet 20 t = true ∧ s.framed t (.now :: .trd :: recParts) (evtKey 68 :: logKeys)) ∧
    (at_ (encPpsa ofs) → rdB SYS_DISC_CTL_PPS_EN 0 s = true → rdB SYS_DISC_STAT_HOLDOVER 0 s = false →
      ∃ t, exec (.ppsa ofs) s = .next t ∧ t.trd = { u with ppsWait := some (t.now, ofs.toNat) } ∧
        s.trd.progStart + s.trd.cost + 2 ≤ t.now ∧ s.framed t [.now, .trd] []) ∧
    (∀ d o : Nat, s.trd.ppsWait = some (d, o) → ∃ t, exec .ppsaTimeout s = .next t ∧ d + 1500000000 ≤ t.now ∧
      t.trd = { s.trd with ppsWait := none, progStart := t.now - s.trd.cost } ∧ evtSet 68 t = true ∧ evtSet 20 t = true) ∧
    (at_ encBeat → s.trd.beatTaken = false → ∀ c : ChangeSet, s.trd.set = some c → ∃ t, exec .beat s = .next t ∧
      t.trd = { u with beatTaken := true } ∧ s.framed t [.trd] [TRD_CNT_MERGED.key 0] ∧
      rd TRD_CNT_MERGED 0 t = satU TRD_CNT_MERGED.width (rd TRD_CNT_MERGED 0 s + 1)) ∧
    (at_ encBeat → s.trd.beatTaken = false → s.trd.set = none → (∀ p : Nat, p < 16 → lineStg p s = lineOf p s) →
      exec .beat s = .next { s with trd := { u with beatTaken := true, set := some { beatPick := s.trd.pickN } } }) ∧
    (at_ encBeat → s.trd.beatTaken = true → exec .beat s = .next { s with trd := u }) ∧
    (at_ encSwap → setPrepared s = false → exec .swap s = .next { s with trd := { u with swapStaged := true } }) ∧
    (at_ encSwap → setPrepared s = true → exec .swap s = .next { s with trd := { u with held := s.trd.held ++ [.swap] } }))

/-- R198, R199, R234, R235: the draft window and the bank settings: a written word clears VALID; the active bank is not written while
WEAVING; a changed setting clears VALID; VALIDATE starts a scan, whose end shows the first failing check or sets VALID. What the spec
leaves open in it is the model's choice: log entries 6 and 107. -/
def Obligations.DraftStoreAndScan : Prop :=
  ∀ (s : State) (v : Qword) (bank a : Nat) (b : Fin 2), bank = rd TRD_DRAFT_ADDR_BANK 0 s → a = rd TRD_DRAFT_ADDR_ADDR 0 s → bank < 2 →
    (s.sys.inReset = false → ∃ t, exec (.trdDraftDataAccess none) s = .next t ∧ s.framed t [.out] [TRD_DRAFT_ADDR_ADDR.key 0] ∧
      t.out = .readData (BitVec.ofNat 64 (draftAt bank a s)) :: s.out ∧ rd TRD_DRAFT_ADDR_ADDR 0 t = (a + 1) % 4096) ∧
    (s.sys.inReset = false → weaving s = false → swapPrepared s = false → rdB TRD_BANK_CFG_CHECKING bank s = false →
      ∃ t, exec (.trdDraftDataAccess (some v)) s = .next t ∧
        s.framed t [.trd] [TRD_DRAFT_ADDR_ADDR.key 0, TRD_BANK_CFG_VALID.key bank] ∧ rd TRD_BANK_CFG_VALID bank t = 0 ∧
        t.trd = { s.trd with draft := t.trd.draft } ∧ rd TRD_DRAFT_ADDR_ADDR 0 t = (a + 1) % 4096 ∧
        ∀ k : Nat, t.trd.draft.get 0 k = if k = 4096 * bank + a then v.toNat % 2 ^ 48 else s.trd.draft.get 0 k) ∧
    (s.sys.inReset = false → weaving s = true → bank = bankOf s → ∃ t, exec (.trdDraftDataAccess (some v)) s = .next t ∧ evtSet 20 t = true ∧
      s.framed t recParts (TRD_DRAFT_ADDR_ADDR.key 0 :: logKeys)) ∧
    (s.sys.inReset = false → swapPrepared s = false → rdB TRD_BANK_CFG_CHECKING b s = false → v.getLsbD 1 = false →
      (rd TRD_BANK_CFG_ENTRY b s ≠ TRD_BANK_CFG_ENTRY.ofQ v ∨ rd TRD_BANK_CFG_LENGTH b s ≠ TRD_BANK_CFG_LENGTH.ofQ v ∨
        rd TRD_BANK_CFG_STEP b s ≠ TRD_BANK_CFG_STEP.ofQ v) →
      ∃ t, exec (.trdBankCfgWrite b v) s = .next t ∧ rd TRD_BANK_CFG_ENTRY b t = TRD_BANK_CFG_ENTRY.ofQ v ∧
        rd TRD_BANK_CFG_LENGTH b t = TRD_BANK_CFG_LENGTH.ofQ v ∧ rd TRD_BANK_CFG_STEP b t = TRD_BANK_CFG_STEP.ofQ v ∧
        rd TRD_BANK_CFG_VALID b t = 0 ∧ t.trd = s.trd) ∧
    (s.sys.inReset = false → swapPrepared s = false → rdB TRD_BANK_CFG_CHECKING b s = false → ∃ t, exec (.validate b) s = .next t ∧
      rd TRD_BANK_CFG_CHECKING b t = 1 ∧ rd TRD_BANK_CFG_VALID b t = 0 ∧
      t.trd = { s.trd with scans := s.trd.scans ++ [{ bank := b, started := s.now }] }) ∧
    (rdB TRD_BANK_CFG_CHECKING b s = true → scanResult b s = none → ∃ t, exec (.scanEnd b) s = .next t ∧
      rd TRD_BANK_CFG_CHECKING b t = 0 ∧ rd TRD_BANK_CFG_VALID b t = 1 ∧ rd TRD_BANK_CFG_ERR b t = 0 ∧
      t.trd = { s.trd with scans := s.trd.scans.filter (fun x => x.bank ≠ b) }) ∧
    (∀ code at_ : Nat, code < 16 → at_ < 4096 → rdB TRD_BANK_CFG_CHECKING b s = true → scanResult b s = some (code, at_) →
      ∃ t, exec (.scanEnd b) s = .next t ∧ rd TRD_BANK_CFG_CHECKING b t = 0 ∧ rd TRD_BANK_CFG_VALID b t = 0 ∧
        rd TRD_BANK_CFG_ERR b t = code ∧ rd TRD_BANK_CFG_ERR_ADDR b t = at_)

/-- R214, R216, R222, R223: what the host asks of the Treadle: a beat, a bank swap, flags, and a DISCARD of the staged values; a DISCARD
ends a waiting set as DISCARDED with event 65 and is put off behind a prepared one. R16, R17, R20, R22 to R26, R217, R219 to R221,
R417: the reference time is the later of the nominal time and the last tick with the floor; a launch is ready at the first edge 32 sc
or more after the completions and not before the program's end. A candidate within the limit is ticked at it: the tick shows its
number, cause, lateness and floor; a port launches exactly where R217 lets it, with its LAUNCH gate at the tick with its offset; a
failed try counts, the 17th abandons the set, and a prepared set is committed. A candidate beyond the limit drops the pick, which is
counted and reported. R21: the oldest pick whose units have all reported is complete, at the Reed's end at the earliest; a completion
after its deadline is counted and raises event 4. What the spec leaves open in it is the model's choice: log entries 1, 6, 57, 95 and
100. -/
def Obligations.PicksAndRequests : Prop :=
  (∀ (s : State) (v : Qword), bankOf s < 2 → s.sys.inReset = false →
    (weaving s = true → s.trd.weaving = true → exec .hostBeat s = .next { s with trd := { s.trd with hostBeat := true } }) ∧
    (weaving s = true → setPrepared s = false → exec .trdCtlSwap s = .next { s with trd := { s.trd with swapStaged := true } }) ∧
    (weaving s = false → draftReady s = true → ∃ t, exec .trdCtlSwap s = .next t ∧ bankOf t = 1 - bankOf s ∧
      s.framed t [] [TRD_CTL_BANK.key 0]) ∧
    (weaving s = false → draftReady s = false → ∃ t, exec .trdCtlSwap s = .next t ∧ bankOf t = bankOf s ∧ evtSet 20 t = true ∧
      t.trd = s.trd) ∧
    (exec (.trdFlagSetWrite v) s = .next { s with trd := { s.trd with flags := Nat.lor s.trd.flags (v.toNat % 2 ^ 16) } }) ∧
    (weaving s = true → s.trd.set = none → ∃ t, exec .discard s = .next t ∧ t.trd = { s.trd with swapStaged := false } ∧
      t.ports.gzStg = s.ports.gz ∧ t.spc.loStg = s.spc.lo ∧ ∀ p : Nat, p < 16 → lineStg p t = lineOf p s % 8) ∧
    (∀ c : ChangeSet, weaving s = true → s.trd.set = some c → c.prepared = false → ∃ t, exec .discard s = .next t ∧ t.trd.set = none ∧
      t.trd.swapStaged = false ∧ rd TRD_BEAT_STAT_OUTCOME 0 t = 3 ∧ rd TRD_BEAT_STAT_TRIES 0 t = c.tries % 32 ∧
      rd TRD_BEAT_PICK_PICK 0 t = rd SYS_PICK_NUM_NUM 0 s % 2 ^ 48 ∧ evtSet 65 t = true ∧ t.ports.gzStg = s.ports.gz ∧
      t.spc.loStg = s.spc.lo ∧ ∀ p : Nat, p < 16 → lineStg p t = lineOf p s % 8) ∧
    (∀ c : ChangeSet, weaving s = true → s.trd.set = some c → c.prepared = true →
      exec .discard s = .next { s with trd := { s.trd with held := s.trd.held ++ [.discard] } })) ∧
  (∀ (s : State) (e nominal smax floor ref limit : Nat), s.trd.progEnd = some e → weaving s = true → s.trd.weaving = true →
    s.trd.running = false → s.trd.ppsWait = none →
    nominal = s.trd.anchorG + (s.trd.pickN + 2 ^ 48 - s.trd.anchorB) % 2 ^ 48 * periodOf s →
    (∀ x ∈ s.trd.lastSheds, isBlanked x.1 s = false → x.2 ≤ smax) →
    (smax = 0 ∨ ∃ x ∈ s.trd.lastSheds, isBlanked x.1 s = false ∧ x.2 = smax) → floor = smax + selvOf s →
    (s.trd.lastTick = none → ref = nominal) → (∀ l : Nat, s.trd.lastTick = some l → ref = maxN nominal (l + floor)) →
    limit = nominal + stretchOf s →
    ((∃ x ∈ s.trd.picks.dropLast, x.complete = none) → exec .pickTick s = .next s) ∧
    (∀ (ok : Nat → Prop) (r c n : Nat), (∀ x ∈ s.trd.picks.dropLast, x.complete ≠ none) →
      (∀ q : Nat, ok q ↔ s.trd.doneBase ≤ q ∧ e ≤ 2 * q ∧ ∀ x ∈ s.trd.picks.dropLast, ∀ d : Nat, x.complete = some d → d + 64 ≤ 2 * q) →
      ok r → (∀ q : Nat, ok q → r ≤ q) → c = maxN ref r → n = s.trd.pickN →
      (c ≤ limit → exec .pickDrop s = .next s ∧ ∃ t k, exec .pickTick s = .next t ∧ t.now = maxN s.now (2 * c) ∧
        t.trd.lastTick = some c ∧ t.trd.progEnd = none ∧ t.trd.startDue = some (2 * c + 16) ∧ t.trd.firstPick = false ∧
        t.trd.places = [] ∧ t.trd.carried = [] ∧ t.trd.picks.getLast? = some k ∧ k.n = n ∧ k.tick = 2 * c ∧
        t.trd.lastSheds = k.ports.map (fun y => (y.port, y.shed)) ∧ rd SYS_PICK_NUM_NUM 0 t = n % 2 ^ 48 ∧
        rd SYS_PICK_STAT_CAUSE 0 t = (if c = nominal then 0 else if c = r then 1 else 2) ∧
        rd SYS_PICK_STAT_FLOOR 0 t = floor % 2 ^ SYS_PICK_STAT_FLOOR.width ∧ rd SYS_PICK_STAT_LATENESS 0 t = c - nominal ∧
        (c ≠ nominal → c = r → evtSet 3 t = true ∧
          rd SYS_PICK_CNT_STRETCHES 0 t = satU SYS_PICK_CNT_STRETCHES.width (rd SYS_PICK_CNT_STRETCHES 0 s + 1)) ∧
        (∀ p j : Nat, p < 16 → s.trd.set = none → j = 8 * p + lineOf p s →
          (portSt p s ≠ pRUNNING ∨ (rd TRD_PORT_KIND p s ≠ 1 ∧ rd TRD_PORT_KIND p s ≠ 2) ∨ permitted s = false ∨
              s.src.blankArm.get false p = true ∨ maxN s.now (2 * c) < s.src.blankUntil.get 0 p ∨ shedOf j s = 0 ∨
              (slotOf (rd TRD_PORT_SLOT p s) s).inForce = none →
            rd RED_PORT_STAT_LAST_KIND p t = 0 ∧ ∀ y ∈ k.ports, y.port ≠ p) ∧
          (∀ b : CodeBank, portSt p s = pRUNNING → rd TRD_PORT_KIND p s = 1 → permitted s = true → s.src.blankArm.get false p = false →
            s.src.blankUntil.get 0 p ≤ maxN s.now (2 * c) → shedOf j s ≠ 0 → (slotOf (rd TRD_PORT_SLOT p s) s).inForce = some b →
            rd RED_PORT_STAT_LAST_KIND p t = 1 ∧
            (∃ y ∈ k.ports, y.port = p ∧ y.kind = 1 ∧ y.slot = rd TRD_PORT_SLOT p s ∧ y.bank = b ∧ y.line = lineOf p s ∧
              y.shed = shedOf j s ∧ y.launchRaw = 512 * c + 4 * rd SRC_LAUNCH_OFFSET p s) ∧
            ∃ (g : Gate) (w : List Nat), t.src.gates.get none p = some g ∧ g.at_ = 512 * c + 4 * rd SRC_LAUNCH_OFFSET p s ∧
              g.len = nCodeOf b + rd SRC_LAUNCH_EXTEND p s ∧ .launch p g.at_ g.len (chipLenOf b) (b.chipsM1 + 1) w ∈ t.out)) ∧
        (∀ x : ChangeSet, s.trd.set = some x → x.prepared = false → x.triedFailed = true →
          (x.tries < 16 → t.trd.set = some { x with tries := x.tries + 1, triedFailed := false }) ∧
          (16 ≤ x.tries → t.trd.set = none ∧ rd TRD_BEAT_STAT_OUTCOME 0 t = 2 ∧ rd TRD_BEAT_STAT_TRIES 0 t = 17 ∧
            rd TRD_BEAT_PICK_PICK 0 t = n % 2 ^ 48 ∧ evtSet 65 t = true)) ∧
        (∀ x : ChangeSet, s.trd.set = some x → x.prepared = true → s.trd.held = [] → t.trd.set = none ∧
          rd TRD_BEAT_STAT_OUTCOME 0 t = 1 ∧ rd TRD_BEAT_STAT_TRIES 0 t = (x.tries + 1) % 32 ∧
          rd TRD_BEAT_PICK_PICK 0 t = n % 2 ^ 48 ∧ evtSet 64 t = true ∧
          (∀ p : Nat, p < 16 → lineStg p s < 8 → lineOf p t = if bitOf x.affected 5 then lineStg p s else lineOf p s) ∧
          (bankOf s < 2 → bankOf t = if bitOf x.affected 6 then 1 - bankOf s else bankOf s) ∧
          (bitOf x.affected 6 = true → evtSet 70 t = true ∧ t.trd.loops = [] ∧ t.trd.pc = rd TRD_BANK_CFG_ENTRY (1 - bankOf s) s) ∧
          (bitOf x.affected 0 = true → rdI SYS_PICK_PERIOD_PERIOD 0 t = rd SYS_PICK_PERIOD_PERIOD 0 s) ∧
          t.spc.lo = (if bitOf x.affected 7 then s.spc.loStg else s.spc.lo) ∧
          t.ports.gz = (if bitOf x.affected 1 then s.ports.gzStg else s.ports.gz))) ∧
      (limit < c → exec .pickTick s = .next s ∧ ((∀ w : Nat, w < 4 → rdB DRM_RPL_EN w s = false) →
        ∃ t, exec .pickDrop s = .next t ∧ t.now = maxN s.now (if limit < ref then e else 2 * limit) ∧
          rd SYS_PICK_NUM_NUM 0 t = n % 2 ^ 48 ∧ rd SYS_PICK_STAT_CAUSE 0 t = 3 ∧
          rd SYS_PICK_STAT_FLOOR 0 t = floor % 2 ^ SYS_PICK_STAT_FLOOR.width ∧ evtSet 2 t = true ∧
          rd SYS_PICK_CNT_DROPS 0 t = satU SYS_PICK_CNT_DROPS.width (rd SYS_PICK_CNT_DROPS 0 s + 1) ∧
          t.trd.lastTick = s.trd.lastTick ∧ t.trd.progEnd = none ∧ t.trd.places = [] ∧ t.trd.carried = s.trd.carried ++ s.trd.places ∧
          t.trd.set = s.trd.set.map (fun x => { x with triedFailed := false }) ∧ t.trd.startDue = some t.now ∧
          s.framed t [.now, .trd, .heddle, .sht, .out, .host, .queues]
            ([SYS_PICK_NUM_NUM.key 0, SYS_PICK_CNT_DROPS.key 0, SYS_PICK_STAT_FLOOR.key 0, SYS_PICK_STAT_CAUSE.key 0, evtKey 2] ++ recKeys))))) ∧
  (∀ (s : State) (x : PickCtx) (n : Nat), s.trd.picks.find? (fun x => pickAllDone x s) = some x → n = maxN s.now (pickWorkEnd x s) →
    (∀ d : Nat, x.deadline = some d → d < n → ∃ t, exec .pickDone s = .next t ∧ evtSet 4 t = true ∧ t.now = n ∧
      s.framed t (.now :: .trd :: evtParts) [SYS_PICK_CNT_LATE.key 0, evtKey 4] ∧
      rd SYS_PICK_CNT_LATE 0 t = satU SYS_PICK_CNT_LATE.width (rd SYS_PICK_CNT_LATE 0 s + 1)) ∧
    ((∀ d : Nat, x.deadline = some d → n ≤ d) → exec .pickDone s = .next { s with now := n, trd := { s.trd with picks := s.trd.picks.map (fun y => if y.n = x.n ∧ y.tick = x.tick then { y with complete := some n } else y) } }))

/-! ### Ports, converters, the Reed and the Gauge -/

/-- R61 to R65, R84: a swap request to a READY spare makes it SHADOW; with no spare it is refused with its reason and logged; at the switch
the spare serves the slot, and a failed converter leaves the group for good; a stuck converter fails, its port shows CONV_FAULT and a
RUNNING port faults; a failed converter's group asks for a swap itself. What the spec leaves open in it is the model's choice: log
entries 6 and 94. -/
def Obligations.ConverterSwaps : Prop :=
  ∀ (g : Fin 4) (v : Qword) (s : State) (sp : Nat), sp = rd CNV_GRP_STAT_SPARE g s →
    (∀ k : Nat, k = CNV_GRP_CTL_SLOT.ofQ v →
      (sp < 68 → cnvSt sp s = cREADY → swapOf g s = none → portSt (4 * g + k / 4) s ≠ pGATED →
        s.sys.inReset = false → ∃ t, exec (.convSwapRequest g v) s = .next t ∧ cnvSt sp t = cSHADOW ∧ rd CNV_GRP_STAT_BUSY g t = 1 ∧
          swapOf g t = some { slot := k, spare := sp, at_ := s.now, byCmd := false } ∧
          s.framed t [.ports] [CNV_STAT_STATE.key sp, CNV_GRP_STAT_BUSY.key g, CNV_GRP_CTL_AUTO_SPARE.key g]) ∧
      (sp = 0xFF → s.sys.inReset = false → ∃ t, exec (.convSwapRequest g v) s = .next t ∧ rd CNV_GRP_STAT_REFUSED g t = 1 ∧
        rd CNV_GRP_STAT_REASON g t = 1 ∧ evtSet (33 + 2 * (4 * g + k / 4)) t = true ∧ evtSet 20 t = true ∧
        s.framed t recParts ([CNV_GRP_STAT_REFUSED.key g, CNV_GRP_STAT_REASON.key g, CNV_GRP_CTL_AUTO_SPARE.key g,
          evtKey (33 + 2 * (4 * g + k / 4))] ++ logKeys))) ∧
    (∀ (x : ConvSwap) (p i old : Nat), swapOf g s = some x → x.slot < 16 → x.spare < 68 → p = 4 * g + x.slot / 4 → i = x.slot % 4 →
      old = convOf p i s → old < 68 → old ≠ x.spare → portSt p s ≠ pGATED →
      ∃ t, exec (.swapSwitch g) s = .next t ∧ x.at_ + 10000 ≤ t.now ∧ swapOf g t = none ∧ convOf p i t = x.spare ∧
        cnvSt x.spare t = cSERVING ∧ rd CNV_STAT_SLOT x.spare t = 4 * p + i ∧ rd CNV_GRP_STAT_DONE g t = 1 ∧
        rd CNV_GRP_STAT_BUSY g t = 0 ∧ rd CNV_GRP_STAT_LAST_SLOT g t = x.slot ∧ evtSet (33 + 2 * p) t = true ∧
        (cnvSt old s = cFAILED → rd CNV_GRP_STAT_SPARE g t = 0xFF ∧ cnvSt old t = cFAILED) ∧
        (cnvSt old s ≠ cFAILED → rd CNV_GRP_STAT_SPARE g t = old ∧ cnvSt old t = cCALIBRATING ∧ rd CNV_STAT_SLOT old t = 0xFF) ∧
        s.framed t [.now, .ports, .inf, .cal, .out, .host] [(mapFld i).key p, CNV_STAT_STATE.key x.spare, CNV_STAT_SLOT.key x.spare,
          CNV_STAT_STATE.key old, CNV_STAT_SLOT.key old, CNV_GRP_STAT_SPARE.key g, CNV_GRP_STAT_BUSY.key g, CNV_GRP_STAT_DONE.key g,
          CNV_GRP_STAT_LAST_SLOT.key g, CNV_GRP_STAT_SWAPS.key g, evtKey (33 + 2 * p)]) ∧
    (∀ (x : ConvSwap) (p i old : Nat), swapOf g s = some x → x.slot < 16 → x.spare < 68 → p = 4 * g + x.slot / 4 → i = x.slot % 4 →
      old = convOf p i s → old < 68 → old ≠ x.spare → portSt p s = pGATED → cnvSt old s ≠ cFAILED →
      ∃ t, exec (.swapSwitch g) s = .next t ∧ swapOf g t = none ∧ convOf p i t = x.spare ∧ cnvSt x.spare t = cGATED ∧
        rd CNV_STAT_SLOT x.spare t = 0xFF ∧ rd CNV_GRP_STAT_SPARE g t = old ∧ cnvSt old t = cnvSt old s ∧ rd CNV_GRP_STAT_DONE g t = 1) ∧
    (∀ (j : Fin 68) (k : Nat), cnvSt j s = cSERVING → slotOfConv j s = some k →
      ∃ t, exec (.convStuck j) s = .next t ∧ cnvSt j t = cFAILED ∧ rd CNV_STAT_STUCK j t = 1 ∧ rd PRT_STAT_CONV_FAULT (k / 4) t = 1 ∧
        evtSet (33 + 2 * (k / 4)) t = true ∧ portSt (k / 4) t = (if portSt (k / 4) s = pRUNNING then pFAULTED else portSt (k / 4) s) ∧
        (portSt (k / 4) s = pRUNNING → evtSet (32 + 2 * (k / 4)) t = true) ∧
        s.framed t (.trd :: .ports :: evtParts) [CNV_STAT_STATE.key j, CNV_STAT_SLOT.key j, CNV_STAT_STUCK.key j, PRT_STAT_CONV_FAULT.key (k / 4),
          PRT_STAT_STATE.key (k / 4), evtKey (33 + 2 * (k / 4))]) ∧
    (∀ k : Nat, failedSlot g s = some k → rd CNV_GRP_CTL_AUTO_SPARE g s = 1 → sp < 68 → cnvSt sp s = cREADY → swapOf g s = none →
      portSt (4 * g + k / 4) s ≠ pGATED →
      ∃ t, exec (.autoSwapRequest g) s = .next t ∧ cnvSt sp t = cSHADOW ∧ rd CNV_GRP_STAT_BUSY g t = 1 ∧
        swapOf g t = some { slot := k, spare := sp, at_ := s.now, byCmd := false } ∧
        s.framed t [.ports] [CNV_STAT_STATE.key sp, CNV_GRP_STAT_BUSY.key g])

/-- R66 to R69, R71: a start of a STOPPED port with a valid geometry and load runs it, one with a bad geometry is refused with its check
and logged, one of a GATED port is ignored and logged, one of a CLOSING port waits; a stop of a RUNNING port closes it while WEAVING
and stops it otherwise; a closed port is STOPPED once nothing is owed, or RUNNING where a start waits; membership changes only an idle
port, and a port outside the Frugal profile is GATED with its converters. R54: the corrections of a port and of its converters come
into force at the first edge at which no shed of the port is in progress. What the spec leaves open in it is the model's choice: log
entries 6 and 57. -/
def Obligations.PortsAndCorrections : Prop :=
  (∀ (p : Fin 16) (v : Qword) (s : State), PRT_CTL_FRUGAL_MEMBER.ofQ v = rd PRT_CTL_FRUGAL_MEMBER p s →
    (portSt p s = pSTOPPED → geomErr p s = 0 → heddleLoad (some p) s ≤ 16 * periodOf s → startUnready p s = false → convCause p s = false →
      s.sys.inReset = false → ∃ t, exec (.prtRunStart p v) s = .next t ∧ portSt p t = pRUNNING ∧ rd PRT_CTL_RUN p t = 1 ∧ rd PRT_STAT_CONV_FAULT p t = 0 ∧
        rd PRT_STAT_STAMP_FAULT p t = 0 ∧ rd SRC_MON_RUN p t = 0 ∧
        s.framed t [.ports, .gauge, .heddle, .trd, .host] [PRT_STAT_STATE.key p, PRT_CTL_RUN.key p, PRT_STAT_CONV_FAULT.key p,
          PRT_STAT_STAMP_FAULT.key p, PRT_STAT_START_PENDING.key p, SRC_MON_RUN.key p, GAU_STAT_GEOM_ERR.key p]) ∧
    (portSt p s = pSTOPPED → geomErr p s ≠ 0 → s.sys.inReset = false → ∃ t, exec (.prtRunStart p v) s = .next t ∧ portSt p t = pSTOPPED ∧
      rd GAU_STAT_GEOM_ERR p t = geomErr p s ∧ evtSet 20 t = true ∧ s.framed t recParts (GAU_STAT_GEOM_ERR.key p :: logKeys)) ∧
    (portSt p s = pGATED → s.sys.inReset = false → ∃ t, exec (.prtRunStart p v) s = .next t ∧ evtSet 20 t = true ∧ s.framed t recParts logKeys) ∧
    (portSt p s = pCLOSING → s.sys.inReset = false → ∃ t, exec (.prtRunStart p v) s = .next t ∧ rd PRT_STAT_START_PENDING p t = 1 ∧ rd PRT_CTL_RUN p t = 1 ∧
      s.framed t [] [PRT_STAT_START_PENDING.key p, PRT_CTL_RUN.key p]) ∧
    (portSt p s = pRUNNING → weaving s = true → s.sys.inReset = false → ∃ t, exec (.prtRunStop p v) s = .next t ∧ portSt p t = pCLOSING ∧ rd PRT_CTL_RUN p t = 0 ∧
      s.framed t [] [PRT_STAT_STATE.key p, PRT_CTL_RUN.key p]) ∧
    (portSt p s = pRUNNING → weaving s = false → rd PRT_STAT_START_PENDING p s = 0 → (areaOf p s).state ≠ 1 →
      s.sys.inReset = false → ∃ t, exec (.prtRunStop p v) s = .next t ∧ portSt p t = pSTOPPED ∧ rd PRT_CTL_RUN p t = 0 ∧
        s.framed t [.host] [PRT_STAT_STATE.key p, PRT_CTL_RUN.key p]) ∧
    (portSt p s = pCLOSING → rd PRT_STAT_START_PENDING p s = 1 → s.sys.inReset = false → ∃ t, exec (.prtRunStop p v) s = .next t ∧
      rd PRT_STAT_START_PENDING p t = 0 ∧ rd PRT_CTL_RUN p t = 0 ∧ evtSet (32 + 2 * p) t = true ∧ portSt p t = pCLOSING ∧
      s.framed t evtParts [PRT_STAT_START_PENDING.key p, PRT_CTL_RUN.key p, evtKey (32 + 2 * p)]) ∧
    (portSt p s = pCLOSING → portOwes p s = false → (areaOf p s).state ≠ 1 → convCause p s = false →
      ∃ t, exec (.portCloseDone p) s = .next t ∧
        portSt p t = (if rd PRT_STAT_START_PENDING p s % 2 = 1 then pRUNNING else pSTOPPED) ∧
        (rd PRT_STAT_START_PENDING p s = 0 → s.framed t [.host] [PRT_STAT_STATE.key p])) ∧
    (∀ m : Bool, b2n m ≠ rd PRT_CTL_FRUGAL_MEMBER p s → rd PRT_CTL_RUN p s = 0 → portSt p s = pSTOPPED → frugal s = false →
      (m = true → frugalMembers s < 4) → s.sys.inReset = false → ∃ t, exec (.frugalMemberWrite p m) s = .next t ∧ rd PRT_CTL_FRUGAL_MEMBER p t = b2n m ∧
        s.framed t [] [PRT_CTL_FRUGAL_MEMBER.key p, PRT_CTL_RUN.key p]) ∧
    (∀ m : Bool, b2n m ≠ rd PRT_CTL_FRUGAL_MEMBER p s → rd PRT_CTL_RUN p s = 1 → portSt p s = pRUNNING →
      s.sys.inReset = false → ∃ t, exec (.frugalMemberWrite p m) s = .next t ∧ evtSet 20 t = true ∧ s.framed t recParts logKeys) ∧
    (rd PRT_CTL_FRUGAL_MEMBER p s = 1 → rd PRT_CTL_RUN p s = 0 → portSt p s = pSTOPPED → frugal s = true →
      (∀ i : Nat, i < 4 → convOf p i s < 68 ∧ cnvSt (convOf p i s) s = cSERVING) →
      (rd CNV_GRP_STAT_SPARE (p.val / 4) s < 68 ∨ rd CNV_GRP_STAT_SPARE (p.val / 4) s = 0xFF) →
      s.sys.inReset = false → ∃ t, exec (.frugalMemberWrite p false) s = .next t ∧ portSt p t = pGATED ∧ rd PRT_CTL_FRUGAL_MEMBER p t = 0 ∧
        ∀ i : Nat, i < 4 → cnvSt (convOf p i s) t = cGATED)) ∧
  (∀ (p : Fin 16) (s : State), (∀ i : Nat, i < 4 → convOf p i s < 68) → ∃ t, exec (.corrApply p) s = .next t ∧
    t.now = maxN s.now (quietEdge p s.now s) ∧ s.framed t [.now, .inf] [] ∧
    (∀ f ∈ portCorrFlds, rdI f p t = rd f p s % 2 ^ f.width) ∧
    (∀ f ∈ PRT_SKEW.fields, rdI f p t = ux 16 (max (-819) (min 819 (rdZ f p s)))) ∧
    (∀ i : Nat, i < 4 → ∀ f ∈ corrFlds, rdI f (convOf p i s) t = rd f (convOf p i s) s % 2 ^ f.width) ∧
    ∀ (f : Fld) (k : Nat), (∀ g ∈ portCorrFlds ++ PRT_SKEW.fields, f.key k ≠ g.key p) →
      (∀ i : Nat, i < 4 → ∀ g ∈ corrFlds, f.key k ≠ g.key (convOf p i s)) → rdI f k t = rdI f k s)

/-- R59, R77, R91, R108: a data window reads and writes the word its address names and the address then moves on: a gain-zone word is in
force at once or staged while WEAVING, an entry above 8 is logged; the load buffer of the Reed is not written while a slot is prepared.
What the spec leaves open in it is the model's choice: log entry 92. -/
def Obligations.GainZoneAndLoadWindows : Prop :=
  ∀ (s : State) (v : Qword),
    (∀ (p : Fin 16) (tb e k : Nat), tb = rd PRT_GZ_ADDR_TABLE p s → e = rd PRT_GZ_ADDR_ENTRY p s → k = gzKey p tb e → e < 16 →
      (e ≤ 8 → s.sys.inReset = false → ∃ t, exec (.gzDataAccess p none) s = .next t ∧ s.framed t [.out] [PRT_GZ_ADDR_ENTRY.key p] ∧
        t.out = .readData (BitVec.ofNat 64 (s.ports.gzStg.get 0 k)) :: s.out ∧ rd PRT_GZ_ADDR_ENTRY p t = (e + 1) % 16) ∧
      (e ≤ 8 → weaving s = false → s.sys.inReset = false → ∃ t, exec (.gzDataAccess p (some v)) s = .next t ∧ s.framed t [.ports] [PRT_GZ_ADDR_ENTRY.key p] ∧
        rd PRT_GZ_ADDR_ENTRY p t = (e + 1) % 16 ∧
        t.ports = { s.ports with gz := s.ports.gz.put 0 k (gzMask e v), gzStg := s.ports.gzStg.put 0 k (gzMask e v) }) ∧
      (e ≤ 8 → weaving s = true → portSt p s = pRUNNING → setPrepared s = false →
        s.sys.inReset = false → ∃ t, exec (.gzDataAccess p (some v)) s = .next t ∧ s.framed t [.ports] [PRT_GZ_ADDR_ENTRY.key p] ∧
        t.ports = { s.ports with gzStg := s.ports.gzStg.put 0 k (gzMask e v) }) ∧
      (8 < e → s.sys.inReset = false → ∃ t, exec (.gzDataAccess p (some v)) s = .next t ∧ evtSet 20 t = true ∧
        s.framed t recParts (PRT_GZ_ADDR_ENTRY.key p :: logKeys))) ∧
    (∀ a : Nat, a = rd RED_LOAD_ADDR_ADDR 0 s → a < 2 ^ 14 →
      (s.sys.inReset = false → ∃ t, exec (.redLoadDataAccess none) s = .next t ∧ s.framed t [.out] [RED_LOAD_ADDR_ADDR.key 0] ∧
        t.out = .readData (BitVec.ofNat 64 (if a < 8278 then s.reed.buf.get 0 a else 0)) :: s.out ∧
        rd RED_LOAD_ADDR_ADDR 0 t = if a = 8277 then 0 else (a + 1) % 16384) ∧
      (a < 8278 → s.reed.prep = none → replicaHolds s = false → s.sys.inReset = false → ∃ t, exec (.redLoadDataAccess (some v)) s = .next t ∧
        s.framed t [.reed] [RED_LOAD_ADDR_ADDR.key 0] ∧ t.reed = { s.reed with buf := s.reed.buf.put 0 a (v.toNat % 2 ^ 48) } ∧
        rd RED_LOAD_ADDR_ADDR 0 t = if a = 8277 then 0 else a + 1) ∧
      (s.reed.prep ≠ none → s.sys.inReset = false → ∃ t, exec (.redLoadDataAccess (some v)) s = .next t ∧ evtSet 20 t = true ∧
        s.framed t recParts (RED_LOAD_ADDR_ADDR.key 0 :: logKeys)))

/-- R90 to R93: PREPARE takes the load buffer's code for a slot, refused and logged while one is prepared or when the code is too long; it
is put off while a launched pick still works with the slot's old bank; at its end the bank is PREPARED, and in force at once when not
WEAVING. R50 to R52, R57, R96 to R99, R116 to R121, R132, R151: the corrected samples and the compressed words within their tolerance;
the word of a delivered cell, its PHASE, MAG and QUALITY within theirs, its marks, and its DARK form; when it enters its port's FIFO; a
full FIFO loses it, counts it and raises event 250 once a pick. What the spec leaves open in it is the model's choice: log entries 1,
6, 40, 43, 92, 103 and 104. -/
def Obligations.SlotsAndCellResults : Prop :=
  (∀ (s : State) (v : Qword) (k : Nat), k = RED_SLOT_CTL_SLOT.ofQ v →
    (s.reed.prep = none → nCodeOf (bankFromBuffer s) ≤ 8192 → reedFrozen s = false →
      s.sys.inReset = false → ∃ t, exec (.prepare v) s = .next t ∧ rd RED_SLOT_STAT_BUSY 0 t = 1 ∧ rd RED_SLOT_STAT_BUSY_SLOT 0 t = k ∧
        t.reed.prep = some { slot := k, bank := bankFromBuffer s, deferred := oldBankBusy k s, started := s.now } ∧
        slotOf k t = { slotOf k s with phase := if oldBankBusy k s then 3 else 1 } ∧ (∀ j : Nat, j ≠ k → slotOf j t = slotOf j s) ∧
        s.framed t [.reed] [RED_SLOT_STAT_BUSY.key 0, RED_SLOT_STAT_BUSY_SLOT.key 0]) ∧
    (s.reed.prep ≠ none ∨ 8192 < nCodeOf (bankFromBuffer s) → s.sys.inReset = false → ∃ t, exec (.prepare v) s = .next t ∧ rd RED_SLOT_STAT_REFUSED 0 t = 1 ∧
      evtSet 20 t = true ∧ s.framed t recParts (RED_SLOT_STAT_REFUSED.key 0 :: logKeys)) ∧
    (∀ x : Prep, s.reed.prep = some x →
      (x.deferred = true → ∃ t, exec .prepareDeferredStart s = .next t ∧ t.now = maxN s.now (oldBankEnd x.slot s) ∧
        t.reed.prep = some { x with deferred := false, started := t.now } ∧ (slotOf x.slot t).phase = 1 ∧ s.framed t [.now, .reed] []) ∧
      (x.deferred = false → weaving s = true → x.force = false → ∃ t, exec .prepareEnd s = .next t ∧ t.reed.prep = none ∧ rd RED_SLOT_STAT_BUSY 0 t = 0 ∧
        slotOf x.slot t = { slotOf x.slot s with staged := some x.bank, phase := 2 } ∧
        s.framed t [.reed, .host] [RED_SLOT_STAT_BUSY.key 0]) ∧
      (x.deferred = false → weaving s = false ∨ x.force = true → ∃ t, exec .prepareEnd s = .next t ∧ t.reed.prep = none ∧
        rd RED_SLOT_STAT_BUSY 0 t = 0 ∧ (slotOf x.slot t).inForce = some x.bank ∧ (slotOf x.slot t).staged = none ∧
        (slotOf x.slot t).phase = 0 ∧ (slotOf x.slot t).gen = (slotOf x.slot s).gen + 1 ∧
        s.framed t [.reed, .host] [RED_SLOT_STAT_BUSY.key 0]))) ∧
  (∀ (p : Fin 16) (first : Nat) (codes : List (BitVec 56)) (s : State) (x : PickCtx) (y : PortPick) (h : HdlPort) (sj w g last : Nat) (a : Int × Int) (b : Nat × Nat),
    gaugeDue p s = some (x, y) → y.gaugeNext < rd GAU_SPAN_CELLS p s → h = hdlOf p s → w = rd GAU_SHAPE_W p s → g = rd GAU_SHAPE_G p s →
    sj = rd GAU_SPAN_FIRST p s + y.gaugeNext * rd GAU_SHAPE_K p s → last = sj + w - 1 + g →
    a = sumProds (spanProds y first codes sj w g) → b = cohBounds a (spanProds y first codes sj w g) →
    (∀ i m k : Nat, k = gainAt y.gz y.shed m → (stage1 y first codes i m).1 = satS 24 (divRound ((1024 * codeAt first codes m i -
      64 * sx 16 ((y.corr.getD i []).getD 0 0)) * ((y.corr.getD i []).getD 1 0 * (if k = 0 then 65536 else (y.corr.getD i []).getD (k + 1) 0) : Nat)) (2 ^ 31))) ∧
    (∀ pol m : Nat, (stage2 y first codes pol m).i = (stage1 y first codes (2 * pol) m).1 ∧
      (stage2 y first codes pol m).q = satS 24 (divRound (sx 24 (y.iq.getD (2 * pol) 0) * (stage1 y first codes (2 * pol + 1) m).1 +
        sx 24 (y.iq.getD (2 * pol + 1) 0) * (stage1 y first codes (2 * pol) m).1) (2 ^ 22))) ∧
    (∀ pol m : Nat, (∀ r ∈ zoneRuns y, m < r.1 ∨ r.2 < m) → sampleAt y (zoneRuns y) first codes pol m = stage2 y first codes pol m) ∧
    (∀ pol m : Nat, ∀ r ∈ zoneRuns y, r.1 ≤ m → m ≤ r.2 → (sampleAt y (zoneRuns y) first codes pol m).interp = true ∧
      (r.1 = 0 → (sampleAt y (zoneRuns y) first codes pol m).i = (stage2 y first codes pol (r.2 + 1)).i ∧
        (sampleAt y (zoneRuns y) first codes pol m).q = (stage2 y first codes pol (r.2 + 1)).q) ∧
      (r.1 ≠ 0 → (sampleAt y (zoneRuns y) first codes pol m).i = divRound ((stage2 y first codes pol (r.1 - 1)).i * (r.2 - r.1 + 2 : Nat) +
        (m - r.1 + 1 : Nat) * ((stage2 y first codes pol (r.2 + 1)).i - (stage2 y first codes pol (r.1 - 1)).i)) (r.2 - r.1 + 2))) ∧
    (∀ (pol z : Nat) (e : Int × Int) (u v : Int) (c : Comp), e = corrSum (samplesOf y first codes pol z (nCodeOf y.bank)) (replicaOf y.bank) (0, 0) →
      u = divRound e.1 (2 ^ (23 + y.bank.shift)) → v = divRound e.2 (2 ^ (23 + y.bank.shift)) → c = wordAt y first codes pol z →
      (satS 24 u ≠ u → c.i = satS 24 u) ∧ (satS 24 u = u → u - 2 ≤ c.i ∧ c.i ≤ u + 2 ∧ satS 24 c.i = c.i) ∧
      (satS 24 v ≠ v → c.q = satS 24 v) ∧ (satS 24 v = v → v - 2 ≤ c.q ∧ c.q ≤ v + 2 ∧ satS 24 c.q = c.q) ∧
      c.sat = (decide (satS 24 u ≠ u) || decide (satS 24 v ≠ v) || (samplesOf y first codes pol z (nCodeOf y.bank)).any (·.sat)) ∧
      c.seam = (samplesOf y first codes pol z (nCodeOf y.bank)).any (·.interp)) ∧
    (h.fifoLen < 16384 → ∃ (t : State) (u : Nat), exec (.gaugeCellResult p first codes) s = .next t ∧
      (hdlOf p t).fifo = h.fifo ++ [{ pick := x.n, tick := x.tick, cell := y.gaugeNext, word := u, lost := false }] ∧ (hdlOf p t).fifoLen = h.fifoLen + 1 ∧
      bitOf u 3 = y.restart ∧ u < 2 ^ 48 ∧
      (∀ d : Nat, y.darkSet = true → y.darkFrom = some d → d ≤ y.gaugeNext → u = (if y.restart then 12 else 4) ∧
        rd GAU_CNT_DARK_CELLS p t = satU GAU_CNT_DARK_CELLS.width (rd GAU_CNT_DARK_CELLS p s + 1)) ∧
      (y.shed ≤ last ∨ y.shed < last + nCodeOf y.bank → u = (if y.restart then 12 else 4) ∧
        rd GAU_CNT_DARK_CELLS p t = satU GAU_CNT_DARK_CELLS.width (rd GAU_CNT_DARK_CELLS p s + 1)) ∧
      (last < y.shed → last + nCodeOf y.bank ≤ y.shed → y.gaugeNext < (settleDark y s).darkFrom.getD (y.gaugeNext + 1) →
        rd GAU_CNT_DARK_CELLS p t = rd GAU_CNT_DARK_CELLS p s ∧ slice u 4 6 = 0 ∧ bitOf u 2 = false ∧
        bitOf u 1 = ((List.range (w + g)).any (fun k => (wordAt y first codes 0 (sj + k)).sat || (wordAt y first codes 1 (sj + k)).sat)) ∧
        bitOf u 0 = ((List.range (w + g)).any (fun k => (wordAt y first codes 0 (sj + k)).seam || (wordAt y first codes 1 (sj + k)).seam)) ∧
        (a = (0, 0) → slice u 10 38 = 1) ∧
        (a ≠ (0, 0) → (slice u 32 16 + 65537 - phaseOf a) % 65536 ≤ 2 ∧ clampZ 0 65535 (magOf a w - 1) ≤ slice u 16 16 ∧
          (slice u 16 16 : Int) ≤ clampZ 0 65535 (magOf a w + 1) ∧
          clampN 1 63 (minN (b.1 - 1) ((slice u 16 16 - y.noise) / 64)) ≤ slice u 10 6 ∧
          slice u 10 6 ≤ clampN 1 63 (minN (b.2 + 1) ((slice u 16 16 - y.noise) / 64)))) ∧
      t.now = maxN s.now (x.tick + 2 * (23 + minN last (y.shed - 1) + 20480 + 48)) ∧
      s.framed t [.now, .heddle, .trd]
        [GAU_CNT_DARK_CELLS.key p, PRT_CNT_SAT_SAMPLES.key p, PRT_CNT_SAT_SHEDS.key p, RED_PORT_STAT_SAT_OUT.key p]) ∧
    (h.fifoLen = 16384 → ∃ t, exec (.gaugeCellResult p first codes) s = .next t ∧ (hdlOf p t).fifoLen = 16384 ∧
      ((∀ z ∈ s.trd.picks, x.tick < z.tick → ∀ r ∈ z.ports, r.port = p.val → r.kind ≠ 1) → (hdlOf p t).restartNext = true) ∧
      rd HDL_CNT_OVERRUN p t = satU HDL_CNT_OVERRUN.width (rd HDL_CNT_OVERRUN p s + 1) ∧
      (h.overrunPick ≠ some x.tick → evtSet 250 t = true)))

/-- R131 to R137: the locator's decision on a learned line: a line all of whose lit segments dropped is a loss; a line dropped behind a
segment that stands is a break at the cell found; a standing break ends after CLEAR picks without a drop; a reset starts the line
afresh. What the spec leaves open in it is the model's choice: log entries 6 and 93. -/
def Obligations.BreakLocator : Prop :=
  ∀ (p : Fin 16) (v : Qword) (s : State) (x : PickCtx) (y : PortPick) (j : Nat) (e : LineEnv) (dropped up : List Nat),
    (∀ z ∈ s.trd.picks, ∀ l ∈ z.hands, l.1 < 32) →
    (gaugeDue p s = some (x, y) → rd GAU_SPAN_CELLS p s ≤ y.gaugeNext → y.darkSet = true → j = lineIdx p y.line → e = lineEnv j s →
      e.gen = y.lineGen → e.learned = true →
      dropped = (litSegs e y.noise (y.brk.getD 1 0)).filter (fun m => segDropped y e (y.brk.getD 0 0) (y.brk.getD 1 0) m) →
      up = (litSegs e y.noise (y.brk.getD 1 0)).filter (fun m => !(segDropped y e (y.brk.getD 0 0) (y.brk.getD 1 0) m)) →
      (e.brk = false → e.loss = false → dropped ≠ [] → up = [] → ∃ t, exec (.breakDecision p) s = .next t ∧
        lineEnv j t = { e with loss := true } ∧ rd GAU_CNT_LOSSES p t = satU GAU_CNT_LOSSES.width (rd GAU_CNT_LOSSES p s + 1) ∧
        evtSet 248 t = true ∧ s.framed t (.gauge :: .trd :: .sht :: recParts) ([GAU_CNT_LOSSES.key p, evtKey 248] ++ recKeys ++ skipKeys)) ∧
      (e.brk = false → e.loss = false → dropped ≠ [] → up ≠ [] → up.getLastD 0 < dropped.headD 0 →
        ∃ t, exec (.breakDecision p) s = .next t ∧ lineEnv j t = { e with brk := true, clearRun := 0, brkCell := breakCell y (up.getLastD 0) (dropped.headD 0) (rd GAU_SPAN_CELLS p s) (y.brk.getD 1 0) } ∧
          rd GAU_CNT_BREAKS p t = satU GAU_CNT_BREAKS.width (rd GAU_CNT_BREAKS p s + 1) ∧ evtSet 248 t = true ∧
          s.framed t (.gauge :: .trd :: .sht :: recParts) ([GAU_CNT_BREAKS.key p, evtKey 248] ++ recKeys ++ skipKeys)) ∧
      (e.brk = true → dropped = [] → maxN (y.brk.getD 2 0) 1 ≤ e.clearRun + 1 → ∃ t, exec (.breakDecision p) s = .next t ∧
        lineEnv j t = { e with brk := false, clearRun := 0 } ∧ evtSet 249 t = true)) ∧
    (j = rd GAU_LINE_ADDR_LINE 0 s →
      (weaving s = true → ∃ t, exec (.envReset v) s = .next t ∧ lineEnv j t = { lineEnv j s with resetDue := true } ∧
        (∀ k : Nat, k ≠ j → lineEnv k t = lineEnv k s) ∧ s.framed t [.gauge] []) ∧
      (weaving s = false → ∃ t, exec (.envReset v) s = .next t ∧ lineEnv j t = { gen := (lineEnv j s).gen + 1, brkCell := (lineEnv j s).brkCell } ∧
        (∀ k : Nat, k ≠ j → lineEnv k t = lineEnv k s) ∧ s.framed t [.gauge, .trd] []))

/-! ### The Heddle and the spectral unit -/

/-- R152 to R163, R165, R166: the update of a cell result in each mode: the increment, the history, the closed grid points with their fine
words, the detectors, the gap, the notice and the last cell's marker; an update that waits pushes what its queue accepts and ends with
the last item; a held marker is pushed with the count of discarded notices. What the spec leaves open in it is the model's choice: log
entries 44, 104 and 105. -/
def Obligations.HeddleUpdates : Prop :=
  ∀ (p : Fin 16) (stalled : Bool) (s : State) (h : HdlPort), h = hdlOf p s → s.warp.fill = none → rdB WRP_INJ_ADDR_ARM 0 s = false →
    s.warp.rowMap = [] → stalled = true ∨ s.dram.rplBuf = [] →
    (∀ (e : CellRes) (r : List CellRes) (x : PickCtx) (y : PortPick) (q : Nat), h.wait = none → h.fifo = e :: r → e.lost = false →
      hdlPart p e.tick s = some (x, y) → bitOf e.word 3 = true → h.tPrev = none → e.cell + 1 < rd GAU_SPAN_CELLS p s →
      (∀ w : Nat, w < 4 → rdB DRM_RPL_EN w s = false) → q = rd GAU_SHAPE_BASE p s + e.cell → inPool (4 * q) = false →
      (∀ i : Nat, i < 4 → ∃ d, decodeWord (warpStored (4 * q + i) s) = .clean d) →
      ∃ t, exec (.heddleUpdate p stalled) s = .next t ∧ s.framed t [.heddle, .warp, .trd] [] ∧ (hdlOf p t).fifo = r ∧
        (hdlOf p t).fifoLen = h.fifoLen - 1 ∧ (hdlOf p t).wait = none ∧
        warpStored (4 * q) t = encodeWord 0 ∧ warpStored (4 * q + 1) t = encodeWord 0 ∧
        warpStored (4 * q + 2) t = encodeWord (2 ^ 31 + slice e.word 16 16) ∧
        warpStored (4 * q + 3) t = encodeWord (slice e.word 32 16 * 2 ^ 32 + minN 1 (slice e.word 10 6) * 2 ^ 26 +
          b2n (bitOf e.word 1) * 2 ^ 25 + b2n (bitOf e.word 0) * 2 ^ 24) ∧
        ∀ a : Nat, a / 4 ≠ q → warpStored a t = warpStored a s) ∧
    (∀ (e : CellRes) (r : List CellRes) (x : PickCtx) (y : PortPick) (q a0 a1 a2 a3 n qh rank thr nw : Nat) (c : CellIn) (b z w : Quad) (sp : SpanInfo)
      (m : HdlMode) (xr f : Int) (forced : Bool) (its : List Nat) (u : State), h.wait = none → h.fifo = e :: r →
      hdlPart p e.tick s = some (x, y) → (∀ k : Nat, k < 4 → rdB DRM_RPL_EN k s = false) → q = rd GAU_SHAPE_BASE p s + e.cell → inPool (4 * q) = false →
      decodeWord (warpStored (4 * q) s) = .clean a0 → decodeWord (warpStored (4 * q + 1) s) = .clean a1 →
      decodeWord (warpStored (4 * q + 2) s) = .clean a2 → decodeWord (warpStored (4 * q + 3) s) = .clean a3 →
      c = cellIn e.word → b = quadOf a0 a1 a2 a3 → sp = spanOf y (prevOf h y) s →
      n = (if h.prevEpoch = y.epoch ∧ h.cntK = some (sp.first - 1) then h.cnt else 0) → qh = maxN 2 (y.hdlCfg.getD 3 0) → rank = y.hdlCfg.getD 2 0 →
      m = (if c.restart = true ∨ y.r151 = true then .restart else if c.dark = true then .dark else if b.inc1 = 0x8000 then .reference
        else if 1536 * y.period < (2 * (sp.tn - sp.prev.getD sp.tn)).toNat then .long else if b.inc2 = 0x8000 then .fill else .normal) →
      xr = (if sx 16 (ux 16 ((c.phase : Int) - b.lastPhase)) = -32768 then 32768 else sx 16 (ux 16 ((c.phase : Int) - b.lastPhase))) →
      f = (if m = .restart ∨ m = .dark ∨ m = .reference ∨ c.quality < qh then 0 else if m = .normal ∧ rank ≠ 3 then
        (if rank = 0 then min xr (min (sx 16 b.inc1) (sx 16 b.inc2)) else if rank = 2 then max xr (max (sx 16 b.inc1) (sx 16 b.inc2))
          else median3 xr (sx 16 b.inc1) (sx 16 b.inc2)) else xr) →
      forced = ((y.forced && sp.prev.isSome) || sp.gap || decide (m = .restart ∨ m = .reference)) →
      z = (if sp.points = [] then { b with integ := satS 48 (b.integ + f * 65536), quality := if forced = true then minN b.quality 1 else b.quality }
        else { b with integ := satS 48 (f * 65536 - shareTo f sp (sp.points.length - 1)), peak := 0, sumsq := 0, sat := false, seam := false, quality := if forced = true then 1 else 63 }) →
      w = (if m = .restart ∨ sp.gap = true then { acc := 0, integ := 0, inc1 := 0, inc2 := 0x8000, env := c.mag, lastPhase := c.phase, quality := minN 1 c.quality, sat := c.sat, seam := c.seam, peak := 0, sumsq := 0 }
        else if m = .dark then { z with inc1 := 0x8000, inc2 := 0x8000, quality := 0 }
        else { acc := ux 48 (b.acc + 256 * f), integ := z.integ, inc1 := if m = .normal ∨ m = .fill then storeInc xr else 0, inc2 := if m = .normal then b.inc1 else if m = .fill then storeInc xr else 0x8000, env := ((b.env : Int) + Int.tdiv (c.mag - b.env) (2 ^ rd HDL_CTL_ENV_SHIFT 0 s)).toNat, lastPhase := c.phase, quality := minN z.quality c.quality, sat := z.sat || c.sat, seam := z.seam || c.seam, peak := maxN z.peak (peakCode f), sumsq := sumsqGo (sumsqVal z.sumsq + f.natAbs ^ 2) 16 0 }) →
      its = (if e.cell = 0 ∧ sp.points ≠ [] then frameHeader p sp [n] s else []) ++ (List.range sp.points.length).map (fun i => if i = 0 then
          fineWord { b with integ := satS 48 (b.integ + shareTo f sp 0), quality := if forced = true then minN b.quality 1 else b.quality } n qh
        else fineWord { b with integ := satS 48 (shareTo f sp i - shareTo f sp (i - 1)), peak := 0, sumsq := 0, sat := false, seam := false, quality := if forced = true then 1 else 63 } 0 qh) →
      thr = maxN 1 (y.hdlCfg.getD 0 0) → nw = q % 2 ^ 25 * 2 ^ 23 + storeInc f * 2 ^ 7 + b2n c.sat * 64 + b2n c.seam * 32 +
        b2n (decide (m = .fill ∨ m = .long ∨ rank = 3)) * 16 + e.pick % 16 →
      u = (if its = [] then s else pushItems (16 + p) 8 its s) →
      (its.length ≤ qRoom (16 + p) s → sp.gap = false ∨ e.cell ≠ 0 → e.cell + 1 < rd GAU_SPAN_CELLS p s →
        ∃ t, exec (.heddleUpdate p stalled) s = .next t ∧ (hdlOf p t).fifo = r ∧ (hdlOf p t).fifoLen = (if e.lost = true then h.fifoLen else h.fifoLen - 1) ∧
          (hdlOf p t).wait = none ∧ (∀ i : Nat, i < 4 → warpStored (4 * q + i) t = encodeWord (w.words.getD i 0)) ∧
          (∀ a : Nat, a / 4 ≠ q → inPool a = false → warpStored a t = warpStored a s) ∧ (queueOf (16 + p) t).items = (queueOf (16 + p) u).items ∧
          (y.hdlCfg.getD 5 0 = 1 ∧ f ≠ 0 ∧ thr ≤ f.natAbs ∧ sp.gap = false ∧ h.markHeld = none ∧ 2 ≤ qRoom p u ∧
              (y.hdlCfg.getD 4 0 = 0 ∨ y.notices < y.hdlCfg.getD 4 0) →
            (queueOf p t).items = insertItem (pushedItem p (y.hdlCfg.getD 1 0) nw u) (queueOf p u).items ∧ (hdlOf p t).discarded = h.discarded) ∧
          (y.hdlCfg.getD 5 0 = 1 ∧ f ≠ 0 ∧ thr ≤ f.natAbs ∧ sp.gap = false ∧
              (h.markHeld ≠ none ∨ qRoom p u < 2 ∨ (y.hdlCfg.getD 4 0 ≠ 0 ∧ y.hdlCfg.getD 4 0 ≤ y.notices)) →
            (hdlOf p t).discarded = h.discarded + 1 ∧ queueOf p t = queueOf p s ∧
            rd HDL_CNT_NOTE_DROP p t = satU HDL_CNT_NOTE_DROP.width (rd HDL_CNT_NOTE_DROP p s + 1)) ∧
          (y.hdlCfg.getD 5 0 ≠ 1 ∨ f = 0 ∨ f.natAbs < thr ∨ sp.gap = true → queueOf p t = queueOf p s ∧ (hdlOf p t).discarded = h.discarded ∧
            rd HDL_CNT_NOTE_DROP p t = rd HDL_CNT_NOTE_DROP p s) ∧
          s.framed t (.heddle :: .warp :: .trd :: recParts) (HDL_CNT_NOTE_DROP.key p :: (pushKeys (16 + p) ++ pushKeys p))) ∧
      (qRoom (16 + p) s < its.length → sp.gap = false ∨ e.cell ≠ 0 → ∃ t, exec (.heddleUpdate p stalled) s = .next t ∧
        (hdlOf p t).wait.map (fun v => (v.items, v.quad, v.quadAt, v.cell)) = some (its.drop (qRoom (16 + p) s), w.words, q, e.cell) ∧
        (hdlOf p t).fifo = r ∧ s.framed t (.heddle :: recParts) (pushKeys (16 + p))) ∧
      (sp.gap = true → e.cell = 0 → e.cell + 1 < rd GAU_SPAN_CELLS p s → ∃ t, exec (.heddleUpdate p stalled) s = .next t ∧ (hdlOf p t).fifo = r ∧
        evtSet 251 t = true ∧ rd HDL_CNT_GAPS p t = satU HDL_CNT_GAPS.width (rd HDL_CNT_GAPS p s + 1) ∧
        ((hdlOf p t).wait = none → ∀ i : Nat, i < 4 → warpStored (4 * q + i) t = encodeWord (w.words.getD i 0)) ∧
        s.framed t (.heddle :: .warp :: .trd :: recParts) (HDL_CNT_GAPS.key p :: evtKey 251 :: (recKeys ++ pushKeys (16 + p)))) ∧
      (its = [] → y.hdlCfg.getD 5 0 ≠ 1 ∨ f = 0 ∨ f.natAbs < thr → rd GAU_SPAN_CELLS p s ≤ e.cell + 1 →
        (∀ v ∈ s.trd.picks, ∀ l ∈ v.hands, l.1 < 32) → ∃ t, exec (.heddleUpdate p stalled) s = .next t ∧ (hdlOf p t).fifo = r ∧
          (∀ i : Nat, i < 4 → warpStored (4 * q + i) t = encodeWord (w.words.getD i 0)) ∧
          (hdlOf p t).tPrev = some (y.stamp.getD y.launchRaw) ∧ (hdlOf p t).prevEpoch = y.epoch ∧
          (y.noticed = false → queueOf p t = queueOf p s ∧ (hdlOf p t).markHeld = h.markHeld) ∧
          (y.noticed = true → h.markHeld = none ∧ 1 ≤ qRoom p s → (hdlOf p t).markHeld = none ∧ (hdlOf p t).discarded = 0 ∧
            (queueOf p t).items = insertItem (pushedItem p (y.hdlCfg.getD 1 0) (0x1FFFFFF * 2 ^ 23 + minN h.discarded 65535 * 2 ^ 7 + e.pick % 128) s)
              (queueOf p s).items) ∧
          (y.noticed = true → h.markHeld ≠ none ∨ qRoom p s = 0 → (hdlOf p t).markHeld = some e.pick ∧ queueOf p t = queueOf p s) ∧
          s.framed t (.heddle :: .warp :: .trd :: .sht :: recParts) (pushKeys p ++ skipKeys))) ∧
    (∀ w : HdlWait, h.wait = some w →
      (1 ≤ qRoom (16 + p) s → qRoom (16 + p) s < w.items.length → ∃ t, exec (.heddleUpdateResume p stalled) s = .next t ∧
        (hdlOf p t).wait = some { w with items := w.items.drop (qRoom (16 + p) s) } ∧
        qCount (16 + p) t = qCount (16 + p) s + qRoom (16 + p) s ∧ s.framed t (.heddle :: recParts) (pushKeys (16 + p))) ∧
      (∀ (x : PickCtx) (y : PortPick), w.items.length ≤ qRoom (16 + p) s → w.notice = none → hdlPart p w.tick s = some (x, y) → inPool (4 * w.quadAt) = false →
        w.cell + 1 < rd GAU_SPAN_CELLS p s → (∀ k : Nat, k < 4 → rdB DRM_RPL_EN k s = false) →
        ∃ t, exec (.heddleUpdateResume p stalled) s = .next t ∧ (hdlOf p t).wait = none ∧
          qCount (16 + p) t = qCount (16 + p) s + w.items.length ∧
          (∀ i : Nat, i < 4 → warpStored (4 * w.quadAt + i) t = encodeWord (w.quad.getD i 0)) ∧
          s.framed t (.heddle :: .warp :: .trd :: recParts) (pushKeys (16 + p)))) ∧
    (∀ n : Nat, h.markHeld = some n → 1 ≤ qRoom p s → ∃ t, exec (.pickMarkerPush p) s = .next t ∧
      (hdlOf p t).markHeld = none ∧ (hdlOf p t).discarded = 0 ∧ s.framed t (.heddle :: recParts) (pushKeys p) ∧
      (queueOf p t).items = insertItem (pushedItem p (rdI HDL_PORT_CFG_FAST_PRI p s) (0x1FFFFFF * 2 ^ 23 + minN h.discarded 65535 * 2 ^ 7 + n % 128) s)
        (queueOf p s).items)

/-- R185 to R188, R197: the first staged cell of an IDLE area begins a stripe and writes its bins; a pick of the stripe's key adds to them,
and one of another key discards the stripe; the last cell of a pick counts it, and the ACCUM-th completes the stripe; a DONE item or
the timeout sends a FITTING area to FLUSHING, with FITTED or NOFIT; a flush pushes the stripe's frame and leaves the area IDLE. R178,
R181, R197: a word of an LO entry is in force at once when not WEAVING and staged otherwise; a line's spectral geometry is written only
while its port is idle, resets the line's cursor, and is logged otherwise. What the spec leaves open in it is the model's choice: log
entries 1, 6, 40, 41, 42, 96, 102 and 106. -/
def Obligations.SpectralUnit : Prop :=
  (∀ (p : Fin 16) (first : Nat) (codes : List (BitVec 56)) (s : State),
    (∀ (x : PickCtx) (y : PortPick) (k0 k : SpcKey), spcDue p s = some (x, y) → y.key = some k0 → y.spcBegun = false → y.spcNext = 0 →
      k = { k0 with stripe := (spcLine k0.line s).curStripe } → s.warp.fill = none → rdB WRP_INJ_ADDR_ARM 0 s = false → s.warp.rowMap = [] →
      ((areaOf p s).state = 0 → 1 < stripeCells (spcLine k.line s) k.stripe →
        ∃ t, exec (.spectralCellStage p first codes) s = .next t ∧
          areaOf p t = { state := 1, key := some k, cells := stripeCells (spcLine k.line s) k.stripe } ∧
          (∀ b : Nat, b < 56 → warpStored (binWord p 0 b) t =
            encodeWord ((spcCell y 0 ((spcLine k.line s).firstS + (spcLine k.line s).sc * k.stripe * (spcLine k.line s).kS)
              first codes).bins.getD b 0)) ∧
          warpStored (resWord p 0 60) t = encodeWord x.n ∧
          s.framed t [.spc, .warp, .trd] [PRT_CNT_SAT_SAMPLES.key p, PRT_CNT_SAT_SHEDS.key p, RED_PORT_STAT_SAT_OUT.key p]) ∧
      ((areaOf p s).state = 2 → (∀ z ∈ s.trd.picks, ∀ l ∈ z.hands, l.1 < 32) →
        ∃ t, exec (.spectralCellStage p first codes) s = .next t ∧ spcDue p t ≠ some (x, y) ∧
          s.framed t [.trd, .sht] (PRT_CNT_SAT_SAMPLES.key p :: PRT_CNT_SAT_SHEDS.key p :: RED_PORT_STAT_SAT_OUT.key p :: skipKeys))) ∧
    (∀ (x : PickCtx) (y : PortPick) (k : SpcKey) (c at63 : Nat) (l : SpcLine) (o : SpcCellOut) (old : List Nat), spcDue p s = some (x, y) → y.key = some k → y.spcBegun = true →
      (areaOf p s).state = 1 → (areaOf p s).key = some k → c = y.spcNext → y.spcFirst ≠ 1 → l = spcLine k.line s →
      o = spcCell y c (l.firstS + (l.sc * k.stripe + c) * l.kS) first codes → s.warp.fill = none → rdB WRP_INJ_ADDR_ARM 0 s = false → s.warp.rowMap = [] →
      c < 4096 → (∀ b : Nat, b < 56 → decodeWord (warpStored (binWord p c b) s) = .clean (old.getD b 0)) → decodeWord (warpStored (resWord p c 63) s) = .clean at63 →
      (c + 1 < (areaOf p s).cells → ∃ t, exec (.spectralCellStage p first codes) s = .next t ∧ areaOf p t = areaOf p s ∧
        (∀ b : Nat, b < 56 → warpStored (binWord p c b) t = encodeWord ((old.getD b 0 + o.bins.getD b 0) % 2 ^ 48)) ∧
        warpStored (resWord p c 60) t = encodeWord (x.n % 2 ^ 48) ∧
        warpStored (resWord p c 63) t = encodeWord (recWord63 k ((areaOf p s).count + 1) (o.sat || bitOf at63 18) (o.seam || bitOf at63 17)
          (o.beyond || bitOf at63 16)) ∧
        (∀ a : Nat, (∀ b : Nat, b < 56 → a ≠ binWord p c b) → (∀ i : Nat, 60 ≤ i → i < 64 → a ≠ resWord p c i) → warpStored a t = warpStored a s) ∧
        s.framed t [.warp, .trd] [PRT_CNT_SAT_SAMPLES.key p, PRT_CNT_SAT_SHEDS.key p, RED_PORT_STAT_SAT_OUT.key p]) ∧
      (c + 1 = (areaOf p s).cells → (∀ z ∈ s.trd.picks, ∀ h ∈ z.hands, h.1 < 32) →
        ∃ t, exec (.spectralCellStage p first codes) s = .next t ∧
          (∀ b : Nat, b < 56 → warpStored (binWord p c b) t = encodeWord ((old.getD b 0 + o.bins.getD b 0) % 2 ^ 48)) ∧
          ((areaOf p s).count + 1 < l.accum → areaOf p t = { areaOf p s with count := (areaOf p s).count + 1, pick := x.n } ∧
            spcLine k.line t = { l with curCount := (areaOf p s).count + 1 } ∧
            s.framed t [.spc, .warp, .trd, .sht] (PRT_CNT_SAT_SAMPLES.key p :: PRT_CNT_SAT_SHEDS.key p :: RED_PORT_STAT_SAT_OUT.key p :: skipKeys)) ∧
          (l.accum ≤ (areaOf p s).count + 1 →
            spcLine k.line t = { l with curStripe := if spcStripes l ≤ k.stripe + 1 then 0 else k.stripe + 1, curCount := 0 } ∧
            (∀ e i : Nat, e < (areaOf p s).cells → 56 ≤ i → i < 60 → warpStored (resWord p e i) t = encodeWord 0) ∧
            (rdB SPC_CTL_FIT_EN 0 s = true → areaOf p t = { areaOf p s with state := 2, count := (areaOf p s).count + 1, pick := x.n, sweep := decide (spcStripes l ≤ k.stripe + 1), timeout := some (s.now + maxN 1 (rd SPC_CTL_FIT_TMO 0 s) * 1000000) } ∧
              (4 ≤ qRoom (fitQ s) s → qCount (fitQ s) t = qCount (fitQ s) s + 4) ∧ (qRoom (fitQ s) s < 4 → queueOf (fitQ s) t = queueOf (fitQ s) s)) ∧
            (rdB SPC_CTL_FIT_EN 0 s = false → areaOf p t = { areaOf p s with state := 3, count := (areaOf p s).count + 1, pick := x.n, sweep := decide (spcStripes l ≤ k.stripe + 1), fitted := false, nofit := true, timeout := none } ∧
              t.spc.flushQ = s.spc.flushQ ++ [p.val] ∧ t.queues = s.queues) ∧
            s.framed t (.spc :: .warp :: .trd :: .sht :: recParts) (PRT_CNT_SAT_SAMPLES.key p :: PRT_CNT_SAT_SHEDS.key p :: RED_PORT_STAT_SAT_OUT.key p :: (pushKeys (fitQ s) ++ skipKeys))))) ∧
    (∀ (x : PickCtx) (y : PortPick) (k0 k k1 : SpcKey), spcDue p s = some (x, y) → y.key = some k0 → y.spcBegun = false → y.spcNext = 0 →
      k = { k0 with stripe := (spcLine k0.line s).curStripe } → s.warp.fill = none → rdB WRP_INJ_ADDR_ARM 0 s = false → s.warp.rowMap = [] →
      (areaOf p s).state = 1 → (areaOf p s).key = some k1 → 1 < (areaOf p s).cells →
      (k1 = k → ∃ t, exec (.spectralCellStage p first codes) s = .next t ∧ areaOf p t = areaOf p s ∧
        (spcDue p t).map (fun z => (z.2.spcBegun, z.2.spcNext)) = some (true, 1)) ∧
      (k1 ≠ k → 1 < stripeCells (spcLine k.line s) k.stripe → ∃ t, exec (.spectralCellStage p first codes) s = .next t ∧
        areaOf p t = { state := 1, key := some k, cells := stripeCells (spcLine k.line s) k.stripe } ∧
        rd SPC_CNT_LOST p t = satU SPC_CNT_LOST.width (rd SPC_CNT_LOST p s + 1) ∧ evtSet 253 t = true ∧
        (spcLine k1.line t).curCount = 0 ∧ (spcLine k1.line t).curStripe = (spcLine k1.line s).curStripe ∧
        (∀ b : Nat, b < 56 → warpStored (binWord p 0 b) t =
          encodeWord ((spcCell y 0 ((spcLine k.line s).firstS + (spcLine k.line s).sc * k.stripe * (spcLine k.line s).kS) first codes).bins.getD b 0)) ∧
        s.framed t (.spc :: .warp :: .trd :: evtParts) [SPC_CNT_LOST.key p, evtKey 253, PRT_CNT_SAT_SAMPLES.key p, PRT_CNT_SAT_SHEDS.key p, RED_PORT_STAT_SAT_OUT.key p])) ∧
    (∀ (it : QItem) (r : List QItem) (d : Nat), (queueOf (doneQ s) s).items = it :: r → it.linkBad = false →
      decodeWord it.word = .clean d →
      (fitMatch d s = some p → ∃ t, exec .fitDoneItem s = .next t ∧ s.framed t [.spc, .queues, .warp] [] ∧ (queueOf (doneQ s) t).items = r ∧
        areaOf p t = { areaOf p s with state := 3, fitted := true, nofit := false, timeout := none } ∧
        t.spc.flushQ = s.spc.flushQ ++ [p.val]) ∧
      (fitMatch d s = none → ∃ t, exec .fitDoneItem s = .next t ∧ evtSet 20 t = true ∧ s.framed t (.warp :: recParts) logKeys)) ∧
    (∀ d : Nat, (areaOf p s).state = 2 → (areaOf p s).timeout = some d → ∃ t, exec (.fitTimeout p) s = .next t ∧ d ≤ t.now ∧
      areaOf p t = { areaOf p s with state := 3, fitted := false, nofit := true, timeout := none } ∧
      t.spc.flushQ = s.spc.flushQ ++ [p.val] ∧ evtSet 252 t = true ∧
      rd SPC_CNT_TIMEOUTS p t = satU SPC_CNT_TIMEOUTS.width (rd SPC_CNT_TIMEOUTS p s + 1) ∧
      s.framed t (.now :: .spc :: evtParts) [SPC_CNT_TIMEOUTS.key p, evtKey 252]) ∧
    (∀ (r : List Nat) (k : SpcKey), s.spc.flush = none → s.spc.flushQ = p.val :: r → (areaOf p s).key = some k →
      (devState s = stHOLD → exec .stripeFlushStart s = .next s) ∧
      (devState s ≠ stHOLD → ∃ (t : State) (f : SpcFlush), exec .stripeFlushStart s = .next t ∧ t.spc.flushQ = r ∧ t.spc.flush = some f ∧ f.port = p ∧
        f.items.length = 3 + 4 * (areaOf p s).cells ∧
        f.items.take 3 = spcHeader p (areaOf p s) k ((spcLine k.line s).baseS + (spcLine k.line s).sc * k.stripe) ∧
        (flushOutside ((spcLine k.line s).baseS + (spcLine k.line s).sc * k.stripe) (areaOf p s).cells s = true → evtSet 20 t = true))) ∧
    (∀ f : SpcFlush, s.spc.flush = some f → f.port = p →
      (f.items.length ≤ qRoom (32 + p) s → ∃ t, exec .stripeFramePushed s = .next t ∧ t.spc.flush = none ∧ areaOf p t = {} ∧
        rd SPC_CNT_STRIPES p t = satU SPC_CNT_STRIPES.width (rd SPC_CNT_STRIPES p s + 1) ∧
        s.framed t (.spc :: recParts) (SPC_CNT_STRIPES.key p :: pushKeys (32 + p))) ∧
      (qRoom (32 + p) s < f.items.length → ∃ t, exec .stripeFramePushed s = .next t ∧
        t.spc = { s.spc with flush := some { f with items := f.items.drop (qRoom (32 + p) s) } } ∧
        s.framed t (.spc :: recParts) (pushKeys (32 + p))))) ∧
  (∀ (s : State) (v : Qword) (k j d : Nat), k = 2 * rd SPC_LO_ADDR_ENTRY 0 s + rd SPC_LO_ADDR_WORD 0 s → k < 128 →
    d = v.toNat % 2 ^ (if k % 2 = 0 then 32 else 48) → j = rd SPC_LINE_ADDR_LINE 0 s →
    (s.sys.inReset = false → ∃ t, exec (.spcLoDataAccess none) s = .next t ∧ t.out = .readData (BitVec.ofNat 64 (s.spc.loStg.get 0 k)) :: s.out ∧
      2 * rd SPC_LO_ADDR_ENTRY 0 t + rd SPC_LO_ADDR_WORD 0 t = (k + 1) % 128 ∧
      s.framed t [.out] [SPC_LO_ADDR_ENTRY.key 0, SPC_LO_ADDR_WORD.key 0]) ∧
    (weaving s = false → s.sys.inReset = false → ∃ t, exec (.spcLoDataAccess (some v)) s = .next t ∧
      t.spc = { s.spc with lo := s.spc.lo.put 0 k d, loStg := s.spc.loStg.put 0 k d } ∧
      2 * rd SPC_LO_ADDR_ENTRY 0 t + rd SPC_LO_ADDR_WORD 0 t = (k + 1) % 128 ∧
      s.framed t [.spc] [SPC_LO_ADDR_ENTRY.key 0, SPC_LO_ADDR_WORD.key 0]) ∧
    (weaving s = true → setPrepared s = false → s.sys.inReset = false → ∃ t, exec (.spcLoDataAccess (some v)) s = .next t ∧
      t.spc = { s.spc with loStg := s.spc.loStg.put 0 k d } ∧
      s.framed t [.spc] [SPC_LO_ADDR_ENTRY.key 0, SPC_LO_ADDR_WORD.key 0]) ∧
    (portIdle (j / 8) s = true → s.sys.inReset = false → ∃ t, exec (.spcLineWrite 0 v) s = .next t ∧ spcLine j t = { spcLine j s with curStripe := 0, curCount := 0, firstS := v.toNat / 2 ^ 24 % 2 ^ 24, cellsS := v.toNat % 2 ^ 19 } ∧
      (∀ i : Nat, i ≠ j → spcLine i t = spcLine i s) ∧ s.framed t [.spc] []) ∧
    (∀ r : Fin 3, portIdle (j / 8) s = false → s.sys.inReset = false → ∃ t, exec (.spcLineWrite r v) s = .next t ∧ evtSet 20 t = true ∧
      s.framed t recParts logKeys))

/-! ### The Warp store and the Weft queues -/

/-- R299, R300: a written word reads clean; any one bit of it upset is corrected; any two are found uncorrectable; the bare pattern reads bare,
with one bit upset too. -/
def Obligations.WarpCode : Prop :=
  ∀ (d : Nat) (j k : Fin 56), d < 2 ^ 48 →
    decodeWord (encodeWord d) = .clean d ∧
    decodeWord (encodeWord d ^^^ BitVec.ofNat 56 (2 ^ j.val)) = .corrected d ∧
    (j ≠ k → decodeWord (encodeWord d ^^^ BitVec.ofNat 56 (2 ^ j.val) ^^^ BitVec.ofNat 56 (2 ^ k.val)) = .bad) ∧
    decodeWord bareWord = .bare ∧ decodeWord (bareWord ^^^ BitVec.ofNat 56 (2 ^ j.val)) = .bareUpset

/-- R302, R305, R308, R309: the oldest write-back is stored; a scrub step reads the next quad when it is due, counts and writes back what
it corrects, and ends a pass with event 118; a declared row is copied and mapped onto a spare row with its words as they were; a fill
makes its quads bare. R308: a host fill that ends leaves every word of its quads bare and no other word changed, and raises event 119.
What the spec leaves open in it is the model's choice: log entries 6 and 55. -/
def Obligations.WarpUpkeepAndFills : Prop :=
  (∀ (s : State) (v : Qword), s.warp.fill = none → rdB WRP_INJ_ADDR_ARM 0 s = false →
    (∀ (w : WriteBack) (r : List WriteBack), s.warp.wbs = w :: r →
      (wordOwner w.word s = w.owner → s.warp.rowMap = [] → s.canon = true → ∃ t, exec .warpWriteBack s = .next t ∧
        warpStored w.word t = w.value ∧ t.warp.wbs = (w :: r).filter (fun x => x.word ≠ w.word) ∧
        (∀ a : Nat, a ≠ w.word → warpStored a t = warpStored a s) ∧ s.framed t [.warp, .queues] [] ∧
        (inPool w.word = false → t.queues = s.queues)) ∧
      (wordOwner w.word s ≠ w.owner → exec .warpWriteBack s = .next { s with warp := { s.warp with wbs := r } })) ∧
    (rdB WRP_CTL_SCRUB_EN 0 s = false → exec .scrubRead s = .next s) ∧
    (∀ i : Nat, i = s.warp.scrubNext → i < 6291456 → rdB WRP_CTL_SCRUB_EN 0 s = true → s.warp.rowMap = [] →
      (∀ k : Nat, k < 4 → ∃ d, decodeWord (warpStored (4 * i + k) s) = .clean d) →
      ∃ t, exec .scrubRead s = .next t ∧ s.warp.scrubDue ≤ t.now ∧
        t.warp = { s.warp with scrubNext := if i = 6291455 then 0 else i + 1, scrubDue := t.now + maxN 1 (rd WRP_CTL_SCRUB_GAP 0 s) } ∧
        (i < 6291455 → s.framed t [.now, .warp] []) ∧
        (i = 6291455 → evtSet 118 t = true ∧ rd WRP_STAT_PASSES 0 t = (rd WRP_STAT_PASSES 0 s + 1) % 2 ^ 24 ∧
          s.framed t [.now, .warp, .out, .host] [WRP_STAT_PASSES.key 0, evtKey 118])) ∧
    (∀ i d : Nat, i = s.warp.scrubNext → i < 6291455 → rdB WRP_CTL_SCRUB_EN 0 s = true → s.warp.rowMap = [] → s.warp.history = [] →
      decodeWord (warpStored (4 * i) s) = .corrected d → (∀ k : Nat, 1 ≤ k → k < 4 → ∃ d, decodeWord (warpStored (4 * i + k) s) = .clean d) →
      ∃ t, exec .scrubRead s = .next t ∧ rd WRP_CNT_CORR 0 t = satU WRP_CNT_CORR.width (rd WRP_CNT_CORR 0 s + 1) ∧
        { word := 4 * i, value := encodeWord d, owner := wordOwner (4 * i) s } ∈ t.warp.wbs ∧ s.framed t [.now, .warp] [WRP_CNT_CORR.key 0]) ∧
    (∀ (a : Nat) (r : List Nat), s.warp.repair = none → s.warp.declared = a :: r → rdB WRP_CTL_AUTO_REPAIR 0 s = true →
      sparesLeft (bankOfQuad (a / 4)) s ≠ 0 → ∃ t, exec .rowRepairStart s = .next t ∧ rd WRP_STAT_REPAIR_BUSY 0 t = 1 ∧
        t.warp = { s.warp with declared := r, repair := some { bank := bankOfQuad (a / 4), row := rowOfQuad (a / 4), spare := s.warp.sparesUsed.get 0 (bankOfQuad (a / 4)) } } ∧ s.framed t [.warp] [WRP_STAT_REPAIR_BUSY.key 0]) ∧
    (∀ r : Repair, s.canon = true → s.warp.repair = some r → r.bank < 128 → r.row < 768 → s.warp.rowMap.get 0 (rowKey r.bank r.row) = 0 →
      (∀ k : Nat, k < 256 → (∃ d, decodeWord (warpStored (rowWord r.bank r.row k) s) = .clean d) ∨
        warpStored (rowWord r.bank r.row k) s = bareWord) →
      ∃ t, exec .rowRepairDone s = .next t ∧ t.warp.repair = none ∧ t.warp.rowMap.get 0 (rowKey r.bank r.row) = r.spare + 1 ∧
        t.warp.sparesUsed.get 0 r.bank = r.spare + 1 ∧
        (∀ k : Nat, k < 256 → warpStored (rowWord r.bank r.row k) t = warpStored (rowWord r.bank r.row k) s) ∧
        rd WRP_STAT_REPAIR_BUSY 0 t = 0 ∧ rd WRP_CNT2_REPAIRS 0 t = satU WRP_CNT2_REPAIRS.width (rd WRP_CNT2_REPAIRS 0 s + 1) ∧
        evtSet 116 t = true ∧ s.framed t (.warp :: evtParts) [WRP_STAT_REPAIR_BUSY.key 0, WRP_CNT2_REPAIRS.key 0, evtKey 116]) ∧
    (∀ (r : Repair) (k : Fin 256) (d : Nat), s.canon = true → s.warp.repair = some r → r.bank < 128 → r.row < 768 →
      inPool (rowWord r.bank r.row 0) = false → s.warp.rowMap.get 0 (rowKey r.bank r.row) = 0 →
      decodeWord (warpStored (rowWord r.bank r.row k) s) = .corrected d →
      ∃ t, exec .rowRepairDone s = .next t ∧ warpStored (rowWord r.bank r.row k) t = encodeWord d) ∧
    (∀ a b : Nat, a = rd WRP_FILL_BASE_FIRST_Q 0 s → b = rd WRP_FILL_BASE_LAST_Q 0 s →
      (fillRefused a b s = false → s.sys.inReset = false → ∃ t, exec (.wrpFillGo v) s = .next t ∧ t.warp = { s.warp with fill := some { first := a, last := b } } ∧
        rd WRP_STAT_FILL_BUSY 0 t = 1 ∧ s.framed t [.warp] [WRP_STAT_FILL_BUSY.key 0]) ∧
      (b < a → s.sys.inReset = false → ∃ t, exec (.wrpFillGo v) s = .next t ∧ rd WRP_STAT_FILL_REFUSED 0 t = 1 ∧ evtSet 20 t = true ∧
        s.framed t recParts (WRP_STAT_FILL_REFUSED.key 0 :: logKeys)))) ∧
  (∀ (s : State) (f : Fill), s.warp.fill = some f → f.done = [] → s.warp.repair = none → s.warp.rowMap = [] →
    f.last < 0x500000 ∨ 0x580000 ≤ f.first → rdB WRP_INJ_ADDR_ARM 0 s = false → ∃ t, exec .wrpFillDone s = .next t ∧ t.warp.fill = none ∧ rd WRP_STAT_FILL_BUSY 0 t = 0 ∧
      rd WRP_STAT_FILL_DONE 0 t = 1 ∧ evtSet 119 t = true ∧
      s.framed t (.warp :: evtParts) [WRP_STAT_FILL_BUSY.key 0, WRP_STAT_FILL_DONE.key 0, evtKey 119] ∧
      ∀ a : Nat, a < 0x1800000 → warpStored a t = if f.first ≤ a / 4 ∧ a / 4 ≤ f.last then bareWord else warpStored a s)

/-- R313, R315 to R320: a host push enters its queue at its priority or is refused, counted and logged; a host pop answers the first item,
an empty queue or a bound one; a flush empties an unbound queue; a configuration whose reserves come to more than 4,096 units is
ignored; a stale timer that runs out raises its event while the queue holds items. What the spec leaves open in it is the model's
choice: log entries 6 and 84. -/
def Obligations.HostQueues : Prop :=
  ∀ (s : State) (v : Qword) (q : Nat),
    (q = WFQ_HPUSH_QUEUE.ofQ v →
      (64 ≤ q → 1 ≤ qRoom q s → rdB WRP_INJ_ADDR_ARM 0 s = false → s.sys.inReset = false → ∃ t, exec (.wfqHpush v) s = .next t ∧
        (queueOf q t).items = insertItem (pushedItem q (WFQ_HPUSH_PRI.ofQ v) (WFQ_HPUSH_ITEM.ofQ v) s) (queueOf q s).items ∧
        (∀ j : Nat, j ≠ q → queueOf j t = queueOf j s) ∧ s.framed t recParts (pushKeys q)) ∧
      (q < 64 ∨ qRoom q s = 0 → s.sys.inReset = false → ∃ t, exec (.wfqHpush v) s = .next t ∧ evtSet 20 t = true ∧
        (q ≠ 57 → rd WFQ_STAT_LOST q t = satU 8 (rd WFQ_STAT_LOST q s + 1)) ∧ s.framed t recParts (WFQ_STAT_LOST.key q :: logKeys))) ∧
    (q = rd WFQ_HPOP_SEL_QUEUE 0 s →
      (ringBound q s = false → (queueOf q s).items = [] →
        s.sys.inReset = false → exec .wfqHpop s = .next { s with out := .readData (BitVec.ofNat 64 (2 ^ 63)) :: s.out }) ∧
      (∀ (it : QItem) (r : List QItem) (d : Nat), ringBound q s = false → (queueOf q s).items = it :: r → it.linkBad = false →
        decodeWord it.word = .clean d → s.sys.inReset = false → ∃ t, exec .wfqHpop s = .next t ∧ (queueOf q t).items = r ∧
        (∀ j : Nat, j ≠ q → queueOf j t = queueOf j s) ∧
        t.out = .readData (BitVec.ofNat 64 (it.pri % 16 * 2 ^ 48 + d % 2 ^ 48)) :: s.out ∧
        t.warp = { s.warp with pool := s.warp.pool.put bareWord it.slot it.word } ∧ s.framed t [.queues, .out, .warp] []) ∧
      (ringBound q s = true → s.sys.inReset = false → ∃ t, exec .wfqHpop s = .next t ∧ t.out.head? = some (.readData (BitVec.ofNat 64 (2 ^ 62))) ∧
        evtSet 20 t = true ∧ s.framed t recParts logKeys)) ∧
    (q = WFQ_FLUSH_QUEUE.ofQ v →
      (ringBound q s = false → engineBound q s = false → s.sys.inReset = false → ∃ t, exec (.wfqFlush v) s = .next t ∧ (queueOf q t).items = [] ∧
        (queueOf q t).staleDue = none ∧ (∀ j : Nat, j ≠ q → queueOf j t = queueOf j s) ∧
        t.warp = { s.warp with pool := t.warp.pool } ∧ s.framed t [.queues, .warp] []) ∧
      (ringBound q s = true → s.sys.inReset = false → ∃ t, exec (.wfqFlush v) s = .next t ∧ evtSet 20 t = true ∧ s.framed t recParts logKeys)) ∧
    (∀ (k : Fin 256) (n : Nat), n = rd WFQ_POOL_CTL_RES_SUM 0 s - rd WFQ_CFG_RES k s + WFQ_CFG_RES.ofQ v →
      (n ≤ 4096 → s.sys.inReset = false → ∃ t, exec (.wfqCfgWrite k v) s = .next t ∧ rd WFQ_POOL_CTL_RES_SUM 0 t = n ∧
        (∀ f ∈ WFQ_CFG.fields, rd f k t = f.ofQ v) ∧ (∀ j : Nat, (queueOf j t).items = (queueOf j s).items) ∧
        s.framed t recParts ([WFQ_POOL_CTL_RES_SUM.key 0, evtKey 120] ++ WFQ_CFG.fields.map (fun f => f.key k))) ∧
      (4096 < n → s.sys.inReset = false → ∃ t, exec (.wfqCfgWrite k v) s = .next t ∧ evtSet 20 t = true ∧ s.framed t recParts logKeys)) ∧
    (∀ (k : Fin 256) (d : Nat), (queueOf k s).staleDue = some d → ∃ t, exec (.queueStale k) s = .next t ∧ d ≤ t.now ∧
      (queueOf k t).staleDue = none ∧ (queueOf k t).items = (queueOf k s).items ∧
      ((queueOf k s).items ≠ [] → rd WFQ_STAT_STALE k t = 1 ∧ evtSet (qEvent k) t = true) ∧
      s.framed t (.now :: recParts) [WFQ_STAT_STALE.key k, evtKey (qEvent k)])

/-! ### The host interface -/

/-- R333, R336 to R338, R340, R347, R352, R354: the doorbell and the write of HST_CPL_HEAD, taken below the ring size and logged at or
above it; a fetch, which moves HEAD and queues the command or completes it with the first check that fails, and is none where the
device may not fetch; the write of the next completion to the ring or to the mailbox with its counters and events, and the completions
that wait; every write of HST_CTL; GO of the mailbox; a DMA error of a fetch. What the spec leaves open in it is the model's choice:
log entries 8, 9 and 10. -/
def Obligations.CommandQueue : Prop :=
  ∀ (s : State) (v : Qword),
    (HST_CMD_TAIL_TAIL.ofQ v < cmdRingSize s → s.sys.inReset = false → ∃ t, exec (.hstCmdTailWrite v) s = .next t ∧
      rd HST_CMD_TAIL_TAIL 0 t = HST_CMD_TAIL_TAIL.ofQ v ∧
      t.host = (if rd HST_STAT_DMA_ERR 0 s = 1 then s.host else { s.host with fetchStopped := false }) ∧
      s.framed t [.host] [HST_CMD_TAIL_TAIL.key 0]) ∧
    (cmdRingSize s ≤ HST_CMD_TAIL_TAIL.ofQ v → s.sys.inReset = false → ∃ t, exec (.hstCmdTailWrite v) s = .next t ∧ evtSet 20 t = true ∧
      s.framed t recParts logKeys) ∧
    (HST_CPL_HEAD_HEAD.ofQ v < cplRingSize s → s.sys.inReset = false → ∃ t, exec (.hstCplHeadWrite v) s = .next t ∧
      rd HST_CPL_HEAD_HEAD 0 t = HST_CPL_HEAD_HEAD.ofQ v ∧
      t.host = (if cplRoom t = true then { s.host with cplFullRaised := false } else s.host) ∧
      s.framed t [.host] [HST_CPL_HEAD_HEAD.key 0]) ∧
    (cplRingSize s ≤ HST_CPL_HEAD_HEAD.ofQ v → s.sys.inReset = false → ∃ t, exec (.hstCplHeadWrite v) s = .next t ∧ evtSet 20 t = true ∧
      s.framed t recParts logKeys) ∧
    (∀ q0 q1 q2 q3 q4 q5 q6 q7 : Qword, ∀ (c : Cmd) (qs : List Nat), qs = [q0, q1, q2, q3, q4, q5, q6, q7].map (·.toNat) → c = { opcode := q0.toNat / 2 ^ 56, tag := q0.toNat / 2 ^ 48 % 256, stream := q0.toNat / 2 ^ 44 % 16, fence := q0.getLsbD 43, mbx := false, ops := qs.drop 1, slot := rd HST_CMD_HEAD_HEAD 0 s, phase := .queued } →
      (canFetch s = false → exec (.commandFetch q0 q1 q2 q3 q4 q5 q6 q7) s = .next s) ∧
      (canFetch s = true → ∃ t, exec (.commandFetch q0 q1 q2 q3 q4 q5 q6 q7) s = .next t ∧ s.framed t [.out, .host] [HST_CMD_HEAD_HEAD.key 0] ∧
        rd HST_CMD_HEAD_HEAD 0 t = (rd HST_CMD_HEAD_HEAD 0 s + 1) % cmdRingSize s % 4096 ∧
        t.out = .dmaRead (rd HST_CMD_BASE_CMD_BASE 0 s * 4096 + 64 * rd HST_CMD_HEAD_HEAD 0 s) :: s.out ∧
        (fetchCheck qs s = none → t.host = { s.host with cmds := s.host.cmds ++ [c] }) ∧
        (∀ k d : Nat, fetchCheck qs s = some (k, d) →
          t.host = { s.host with cplWait := s.host.cplWait ++ [{ cplOf c k d 0 with inFlight := false }] }) ∧
        ((s.host.cmds.any (fun e => e.tag = c.tag) = true) → fetchCheck qs s = some (0x13, 0)) ∧
        ((s.host.cmds.any (fun e => e.tag = c.tag) = false) → opMasks c.opcode = none → fetchCheck qs s = some (0x10, 0)) ∧
        (c.opcode < 2 → s.host.cmds.any (fun e => e.tag = c.tag) = false → q0.toNat % 2 ^ 43 = 0 → c.ops = [0, 0, 0, 0, 0, 0, 0] →
          fetchCheck qs s = none))) ∧
    (s.host.cplWait = [] → exec .completionWrite s = .next s) ∧
    ((∀ e ∈ s.host.cplWait, e.mbx = false) → rd HST_CTL_CPL_EN 0 s = 0 ∨ dmaOk s = false ∧ cplRoom s = true →
      exec .completionWrite s = .next s) ∧
    ((∀ e ∈ s.host.cplWait, e.mbx = false) → s.host.cplWait ≠ [] → rd HST_CTL_CPL_EN 0 s = 1 → cplRoom s = false →
      (s.host.cplFullRaised = true → exec .completionWrite s = .next s) ∧
      (s.host.cplFullRaised = false → ∃ t, exec .completionWrite s = .next t ∧ t.host.cplWait = s.host.cplWait ∧ t.host.cplFullRaised = true ∧
        evtSet 18 t = true ∧ s.framed t evtParts [evtKey 18])) ∧
    (∀ (c : Cpl) (r : List Cpl) (n : Nat), s.host.cplWait = c :: r → c.mbx = false → rd HST_CTL_CPL_EN 0 s = 1 → dmaOk s = true →
      cplRoom s = true → n = (rd HST_CPL_TAIL_TAIL 0 s + 1) % cplRingSize s → ∃ t, exec .completionWrite s = .next t ∧
        rd HST_CPL_TAIL_TAIL 0 t = n % 2 ^ 16 ∧ t.host.cplWait = r ∧
        t.host.cmds = (if c.inFlight then s.host.cmds.filter (fun e => decide (e.tag ≠ c.tag)) else s.host.cmds) ∧
        (t.host.phase = if n = 0 then !s.host.phase else s.host.phase) ∧ evtSet 16 t = true ∧
        rd HST_CNT_COMMANDS 0 t = satU 32 (rd HST_CNT_COMMANDS 0 s + 1) ∧
        Output.dma (rd HST_CPL_BASE_CPL_BASE 0 s * 4096 + 16 * rd HST_CPL_TAIL_TAIL 0 s)
          (qBytes (cplQ0 s.host.phase c) ++ qBytes c.result) ∈ t.out ∧
        (c.status < 0x10 → s.framed t evtParts [HST_CPL_TAIL_TAIL.key 0, HST_CNT_COMMANDS.key 0, evtKey 16]) ∧
        (0x10 ≤ c.status → evtSet 20 t = true ∧ rd HST_CNT_ERRORS 0 t = satU 16 (rd HST_CNT_ERRORS 0 s + 1) ∧
          s.framed t recParts (HST_CPL_TAIL_TAIL.key 0 :: HST_CNT_COMMANDS.key 0 :: HST_CNT_ERRORS.key 0 :: evtKey 16 :: logKeys))) ∧
    (∀ (c : Cpl) (r : List Cpl), s.host.cplWait = c :: r → c.mbx = true → cplFull s = false → ∃ t, exec .completionWrite s = .next t ∧
        t.host.cplWait = r ∧ rd HST_MBX_CTL_MBX_DONE 0 t = 1 ∧ rd HST_MBX_CTL_MBX_BUSY 0 t = 0 ∧
        rd HST_MBX_CPL1_CPL1 0 t = c.result % 2 ^ 64 ∧
        t.host.cmds = (if c.inFlight then s.host.cmds.filter (fun e => decide (e.tag ≠ c.tag)) else s.host.cmds) ∧
        rd HST_CNT_COMMANDS 0 t = satU 32 (rd HST_CNT_COMMANDS 0 s + 1) ∧ evtSet 17 t = true ∧
        (c.status < 0x10 → s.framed t evtParts [HST_MBX_CTL_MBX_DONE.key 0, HST_MBX_CTL_MBX_BUSY.key 0, HST_MBX_CPL0_CPL0.key 0,
          HST_MBX_CPL1_CPL1.key 0, HST_CNT_COMMANDS.key 0, evtKey 17]) ∧
        (0x10 ≤ c.status → evtSet 20 t = true ∧ rd HST_CNT_ERRORS 0 t = satU 16 (rd HST_CNT_ERRORS 0 s + 1))) ∧
    (s.sys.inReset = false → ∃ t, exec (.hstCtlWrite v) s = .next t ∧ rd HST_CTL_CMD_EN 0 t = HST_CTL_CMD_EN.ofQ v ∧ rd HST_CTL_CPL_EN 0 t = HST_CTL_CPL_EN.ofQ v ∧
      (rd HST_CTL_CMD_LOG2 0 t = if rd HST_CTL_CMD_EN 0 s = 1 then rd HST_CTL_CMD_LOG2 0 s else HST_CTL_CMD_LOG2.ofQ v) ∧
      (rd HST_CTL_CPL_LOG2 0 t = if rd HST_CTL_CPL_EN 0 s = 1 then rd HST_CTL_CPL_LOG2 0 s else HST_CTL_CPL_LOG2.ofQ v) ∧
      (rd HST_CTL_CMD_EN 0 s = 1 → v.getLsbD 0 = false → rd HST_CMD_HEAD_HEAD 0 t = 0 ∧ rd HST_CMD_TAIL_TAIL 0 t = 0) ∧
      (rd HST_CTL_CMD_EN 0 s = 0 ∨ v.getLsbD 0 = true → rd HST_CMD_HEAD_HEAD 0 t = rd HST_CMD_HEAD_HEAD 0 s ∧
        rd HST_CMD_TAIL_TAIL 0 t = rd HST_CMD_TAIL_TAIL 0 s) ∧
      (rd HST_CTL_CPL_EN 0 s = 1 → v.getLsbD 1 = false → rd HST_CPL_HEAD_HEAD 0 t = 0 ∧ rd HST_CPL_TAIL_TAIL 0 t = 0 ∧ t.host.phase = true) ∧
      (rd HST_CTL_CPL_EN 0 s = 0 ∨ v.getLsbD 1 = true → rd HST_CPL_HEAD_HEAD 0 t = rd HST_CPL_HEAD_HEAD 0 s ∧
        rd HST_CPL_TAIL_TAIL 0 t = rd HST_CPL_TAIL_TAIL 0 s ∧ t.host.phase = s.host.phase) ∧
      ((rd HST_CTL_CMD_EN 0 s = 0 ∨ HST_CTL_CMD_LOG2.ofQ v = rd HST_CTL_CMD_LOG2 0 s) →
        (rd HST_CTL_CPL_EN 0 s = 0 ∨ HST_CTL_CPL_LOG2.ofQ v = rd HST_CTL_CPL_LOG2 0 s) →
        s.framed t [.host] ([HST_CMD_HEAD_HEAD.key 0, HST_CMD_TAIL_TAIL.key 0, HST_CPL_HEAD_HEAD.key 0, HST_CPL_TAIL_TAIL.key 0] ++ HST_CTL.fields.map (fun f => f.key 0))) ∧
      (rd HST_CTL_CMD_EN 0 s = 1 ∧ HST_CTL_CMD_LOG2.ofQ v ≠ rd HST_CTL_CMD_LOG2 0 s ∨
        rd HST_CTL_CPL_EN 0 s = 1 ∧ HST_CTL_CPL_LOG2.ofQ v ≠ rd HST_CTL_CPL_LOG2 0 s → evtSet 20 t = true)) ∧
    (rd HST_MBX_CTL_MBX_BUSY 0 s = 1 → s.sys.inReset = false → ∃ t, exec (.mbxGo v) s = .next t ∧ evtSet 20 t = true ∧ t.host.cmds = s.host.cmds ∧
      s.framed t recParts (HST_MBX_CTL_MBX_DONE.key 0 :: logKeys)) ∧
    (∀ (qs : List Nat) (c : Cmd), rd HST_MBX_CTL_MBX_BUSY 0 s = 0 → qs = (List.range 8).map (fun (i : Nat) => rd HST_MBX_CMD_QWORD i s) → c = { opcode := qs.getD 0 0 / 2 ^ 56 % 256, tag := qs.getD 0 0 / 2 ^ 48 % 256, stream := qs.getD 0 0 / 2 ^ 44 % 16, fence := bitOf (qs.getD 0 0) 43, mbx := true, ops := qs.drop 1, slot := 0, phase := .queued } →
      s.sys.inReset = false → ∃ t, exec (.mbxGo v) s = .next t ∧ rd HST_MBX_CTL_MBX_BUSY 0 t = 1 ∧
        s.framed t [.host] [HST_MBX_CTL_MBX_DONE.key 0, HST_MBX_CTL_MBX_BUSY.key 0] ∧
        (fetchCheck qs s = none → t.host = { s.host with cmds := s.host.cmds ++ [c] }) ∧
        (∀ k d : Nat, fetchCheck qs s = some (k, d) →
          t.host = { s.host with cplWait := s.host.cplWait ++ [{ cplOf c k d 0 with inFlight := false }] })) ∧
    (∀ k : Fin 4, canFetch s = true → ∃ t, exec (.dmaError (none, k)) s = .next t ∧ t.host.fetchStopped = true ∧ rd HST_STAT_DMA_ERR 0 t = 1 ∧
      evtSet 19 t = true ∧ evtSet 20 t = true ∧ s.framed t recParts (HST_STAT_DMA_ERR.key 0 :: evtKey 19 :: logKeys))

/-- R2 to R4, R334, R335, R351, R577: a 64-bit write sets each field by its type and a read shows the fields and clears the RC ones; an
event or a count of the same cycle comes after the write or read and stands (R4, by the queue's order); SRC_LAUNCH and DRM_REGION
refuse the fields whose condition fails, log the write and take the others (R577); no register, no effect; an aligned 64-bit access is
the same access; a narrow write and a crossing access of BAR0 write nothing and are logged; BAR2 reads and writes Warp words, its
phase-cell quads and the pool read only; a frame of the management port is the same access, or is logged when it is bad. What the spec
leaves open in it is the model's choice: log entries 6, 15 and 16. -/
def Obligations.BusAccesses : Prop :=
  ∀ (s : State) (v : Qword) (r : Fin 8192), s.sys.inReset = false →
    (∀ (g : Reg) (i : Nat), regAt (8 * r) = some (g, i) → inMsix (8 * r) = false →
      (writeA .pcie g.base i v s = none → writeB .pcie g.base i v s = none → writeC .pcie g.base i v s = none →
        writeD .pcie g.base i v s = none → ∃ t, exec (.registerWrite r v) s = .next t ∧
          s.framed t [] (g.fields.map (fun f => f.key i)) ∧ ∀ f ∈ g.fields, rd f i t = match f.ty with
            | .rw => f.ofQ v
            | .rws => f.ofQ v
            | .w1c => (rd f i s - Nat.land (rd f i s) (f.ofQ v)) % 2 ^ f.width
            | _ => rd f i s) ∧
      (g.base ∉ windowBases → g.base ∉ [WFQ_HPOP.base, SYS_TIME_HI.base, WRP_BANK_DATA.base, DRM_MIG_STAT.base] →
        ∃ t, exec (.rcRegisterRead r) s = .next t ∧ t.out = .readData (BitVec.ofNat 64 (regLook g i s)) :: s.out ∧
          s.framed t [.out] ((g.fields.filter (fun f => f.ty = .rc)).map (fun f => f.key i)) ∧
          ∀ f ∈ g.fields, f.ty = .rc → rd f i t = 0 ∧ rd f i (bump f i t) = satU f.width 1)) ∧
    (∀ e : Fin 256, 8 * r.val = EVT_RAW.off (e.val / 64) →
      ∃ t, exec (.registerWrite r v) s = .next t ∧ evtSet e.val (raise e.val t) = true) ∧
    (∀ p : Fin 16, 8 * r.val = SRC_LAUNCH.off p →
      (portIdle p s = true ∨ (SRC_LAUNCH_OFFSET.ofQ v = rd SRC_LAUNCH_OFFSET p s ∧ SRC_LAUNCH_EXTEND.ofQ v = rd SRC_LAUNCH_EXTEND p s) →
        ∃ t, exec (.registerWrite r v) s = .next t ∧ s.framed t [] (SRC_MON_RUN.key p :: SRC_LAUNCH.fields.map (fun f => f.key p)) ∧
          ∀ f ∈ SRC_LAUNCH.fields, rd f p t = f.ofQ v) ∧
      (portIdle p s = false → SRC_LAUNCH_OFFSET.ofQ v ≠ rd SRC_LAUNCH_OFFSET p s ∨ SRC_LAUNCH_EXTEND.ofQ v ≠ rd SRC_LAUNCH_EXTEND p s →
        ∃ t, exec (.registerWrite r v) s = .next t ∧ evtSet 20 t = true ∧ rd SRC_LAUNCH_OFFSET p t = rd SRC_LAUNCH_OFFSET p s ∧
          rd SRC_LAUNCH_EXTEND p t = rd SRC_LAUNCH_EXTEND p s ∧ rd SRC_LAUNCH_BLANK p t = SRC_LAUNCH_BLANK.ofQ v ∧
          rd SRC_LAUNCH_MON_EN p t = SRC_LAUNCH_MON_EN.ofQ v ∧
          s.framed t recParts (SRC_MON_RUN.key p :: SRC_LAUNCH_BLANK.key p :: SRC_LAUNCH_MON_EN.key p :: logKeys))) ∧
    (∀ q : Fin 8, 8 * r.val = DRM_REGION.off q →
      (rdB DRM_REGION_CTL_EN q s = false → ∃ t, exec (.registerWrite r v) s = .next t ∧
        s.framed t [] (DRM_REGION.fields.map (fun f => f.key q)) ∧ ∀ f ∈ DRM_REGION.fields, rd f q t = f.ofQ v) ∧
      (rdB DRM_REGION_CTL_EN q s = true → (∃ f ∈ DRM_REGION.fields, f.ofQ v ≠ rd f q s) → ∃ t, exec (.registerWrite r v) s = .next t ∧
        evtSet 20 t = true ∧ s.framed t recParts logKeys) ∧
      (rdB DRM_REGION_CTL_EN q s = true → (∀ f ∈ DRM_REGION.fields, f.ofQ v = rd f q s) →
        ∃ t, exec (.registerWrite r v) s = .next t ∧ s.framed t [] [])) ∧
    (regAt (8 * r) = none → inMsix (8 * r) = false → exec (.registerWrite r v) s = .next s ∧
      exec (.rcRegisterRead r) s = .next { s with out := .readData 0#64 :: s.out }) ∧
    (inMsix (8 * r) = false → exec (.bar0NarrowAccess (BitVec.ofNat 16 (8 * r)) 8#13 (some v)) s = exec (.registerWrite r v) s ∧
      exec (.bar0NarrowAccess (BitVec.ofNat 16 (8 * r)) 8#13 none) s = exec (.rcRegisterRead r) s) ∧
    (∀ (off : BitVec 16) (len : BitVec 13), inMsix off.toNat = false → len ≠ 0#13 →
      (off.toNat % 8 + len.toNat ≤ 8 → len.toNat < 8 → ∃ t u, exec (.bar0NarrowAccess off len (some v)) s = .next t ∧
        t = dataAdvance (off.toNat / 8 * 8) u ∧ evtSet 20 u = true ∧ s.framed u recParts logKeys ∧
        ((∀ x : Reg × Nat, regAt (off.toNat / 8 * 8) = some x → x.1.base ∉ windowBases) → t = u)) ∧
      (8 < off.toNat % 8 + len.toNat → ∀ w : Option Qword, ∃ t, exec (.bar0NarrowAccess off len w) s = .next t ∧ evtSet 20 t = true ∧
        Output.unsupported ∈ t.out ∧ s.framed t recParts logKeys)) ∧
    (∀ (off : BitVec 28) (a : Nat), off.toNat = 8 * a → a < 0x1800000 → s.warp.fill = none → rdB WRP_INJ_ADDR_ARM 0 s = false →
      (0x1000000 ≤ a → ¬(0x1400000 ≤ a ∧ a < 0x1600000) → ∃ t, exec (.bar2Access off 8#13 (some [v])) s = .next t ∧
        warpStored a t = encodeWord (v.toNat % 2 ^ 48) ∧ s.framed t [.warp] []) ∧
      (a < 0x1000000 ∨ (0x1400000 ≤ a ∧ a < 0x1600000) → ∃ t, exec (.bar2Access off 8#13 (some [v])) s = .next t ∧ evtSet 20 t = true ∧
        s.framed t recParts logKeys) ∧
      (∀ d : Nat, decodeWord (warpStored a s) = .clean d →
        exec (.bar2Access off 8#13 none) s = .next { s with out := .readData (BitVec.ofNat 64 d) :: s.out })) ∧
    (∀ (op : Byte) (off : BitVec 16), off.toNat % 8 = 0 → off.toNat < 0x6000 →
      exec (.mspiFrame 0x02#8 off v none) s = .next (busWrite .mgmt off.toNat v s) ∧
      exec (.mspiFrame 0x0B#8 off v none) s = .next (emit (.miso (BitVec.ofNat 64 (busRead .mgmt off.toNat s).1)) (busRead .mgmt off.toNat s).2) ∧
      (op ≠ 0x0B#8 → op ≠ 0x02#8 → ∃ t, exec (.mspiFrame op off v none) s = .next t ∧ evtSet 20 t = true ∧
        s.framed t recParts logKeys) ∧
      (∀ n : Fin 12, ∃ t, exec (.mspiFrame op off v (some n)) s = .next t ∧ evtSet 20 t = true ∧ s.framed t recParts logKeys))

/-- R336, R340, R348, R349, R352, R354: a write of EVT_RAW clears the flags written 1; a hold-off that ends makes the send that fell due in
it; unmasking a pending vector sends its message; and the writes of the command interface always have their effect: HST_CTL sets its
enables, an index below its ring's size is taken, GO makes an idle mailbox busy, a slot is fetched, a completion is written. What the
spec leaves open in it is the model's choice: log entries 11 and 12. -/
def Obligations.EventsAndVectors : Prop :=
  ∀ (s : State) (v : Qword) (i : Fin 4) (k : Fin 32),
    (s.sys.inReset = false → ∃ t, exec (.evtRawWrite i v) s = .next t ∧ s.framed t [.out, .host] [EVT_RAW_RAW.key i] ∧
      rd EVT_RAW_RAW i t = (rd EVT_RAW_RAW i s - Nat.land (rd EVT_RAW_RAW i s) v.toNat) % 2 ^ 64) ∧
    (∀ d : Nat, (msixOf k s).holdUntil = some d → ∃ t, exec (.holdoffExpiry k) s = .next t ∧ d ≤ t.now ∧ (msixOf k t).due = false ∧
      s.framed t [.now, .out, .host] [] ∧
      ((msixOf k s).due = false → t.out = s.out ∧ (msixOf k t).holdUntil = none) ∧
      ((msixOf k s).due = true → msixMasked k s = false → t.out = .msix k (msixOf k s).addr (msixOf k s).data :: s.out ∧
        (msixOf k t).holdUntil = if rd EVT_CTL_HOLDOFF 0 s = 0 then none else some (t.now + rd EVT_CTL_HOLDOFF 0 s * 1000)) ∧
      ((msixOf k s).due = true → msixMasked k s = true → t.out = s.out ∧ (msixOf k t).pend = true)) ∧
    (s.sys.inReset = false → ∃ t, exec (.msixUnmask k true) s = .next t ∧ t.host.funcMask = true ∧ t.out = s.out ∧ (msixOf k t).ctrl = (msixOf k s).ctrl / 2 * 2 ∧
      s.framed t [.host] []) ∧
    ((∀ j : Nat, j < 32 → (j = k ↔ (msixOf j s).pend = true)) → (msixOf k s).holdUntil = none →
      s.sys.inReset = false → ∃ t, exec (.msixUnmask k false) s = .next t ∧ t.host.funcMask = false ∧ (msixOf k t).pend = false ∧
        t.out = .msix k (msixOf k s).addr (msixOf k s).data :: s.out ∧ s.framed t [.out, .host] []) ∧
    (s.sys.inReset = false → ∃ t, exec (.hstCtlWrite v) s = .next t ∧ rd HST_CTL_CMD_EN 0 t = HST_CTL_CMD_EN.ofQ v ∧ rd HST_CTL_CPL_EN 0 t = HST_CTL_CPL_EN.ofQ v) ∧
    (s.sys.inReset = false → ∃ t, exec (.hstCmdTailWrite v) s = .next t ∧ rd HST_CMD_TAIL_TAIL 0 t =
      (if HST_CMD_TAIL_TAIL.ofQ v < cmdRingSize s then HST_CMD_TAIL_TAIL.ofQ v else rd HST_CMD_TAIL_TAIL 0 s)) ∧
    (s.sys.inReset = false → ∃ t, exec (.hstCplHeadWrite v) s = .next t ∧ rd HST_CPL_HEAD_HEAD 0 t =
      (if HST_CPL_HEAD_HEAD.ofQ v < cplRingSize s then HST_CPL_HEAD_HEAD.ofQ v else rd HST_CPL_HEAD_HEAD 0 s)) ∧
    (rd HST_MBX_CTL_MBX_BUSY 0 s = 0 → s.sys.inReset = false → ∃ t, exec (.mbxGo v) s = .next t ∧ rd HST_MBX_CTL_MBX_BUSY 0 t = 1 ∧
      t.host.cmds.length + t.host.cplWait.length = s.host.cmds.length + s.host.cplWait.length + 1) ∧
    (∀ q0 q1 q2 q3 q4 q5 q6 q7 : Qword, canFetch s = true → ∃ t, exec (.commandFetch q0 q1 q2 q3 q4 q5 q6 q7) s = .next t ∧
      rd HST_CMD_HEAD_HEAD 0 t = (rd HST_CMD_HEAD_HEAD 0 s + 1) % cmdRingSize s % 4096 ∧
      t.host.cmds.length + t.host.cplWait.length = s.host.cmds.length + s.host.cplWait.length + 1) ∧
    (∀ (c : Cpl) (r : List Cpl), s.host.cplWait = c :: r → rd HST_CTL_CPL_EN 0 s = 1 → dmaOk s = true → cplRoom s = true →
      ∃ t, exec .completionWrite s = .next t ∧ t.host.cplWait = r ∧
        rd HST_CNT_COMMANDS 0 t = satU 32 (rd HST_CNT_COMMANDS 0 s + 1))

/-- R331, R332, R360 to R368: a bind opens a ring for a free queue or is refused with its reason; an unbind ends it; an item of a live ring
is written to its slot and PROD moves on; a batch ends with the new PROD; CONS is read when due and taken when valid; the link and the
bus master gate all of it. What the spec leaves open in it is the model's choice: log entries 6 and 17. -/
def Obligations.DeliveryRings : Prop :=
  ∀ (s : State) (tag : Byte) (c : Cmd) (q : Fin 256),
    (s.starts 0x20 tag c → inIW s = true → c.op 0 = q → bindReason q s = 0 → s.rings = [] → dmaOk s = true →
      (∀ x : Nat, x < 4 → bobSt x s = bIDLE) → (∀ e ∈ s.host.cmds, e.phase = .running → e.opcode ≠ 0x20) →
      ∃ t, exec (.ringBind tag) s = .next t ∧ s.answered t c 0 0 0 ∧
        t.rings = [{ queue := q, base := c.op 1, size := c.op 2, index := c.op 3 }] ∧
        t.out = .dma (c.op 3) (qBytes 0) :: s.out ∧ s.framed t [.out, .host, .rings] []) ∧
    (s.starts 0x20 tag c → inIW s = true → c.op 0 = q → ringBound q s = true → ∃ t, exec (.ringBind tag) s = .next t ∧
      s.answered t c 0x15 1 0 ∧ s.framed t [.host] []) ∧
    (∀ g : Ring, s.starts 0x21 tag c → inIW s = true → c.op 0 = q → s.rings = [g] → g.queue = q → g.ending = false → g.fresh = false →
      g.prod = g.posted → (∀ e ∈ s.host.cmds, e.phase = .running → e.opcode ≠ 0x20 ∧ e.opcode ≠ 0x21) →
      ∃ t, exec (.ringUnbind tag) s = .next t ∧ s.answered t c 0 0 0 ∧ t.rings = [] ∧ s.framed t [.host, .rings] []) ∧
    (s.starts 0x21 tag c → inIW s = true → c.op 0 = q → ringOf q s = none → ∃ t, exec (.ringUnbind tag) s = .next t ∧
      s.answered t c 0x15 1 0 ∧ s.framed t [.host] []) ∧
    (∀ g : Ring, s.rings = [g] → g.queue = q → g.live s = true →
      (∀ (it : QItem) (r : List QItem) (d : Nat), g.room ≠ 0 → (queueOf q s).items = it :: r → r ≠ [] → it.linkBad = false →
        decodeWord it.word = .clean d → g.posted = g.prod → g.prod < 2 ^ 48 - 1 → ∃ (t : State) (h : Ring),
        exec (.ringDeliver q) s = .next t ∧ (queueOf q t).items = r ∧ t.rings = [h] ∧ h.prod = g.prod + 1 ∧ h.posted = g.posted ∧
        s.framed t [.out, .queues, .rings, .warp] [] ∧
        t.out = (dmaWrite (g.base + 6 * (g.prod % 2 ^ g.size)) ((List.range 6).map (fun i => BitVec.ofNat 8 (d / 2 ^ (8 * i) % 256))) s).out) ∧
      (∀ d : Nat, g.batchAt = some d → g.prod ≠ g.posted → ∃ t, exec (.ringBatchEnd q) s = .next t ∧ d ≤ t.now ∧
        t.rings = [{ g with posted := g.prod, batchAt := none }] ∧ Output.dma g.index (qBytes (place g.prod 0 48)) ∈ t.out ∧
        s.framed t [.now, .rings, .out, .host] [WFQ_STAT_LVL.key q, evtKey (qEvent q)]) ∧
      (∀ d : Nat, g.pollAt = some d → g.reading = false → ∃ t, exec (.consPoll q) s = .next t ∧ d ≤ t.now ∧
        t.rings = [{ g with reading := true, pollAt := none }] ∧ t.out = .dmaRead (g.index + 8) :: s.out ∧
        s.framed t [.now, .rings, .out] [])) ∧
    (∀ (g : Ring) (v : Qword), s.rings = [g] → g.queue = q → g.reading = true →
      ((g.prod + 2 ^ 48 - v.toNat % 2 ^ 48) % 2 ^ 48 ≤ 2 ^ g.size → ∃ (t : State) (h : Ring), exec (.consReadDone q v) s = .next t ∧
        t.rings = [h] ∧ h.cons = v.toNat % 2 ^ 48 ∧ h.reading = false ∧
        s.framed t [.rings, .out, .host] [WFQ_STAT_LVL.key q, evtKey (qEvent q)]) ∧
      (2 ^ g.size < (g.prod + 2 ^ 48 - v.toNat % 2 ^ 48) % 2 ^ 48 → g.badLogged = false → ∃ (t : State) (h : Ring),
        exec (.consReadDone q v) s = .next t ∧ t.rings = [h] ∧ h.cons = g.cons ∧ h.badLogged = true ∧ evtSet 20 t = true ∧
        s.framed t (.rings :: recParts) logKeys) ∧
      (∀ k : Fin 4, ∃ (t : State) (h : Ring), exec (.dmaError (some q, k)) s = .next t ∧ t.rings = [h] ∧ h.stopped = true ∧
        rd HST_STAT_DMA_ERR 0 t = 1 ∧ evtSet 19 t = true ∧ evtSet 20 t = true ∧
        t.host.aer = (aerOfRead k s).host.aer)) ∧
    (∀ (speed : Fin 5) (width : Fin 4), s.sys.inReset = false →
      (∃ t, exec (.hstLink speed width true) s = .next t ∧ rd HST_STAT_LINK_WIDTH 0 t = 0 ∧ rd HST_STAT_LINK_SPEED 0 t = 0 ∧
        dmaOk t = false ∧ (0 < rd HST_STAT_LINK_SPEED 0 s ∨ 0 < rd HST_STAT_LINK_WIDTH 0 s → evtSet 21 t = true) ∧
        s.framed t evtParts [HST_STAT_LINK_WIDTH.key 0, HST_STAT_LINK_SPEED.key 0, evtKey 21]) ∧
      (s.rings = [] → exec (.hstLink speed width false) s = exec (.pcieLinkUp speed width) s ∧
        ∃ t, exec (.pcieLinkUp speed width) s = .next t ∧ rd HST_STAT_LINK_WIDTH 0 t = 2 ^ width.val ∧
        rd HST_STAT_LINK_SPEED 0 t = minN (speed + 1) (strapSpeed s) ∧
        (minN (speed + 1) (strapSpeed s) < rd HST_STAT_LINK_SPEED 0 s ∨ 2 ^ width.val < rd HST_STAT_LINK_WIDTH 0 s →
          evtSet 21 t = true ∧ s.framed t evtParts [HST_STAT_LINK_WIDTH.key 0, HST_STAT_LINK_SPEED.key 0, evtKey 21]) ∧
        (rd HST_STAT_LINK_SPEED 0 s ≤ minN (speed + 1) (strapSpeed s) → rd HST_STAT_LINK_WIDTH 0 s ≤ 2 ^ width.val →
          s.framed t [] [HST_STAT_LINK_WIDTH.key 0, HST_STAT_LINK_SPEED.key 0])) ∧
      (∀ be d3 : Bool, s.rings = [] → exec (.busMasterChange be d3) s = .next { s with host := { s.host with busMaster := be, d3hot := d3 } }))

/-! ### The commands of the queue -/

/-- R339, R341, R346: a command that is not queued or may not start yet is left as it is; one that starts in a device state it is not
listed for ends with BAD_STATE and the code of the state, and does nothing else. R341, R342, R346: NOP and IDENTIFY; the register
commands make their access and answer with it, or BAD_ADDRESS; PROFILE_SET selects a profile while every unit is stopped; TIME_SET sets
the time of day at once or arms it, in each state it is listed for. What the spec leaves open in it is the model's choice: log entries
8 and 14. -/
def Obligations.CommandStatesAndRegisters : Prop :=
  (∀ (s : State) (tag : Byte) (c : Cmd) (drift : List Int) (pr kn : Bool) (rk : Fin 8) (de : Fin 64) (gi : Fin 256) (tr : Fin 65536),
    ∀ x ∈ ([(.weaveStart tag, 0x08, [3, 4]), (.weaveStop tag, 0x09, [4]), (.profileSet tag, 0x0A, [3]), (.holdEnter tag, 0x0B, [3, 6]),
        (.holdExit tag drift, 0x0C, [5]), (.portStart tag, 0x10, [3, 4]), (.portStop tag, 0x11, [3, 4, 6]), (.engineStart tag, 0x12, [3, 4]),
        (.engineStop tag, 0x13, [3, 4, 6]), (.cmdBeat tag, 0x14, [4]), (.timeSet tag, 0x16, [3, 4, 5]), (.codePrepare tag, 0x18, [3, 4]),
        (.imageLoad tag, 0x19, [3, 4]), (.engineSwap tag, 0x1A, [3, 4]), (.convSwap tag, 0x1B, [3, 4]), (.warpFill tag, 0x1C, [3, 4]),
        (.ringBind tag, 0x20, [3, 4]), (.ringUnbind tag, 0x21, [3, 4]), (.calRun tag, 0x28, [3, 4]), (.memVacate tag, 0x30, [3, 4]),
        (.memRestore tag pr kn rk de gi tr, 0x31, [3, 4])] : List (Instr × Nat × List Nat)),
      (startable tag.toNat s = none → exec x.1 s = .next s) ∧
      (s.starts x.2.1 tag c → devState s ∉ x.2.2 → ∃ t, exec x.1 s = .next t ∧ s.answered t c 0x12 (devState s - 2) 0 ∧
        s.framed t [.host] [])) ∧
  (∀ (s : State) (tag : Byte) (c : Cmd),
    (s.starts 0x00 tag c → ∃ t, exec (.cmdNop tag) s = .next t ∧ s.answered t c 0 0 0 ∧ s.framed t [.host] []) ∧
    (s.starts 0x01 tag c → ∃ t, exec (.identify tag) s = .next t ∧ s.answered t c 0 0 (regShow SYS_ID 0 s) ∧ s.framed t [.host] []) ∧
    (s.starts 0x02 tag c → 0x6000 ≤ c.op 0 → ∃ t, exec (.csrRead tag) s = .next t ∧ s.answered t c 0x14 0 0 ∧ s.framed t [.host] []) ∧
    (s.starts 0x03 tag c → 0x6000 ≤ c.op 0 → ∃ t, exec (.csrWrite tag) s = .next t ∧ s.answered t c 0x14 0 0 ∧ s.framed t [.host] []) ∧
    (s.starts 0x04 tag c → 0x6000 ≤ c.op 0 → ∃ t, exec (.csrRmw tag) s = .next t ∧ s.answered t c 0x14 0 0 ∧ s.framed t [.host] []) ∧
    (∀ (g : Reg) (i : Nat), c.op 0 < 0x6000 → s.sys.inReset = false → regAt (c.op 0) = some (g, i) → c.mbx = false →
      g.base ∉ [WFQ_HPOP.base, SYS_TIME_HI.base, WRP_BANK_DATA.base, DRM_MIG_STAT.base] → g.base ∉ windowBases →
      (s.starts 0x02 tag c → ∃ t, exec (.csrRead tag) s = .next t ∧ s.answered t c 0 0 (regLook g i s) ∧
        s.framed t [.host] ((g.fields.filter (fun f => f.ty = .rc)).map (fun f => f.key i)) ∧ ∀ f ∈ g.fields, f.ty = .rc → rd f i t = 0) ∧
      ((∀ v : Qword, writeA .pcie g.base i v s = none ∧ writeB .pcie g.base i v s = none ∧ writeC .pcie g.base i v s = none ∧
          writeD .pcie g.base i v s = none) → (∀ f ∈ g.fields, f.ty = .rw) →
        (s.starts 0x03 tag c → ∃ t, exec (.csrWrite tag) s = .next t ∧ s.answered t c 0 0 0 ∧
          s.framed t [.host] (g.fields.map (fun f => f.key i)) ∧ ∀ f ∈ g.fields, rd f i t = f.ofQ (BitVec.ofNat 64 (c.op 1))) ∧
        (s.starts 0x04 tag c → ∃ t, exec (.csrRmw tag) s = .next t ∧ s.answered t c 0 0 (regLook g i s) ∧
          s.framed t [.host] (g.fields.map (fun f => f.key i)) ∧
          ∀ f ∈ g.fields, rd f i t = f.ofQ ((BitVec.ofNat 64 (regLook g i s) &&& ~~~(BitVec.ofNat 64 (c.op 1))) |||
            (BitVec.ofNat 64 (c.op 2) &&& BitVec.ofNat 64 (c.op 1)))))) ∧
    (s.starts 0x0A tag c → devState s = stIDLE → c.op 0 < 3 → (∀ p : Nat, p < 16 → portSt p s = pSTOPPED) →
      (∀ l : Nat, l < 32 → engSt (physOf l s) s = eSTOPPED) → ∃ t, exec (.profileSet tag) s = .next t ∧ s.answered t c 0 0 0 ∧
        rd SYS_PROFILE_PROFILE 0 t = c.op 0 ∧ s.framed t [.host] [SYS_PROFILE_PROFILE.key 0]) ∧
    (s.starts 0x0A tag c → devState s = stIDLE → profileFree s = false → ∃ t, exec (.profileSet tag) s = .next t ∧
      s.answered t c 0x12 1 0 ∧ s.framed t [.host] []) ∧
    (s.starts 0x16 tag c → devState s = stIDLE ∨ devState s = stWEAVING ∨ devState s = stHOLD →
      s.tod.armed = none ∨ c.aux = 0 ∧ (∀ e ∈ s.host.cmds, e.phase = .running → e.opcode ≠ 0x16) → c.op 0 < 2 ^ 40 →
      (c.op 1 = 1 → ∃ t, exec (.timeSet tag) s = .next t ∧ s.answered t c 0 0 0 ∧ evtSet 6 t = true ∧ rd SYS_DISC_STAT_VALID 0 t = 1 ∧
        t.tod = { s.tod with tU := ((c.op 0 * 256000000000 : Nat) : Rat), rawU := 256 * s.now, armed := none } ∧
        s.framed t [.tod, .host, .out] [SYS_TOD_SET_SEC.key 0, SYS_DISC_STAT_VALID.key 0, evtKey 6]) ∧
      (c.op 1 = 0 → ∃ t, exec (.timeSet tag) s = .next t ∧ t.waits c 1 ∧ t.tod = { s.tod with armed := some (c.op 0) } ∧
        s.framed t [.tod, .host] [SYS_TOD_SET_SEC.key 0])))

/-- R200, R343, R344, R404, R545, R549: WEAVE_START enters WEAVING from the draft's entry or is refused with the condition that fails;
WEAVE_STOP closes, and the device is IDLE once launched picks are complete; HOLD_ENTER waits for the traffic to end and then holds the
SDRAM; HOLD_EXIT returns to IDLE, unless a fault cause is active. What the spec leaves open in it is the model's choice: log entries
18, 24, 25 and 97. -/
def Obligations.WeaveAndHold : Prop :=
  ∀ (s : State) (tag : Byte) (c : Cmd) (drift : List Int),
    (s.starts 0x08 tag c → devState s = stIDLE → (∀ e ∈ s.host.cmds, e.phase = .running → e.opcode ≠ 0x08) →
      (weaveRefusal s = (0, 0) → bankOf s < 2 → ∃ t, exec (.weaveStart tag) s = .next t ∧ s.answered t c 0 0 0 ∧ devState t = stWEAVING ∧
        t.trd.weaving = true ∧ t.trd.firstPick = true ∧ t.trd.pc = rd TRD_BANK_CFG_ENTRY (bankOf s) s ∧ t.trd.startDue = some s.now ∧
        (s.trd.picks = [] → t.heddle.grid = []) ∧ evtSet 9 t = true ∧
        (∀ p : Nat, p < 16 → rd TRD_PORT_KIND p t = 0 ∧ rd TRD_PORT_SLOT p t = 0 ∧ rd TRD_PORT_GZT p t = 0) ∧
        s.partsKept t [.inf, .out, .ports, .gauge, .heddle, .trd, .src, .queues, .host]) ∧
      (∀ k j : Nat, weaveRefusal s = (k, j) → k ≠ 0 → ∃ t, exec (.weaveStart tag) s = .next t ∧ s.answered t c 0x20 k j ∧
        s.framed t [.host] [])) ∧
    (s.starts 0x09 tag c → devState s = stWEAVING → s.trd.closing = false → s.trd.set = none → ∃ t, exec (.weaveStop tag) s = .next t ∧
      t.waits c c.aux ∧ t.trd.closing = true ∧ t.trd.weaving = false ∧ t.trd.running = false ∧ t.ports.gzStg = s.ports.gz ∧
      devState t = stWEAVING ∧ s.partsKept t [.ports, .reed, .spc, .trd, .host]) ∧
    (s.host.cmds.filter (fun e => decide (e.opcode = 0x09 ∧ e.phase = .running)) = [c] → weaving s = true → s.trd.closing = true →
      s.trd.picks.all (fun x => x.complete.isSome) = true → s.host.deferredWeave = none →
      ∃ t, exec .weaveStopComplete s = .next t ∧ s.answered t c 0 0 0 ∧ devState t = stIDLE ∧ t.trd.closing = false ∧ evtSet 9 t = true) ∧
    (s.starts 0x0B tag c → devState s = stIDLE → rd DRM_STAT_HELD 0 s = 0 → ∃ t, exec (.holdEnter tag) s = .next t ∧ t.waits c c.aux ∧
      s.framed t [.host] []) ∧
    (s.host.cmds.filter (fun e => decide (e.opcode = 0x0B ∧ e.phase = .running)) = [c] → dramQuiet s = true → devState s = stIDLE →
      ∃ t, exec .holdEnterComplete s = .next t ∧ cplOf c 0 0 0 ∈ t.host.cplWait ∧ devState t = stHOLD ∧ rd DRM_STAT_HELD 0 t = 1 ∧
        (∀ e : Nat, e < 34 → engOf e t = emptied (engOf e s)) ∧ t.sht.swap = none ∧ t.sht.load = none ∧ rd SHT_RUN_RUN 0 t = 0 ∧ rd SHT_SWAP_STAT_COPYING 0 t = 0 ∧ evtSet 9 t = true) ∧
    (s.starts 0x0C tag c → devState s = stHOLD →
      (faultActive s = 0 → ∃ t, exec (.holdExit tag drift) s = .next t ∧ s.answered t c 0 0 0 ∧ devState t = stIDLE ∧
        rd DRM_STAT_HELD 0 t = 0 ∧ evtSet 9 t = true) ∧
      (faultActive s ≠ 0 → ∃ t, exec (.holdExit tag drift) s = .next t ∧ s.answered t c 0x15 (faultActive s) 0 ∧ s.framed t [.host] []))

/-- R341, R345, R346: a mask command starts or stops its units and answers with the masks of those refused; BEAT asks the Treadle for a
beat, or ends EXITED once it has stopped. What the spec leaves open in it is the model's choice: log entries 13, 18 and 51. -/
def Obligations.MaskCommands : Prop :=
  ∀ (s : State) (tag : Byte) (c : Cmd), (∀ e ∈ s.host.cmds, e.phase = .running → e.opcode < 0x10 ∨ 0x13 < e.opcode) →
    c.got = 0 → c.refused = 0 → c.cancelled = 0 → devState s = stIDLE ∨ devState s = stWEAVING →
    (∀ p : Fin 16, c.op 0 = 2 ^ p.val →
      (s.starts 0x10 tag c → portSt p s = pSTOPPED → geomErr p s = 0 → heddleLoad (some p) s ≤ 16 * periodOf s → startUnready p s = false →
        convCause p s = false →
        ∃ t, exec (.portStart tag) s = .next t ∧ s.answered t c 0 0 0 ∧ portSt p t = pRUNNING ∧ rd PRT_CTL_RUN p t = 1 ∧
          s.framed t [.ports, .gauge, .heddle, .trd, .host] [PRT_STAT_STATE.key p, PRT_CTL_RUN.key p, PRT_STAT_CONV_FAULT.key p,
            PRT_STAT_STAMP_FAULT.key p, PRT_STAT_START_PENDING.key p, SRC_MON_RUN.key p, GAU_STAT_GEOM_ERR.key p]) ∧
      (s.starts 0x10 tag c → portSt p s = pGATED → ∃ t, exec (.portStart tag) s = .next t ∧ s.answered t c 1 0 (2 ^ p.val) ∧
        evtSet 20 t = true ∧ s.framed t recParts logKeys) ∧
      (s.starts 0x11 tag c → portSt p s = pSTOPPED → ∃ t, exec (.portStop tag) s = .next t ∧ s.answered t c 0 0 0 ∧
        s.framed t [.host] [PRT_CTL_RUN.key p]) ∧
      (s.starts 0x11 tag c → portSt p s = pRUNNING → weaving s = true → ∃ t, exec (.portStop tag) s = .next t ∧ t.waits c c.aux ∧
        portSt p t = pCLOSING ∧ rd PRT_CTL_RUN p t = 0 ∧ s.framed t [.host] [PRT_CTL_RUN.key p, PRT_STAT_STATE.key p])) ∧
    (∀ (l : Fin 32) (e : Nat), c.op 0 = 2 ^ l.val → e = physOf l s → e < 34 →
      (s.starts 0x12 tag c → engSt e s = eSTOPPED → rd SHT_ENG_STAT_IMAGE_ID e s ≠ 0 → psync l s = false →
        ∃ t, exec (.engineStart tag) s = .next t ∧ s.answered t c 0 0 0 ∧ engSt e t = eRUNNING ∧ bitOf (rd SHT_RUN_RUN 0 t) l = true ∧
          s.framed t [.sht, .host] [SHT_ENG_STAT_ENG_STATE.key e, SHT_ENG_STAT_FAULT.key e, SHT_RUN_RUN.key 0]) ∧
      (s.starts 0x12 tag c → engSt e s = eSTOPPED → rd SHT_ENG_STAT_IMAGE_ID e s = 0 → ∃ t, exec (.engineStart tag) s = .next t ∧
        s.answered t c 1 0 (2 ^ l.val) ∧ evtSet 20 t = true ∧ s.framed t recParts logKeys) ∧
      (s.starts 0x13 tag c → engSt e s = eSTOPPED → startPending l s = false → ∃ t, exec (.engineStop tag) s = .next t ∧ s.answered t c 0 0 0 ∧
        bitOf (rd SHT_RUN_RUN 0 t) l = false ∧ s.framed t [.host] [SHT_RUN_RUN.key 0])) ∧
    (s.starts 0x14 tag c → devState s = stWEAVING →
      (s.trd.weaving = true → bankOf s < 2 → ∃ t, exec (.cmdBeat tag) s = .next t ∧ t.waits c c.aux ∧
        t.trd = { s.trd with hostBeat := true } ∧ s.framed t [.host, .trd] []) ∧
      (s.trd.weaving = false → ∃ t, exec (.cmdBeat tag) s = .next t ∧
        s.answered t c 3 0 (4 * 2 ^ 60 + rd SYS_PICK_NUM_NUM 0 s % 2 ^ 48) ∧ s.framed t [.host] []))

/-- R341, R342, R345: a command that asks a unit for something waits for it once the unit has taken the request, and ends REFUSED with the
unit's reason otherwise; NOP and IDENTIFY answer at once, and TIME_SET answers at once or waits for its second. What the spec leaves
open in it is the model's choice: log entry 9. -/
def Obligations.RequestCommands : Prop :=
  ∀ (s : State) (tag : Byte) (c : Cmd) (k : Nat), devState s = stIDLE ∨ devState s = stWEAVING → k = c.op 0 →
    (s.starts 0x18 tag c → k < 64 →
      (s.reed.prep = none → nCodeOf (bankFromBuffer s) ≤ 8192 → reedFrozen s = false → ∃ (t : State) (x : Prep),
        exec (.codePrepare tag) s = .next t ∧ t.waits c k ∧ t.reed.prep = some x ∧ x.slot = k ∧ x.bank = bankFromBuffer s ∧
        s.framed t [.reed, .host] [RED_SLOT_STAT_BUSY.key 0, RED_SLOT_STAT_BUSY_SLOT.key 0]) ∧
      (s.reed.prep ≠ none → ∃ t, exec (.codePrepare tag) s = .next t ∧ s.answered t c 0x15 0 0 ∧
        s.framed t [.host] [RED_SLOT_STAT_REFUSED.key 0])) ∧
    (∀ e : Nat, s.starts 0x19 tag c → c.op 1 = e → e < 34 →
      (s.sht.load = none → s.sht.swap = none → engSt e s = eSTOPPED → ∃ t, exec (.imageLoad tag) s = .next t ∧ t.waits c e ∧
        engSt e t = eLOADING ∧ t.sht.load = some { engine := e, src := k, spare := false } ∧
        s.framed t [.sht, .host] [SHT_IMG_STAT_BUSY.key 0, SHT_IMG_STAT_ENGINE.key 0, SHT_ENG_STAT_ENG_STATE.key e]) ∧
      (engSt e s = eRUNNING → ∃ t, exec (.imageLoad tag) s = .next t ∧ s.answered t c 0x15 0 0 ∧
        s.framed t [.host] [SHT_IMG_STAT_REFUSED.key 0])) ∧
    (∀ (v : Qword) (l sp : Nat), s.starts 0x1A tag c → v = BitVec.ofNat 64 k → l = SHT_SWAP_LOG.ofQ v → sp = SHT_SWAP_SPARE.ofQ v →
      engSwapReason l sp (SHT_SWAP_MODE.ofQ v) s = 0 → ∃ (t : State) (w : EngSwap), exec (.engineSwap tag) s = .next t ∧ t.waits c 0 ∧
        t.sht.swap = some w ∧ w.log = l ∧ w.spare = sp ∧ w.out = physOf l s ∧
        (engSt (physOf l s) s ≠ eSTOPPED → engSt (physOf l s) s ≠ eFAULTED → w.copying = false ∧ rd SHT_SWAP_STAT_WAITING 0 t = 1 ∧
          s.framed t [.sht, .host] [SHT_SWAP_STAT_WAITING.key 0, SHT_SWAP_STAT_LOG.key 0, SHT_SWAP_STAT_OUTGOING.key 0]) ∧
        (engSt (physOf l s) s = eSTOPPED ∨ engSt (physOf l s) s = eFAULTED → w.copying = true ∧ rd SHT_SWAP_STAT_WAITING 0 t = 0 ∧
          rd SHT_SWAP_STAT_COPYING 0 t = 1 ∧ s.framed t [.sht, .host] [SHT_SWAP_STAT_WAITING.key 0, SHT_SWAP_STAT_COPYING.key 0,
            SHT_SWAP_STAT_LOG.key 0, SHT_SWAP_STAT_OUTGOING.key 0, SHT_ENG_STAT_ENG_STATE.key (physOf l s)])) ∧
    (∀ g j sp : Nat, s.starts 0x1B tag c → g = slice k 16 2 → j = slice k 0 4 → sp = rd CNV_GRP_STAT_SPARE g s → sp < 68 →
      (swapReason g j s = 0 → ∃ t, exec (.convSwap tag) s = .next t ∧ t.waits c g ∧ cnvSt sp t = cSHADOW ∧
        swapOf g t = some { slot := j, spare := sp, at_ := s.now, byCmd := true } ∧
        s.framed t [.ports, .host] [CNV_STAT_STATE.key sp, CNV_GRP_STAT_BUSY.key g]) ∧
      (swapReason g j s ≠ 0 → ∃ t, exec (.convSwap tag) s = .next t ∧ s.answered t c 0x15 (swapReason g j s) 0 ∧
        rd CNV_GRP_STAT_REFUSED g t = 1 ∧ s.framed t evtParts [CNV_GRP_STAT_REFUSED.key g, CNV_GRP_STAT_REASON.key g,
          evtKey (33 + 2 * (4 * g + j / 4))])) ∧
    (s.starts 0x1C tag c →
      (fillRefused k (c.op 1) s = false → ∃ t, exec (.warpFill tag) s = .next t ∧ t.waits c 0 ∧
        t.warp = { s.warp with fill := some { first := k, last := c.op 1 } } ∧ s.framed t [.warp, .host] [WRP_STAT_FILL_BUSY.key 0]) ∧
      (c.op 1 < k → ∃ t, exec (.warpFill tag) s = .next t ∧ s.answered t c 0x15 0 0 ∧
        s.framed t [.host] [WRP_STAT_FILL_REFUSED.key 0])) ∧
    (∀ kind idx : Nat, s.starts 0x28 tag c → kind = slice k 0 4 → idx = slice k 8 8 →
      (calRunReason kind idx s = 0 → (∀ e ∈ s.host.cmds, e.phase = .running → e.opcode ≠ 0x28) →
        s.cal.pairs.any (fun x => decide (x.kind = kind ∧ x.idx = idx)) = false →
        ∃ t, exec (.calRun tag) s = .next t ∧ t.waits c (calAux kind idx) ∧ (kind, idx) ∈ t.cal.queue ∧ s.framed t [.cal, .host] []) ∧
      (4 ≤ kind → ∃ t, exec (.calRun tag) s = .next t ∧ s.answered t c 0x15 1 0 ∧ s.framed t [.host] [])) ∧
    (s.starts 0x00 tag c → ∃ t, exec (.cmdNop tag) s = .next t ∧ s.answered t c 0 0 0) ∧
    (s.starts 0x01 tag c → ∃ t, exec (.identify tag) s = .next t ∧ s.answered t c 0 0 (regShow SYS_ID 0 s)) ∧
    (s.starts 0x16 tag c → s.tod.armed = none ∨ c.aux = 0 ∧ (∀ e ∈ s.host.cmds, e.phase = .running → e.opcode ≠ 0x16) →
      (c.op 1 = 1 → ∃ t, exec (.timeSet tag) s = .next t ∧ s.answered t c 0 0 0 ∧ t.tod.tU = ((c.op 0 % 2 ^ 40 * 256000000000 : Nat) : Rat)) ∧
      (c.op 1 = 0 → ∃ t, exec (.timeSet tag) s = .next t ∧ t.waits c 1 ∧ t.tod.armed = some (c.op 0 % 2 ^ 40))) ∧
    (k < 2 → (∀ (pr kn : Bool) (rk : Fin 8) (de : Fin 64) (gi : Fin 256) (tr : Fin 65536),
      (s.starts 0x30 tag c → s.dram.op = none → chState 0 s = chSERVING → chState 1 s = chSERVING →
        (declaredChan k s).length ≤ (freeFrames (vacateRanks k s) s).length → ∃ t, exec (.memVacate tag) s = .next t ∧ t.waits c k ∧
          chState k t = chVACATING ∧ t.dram = { s.dram with op := some { kind := 2, ch := k, rank := 0, toSpare := false, byCmd := true } } ∧
          rd DRM_STAT_MIGRATING 0 t = 1) ∧
      (s.starts 0x30 tag c → s.dram.op ≠ none → ∃ t, exec (.memVacate tag) s = .next t ∧ s.answered t c 0x15 1 0 ∧
        rd DRM_MIG_STAT_REFUSED 0 t = 1 ∧ s.framed t [.host] [DRM_MIG_STAT_REFUSED.key 0, DRM_MIG_STAT_REASON.key 0]) ∧
      (∀ x : Spd, s.starts 0x31 tag c → s.dram.op = none → chState k s = chVACANT → spdOf pr kn rk de gi tr = some x →
        orgSame k x s = true → ∃ t, exec (.memRestore tag pr kn rk de gi tr) s = .next t ∧ t.waits c k ∧ chState k t = chRESTORING ∧
          t.dram.op = some { kind := 3, ch := k, rank := 0, toSpare := false, byCmd := true })))

/-! ### External memory -/

/-- R390, R392, R397 to R399: refreshes fall due one interval apart, and are issued, postponed while the replay writer has data queued, or
forced with the owed ones; an unhindered writer empties its buffer first; the hot ranks set HOT; a pending write-back is stored; a
parity alert is counted and raises event 193, a fourth failed retry of a command is a persistent error; the patrol reads its next burst
and ends a pass with event 204; a copied page is used from the pool. What the spec leaves open in it is the model's choice: log entries
6, 34, 90 and 99. -/
def Obligations.DramUpkeep : Prop :=
  ∀ (s : State) (k : Fin 8) (x : RankRef), x = rankRef k s →
    (∀ (q : Bool) (d : BitVec 16), rankLive k s = false → exec (.refreshDue k q d) s = .next s ∧ exec (.owedRefresh k d) s = .next s) ∧
    (∀ d : BitVec 16, rankLive k s = true →
      (rplQueued k s = true → x.owed < 4 → ∃ t, exec (.refreshDue k true d) s = .next t ∧ x.due ≤ t.now ∧
        rankRef k t = { x with owed := x.owed + 1, due := x.due + refi s } ∧ (∀ j : Nat, j ≠ k → rankRef j t = rankRef j s) ∧
        rd DRM_REF_POSTPONES 0 t = satU DRM_REF_POSTPONES.width (rd DRM_REF_POSTPONES 0 s + 1) ∧
        s.framed t [.now, .dram] [DRM_REF_POSTPONES.key 0]) ∧
      (rplQueued k s = true → 4 ≤ x.owed → ∃ t, exec (.refreshDue k true d) s = .next t ∧ x.due ≤ t.now ∧ (rankRef k t).owed = 0 ∧
        (rankRef k t).count = x.count + 5 ∧ rd DRM_REF_FORCED 0 t = satU DRM_REF_FORCED.width (rd DRM_REF_FORCED 0 s + 1) ∧
        s.framed t [.now, .dram, .out, .host] [DRM_REF_FORCED.key 0, DRM_TRAIN_ADJUSTS.key (k / 4), DRM_TRAIN_DRIFT.key (k / 4), evtKey 201]) ∧
      (rplQueued k s = false → (x.count + x.owed + 1) / 256 = x.count / 256 → ∃ t, exec (.refreshDue k true d) s = .next t ∧ x.due ≤ t.now ∧
        rankRef k t = { x with owed := 0, count := x.count + (x.owed + 1), due := x.due + refi s } ∧ s.framed t [.now, .dram] []) ∧
      (rplQueued k s = false → x.count / 256 < (x.count + x.owed + 1) / 256 → 12 < d.toInt.natAbs → x.drifted = false → ∃ t,
        exec (.refreshDue k true d) s = .next t ∧ x.due ≤ t.now ∧ evtSet 201 t = true ∧ (rankRef k t).drifted = true ∧
        (rankRef k t).applied = x.applied + clampZ (-2) 2 (d.toInt - x.applied) ∧
        s.framed t [.now, .dram, .out, .host] [DRM_TRAIN_ADJUSTS.key (k / 4), DRM_TRAIN_DRIFT.key (k / 4), evtKey 201]) ∧
      (∃ t, exec (.refreshDue k false d) s = .next t ∧ x.due ≤ t.now ∧ t.dram.rplBuf = [] ∧ (rankRef k t).owed = 0 ∧
        (rankRef k t).count = x.count + x.owed + 1 ∧ (s.dram.rplBuf = [] → exec (.refreshDue k true d) s = .next t)) ∧
      (x.owed ≠ 0 → ∃ t, exec (.owedRefresh k d) s = .next t ∧ (rankRef k t).owed = 0 ∧ (rankRef k t).count = x.count + x.owed ∧
        t.dram.rplBuf = [] ∧ (s.dram.rplBuf = [] →
          s.framed t [.dram, .out, .host] [DRM_TRAIN_ADJUSTS.key (k / 4), DRM_TRAIN_DRIFT.key (k / 4), evtKey 201])) ∧
      (x.owed = 0 → exec (.owedRefresh k d) s = .next s)) ∧
    (∀ hot : BitVec 8, ∃ t, exec (.mr4Poll hot) s = .next t ∧ s.framed t [.now, .dram] [DRM_REF_HOT.key 0] ∧
      (∀ j : Nat, j < 8 → rankRef j t = { rankRef j s with hot := rankLive j s && bitOf hot.toNat j }) ∧
      (rankLive k s = true → s.dram.pollDue ≤ t.now ∧ t.dram.pollDue = s.dram.pollDue + 16000000) ∧
      (rd DRM_REF_HOT 0 t = 1 ↔ ∃ j : Nat, j < 8 ∧ rankLive j s = true ∧ bitOf hot.toNat j = true)) ∧
    (∀ (sb : Nat) (v : Burst) (r : List (Nat × Burst)), s.dram.wbs = (sb, v) :: r → dramHeld s = false →
      regionState (sb / 16384) s ≠ rgFILLING → (burstLoc sb s).1 < lostLoc → ∃ t, exec .dramWriteBack s = .next t ∧ dramRaw sb t = v ∧
      t.dram.wbs = ((sb, v) :: r).filter (fun w => w.1 ≠ sb) ∧ (∀ y : Nat, burstLoc y s ≠ burstLoc sb s → dramRaw y t = dramRaw y s) ∧
      s.framed t [.dram] []) ∧
    (∃ t, exec (.parityAlert k false) s = .next t ∧ (rankRef k t).parFails = 0 ∧ evtSet 193 t = true ∧
      rd DRM_CNT_PAR_RETRY 0 t = satU DRM_CNT_PAR_RETRY.width (rd DRM_CNT_PAR_RETRY 0 s + 1) ∧
      s.framed t (.dram :: evtParts) [DRM_CNT_PAR_RETRY.key 0, evtKey 193]) ∧
    (x.parFails < 3 → ∃ t, exec (.parityAlert k true) s = .next t ∧ (rankRef k t).parFails = x.parFails + 1 ∧ evtSet 193 t = true ∧
      s.framed t (.dram :: evtParts) [DRM_CNT_PAR_RETRY.key 0, evtKey 193]) ∧
    (3 ≤ x.parFails → rdB DRM_CTL_AUTO_RANK 0 s = true → rankIsOut k s = false → k.val ∈ servingRanks s → s.dram.op = none → ∃ t,
      exec (.parityAlert k true) s = .next t ∧ rd DRM_ERR_ADDR_KIND 0 t = 1 ∧ rd DRM_ERR_ADDR_CH 0 t = k / 4 ∧
      rd DRM_ERR_ADDR_RANK 0 t = k % 4 ∧ rankIsOut k t = true ∧ evtSet 196 t = true ∧ (rankRef k t).parFails = 0 ∧
      t.dram.op = some { kind := 1, ch := k / 4, rank := k % 4, toSpare := rdB DRM_STAT_SPARE_OK 0 s && decide (k.val ≠ spareRank s), byCmd := false }) ∧
    (rdB DRM_CTL_SCRUB_EN 0 s = false → exec (.patrolScrubRead 0 0) s = .next s) ∧
    (∀ sb : Nat, rdB DRM_CTL_SCRUB_EN 0 s = true → dramHeld s = false → patrolBurst s.dram.patrol s = some sb →
      decodeBurst (dramRaw sb s) = .clean → ∃ t, exec (.patrolScrubRead 0 0) s = .next t ∧ (∀ y : Nat, dramRaw y t = dramRaw y s) ∧
      s.dram.patrolAt + s.dram.patrol * scrubTime s / patrolTotal s ≤ t.now ∧
      ((patrolBurst (s.dram.patrol + 1) s).isSome = true → t.dram.patrol = s.dram.patrol + 1 ∧ s.framed t [.now, .dram] []) ∧
      (patrolBurst (s.dram.patrol + 1) s = none → t.dram.patrol = 0 ∧ t.dram.pageCorr = [] ∧ evtSet 204 t = true ∧
        s.framed t (.now :: .dram :: evtParts) [evtKey 204])) ∧
    (rdB DRM_CTL_SCRUB_EN 0 s = true → dramHeld s = false → patrolBurst s.dram.patrol s = none → ∀ u f : BitVec 640,
      (s.dram.patrol = 0 → exec (.patrolScrubRead u f) s = .next s) ∧
      (s.dram.patrol ≠ 0 → ∃ t, exec (.patrolScrubRead u f) s = .next t ∧ t.dram.patrol = 0 ∧ evtSet 204 t = true ∧
        s.framed t (.dram :: evtParts) [evtKey 204])) ∧
    (∀ (r : Retire) (l : List Retire), s.dram.retiring = r :: l → dramHeld s = false → (∀ c : Nat, s.dram.poolRank.get 0 c < 8) →
      rankFrames s ≤ 65536 → (∀ i : Nat, i < 64 → decodeBurst (dramRaw (64 * r.page + i) s) = .clean) →
      ∃ t, exec .pageRetireDone s = .next t ∧ t.dram.retiring = l.filter (fun x => x.page ≠ r.page) ∧
      t.dram.remap.get 0 r.page = r.pool + 1 ∧
      (∀ i : Nat, i < 64 → dramRaw (64 * r.page + i) t = dramRaw (64 * r.page + i) s) ∧ evtSet 194 t = true ∧
      s.framed t (.dram :: recParts) (DRM_RETIRE_USED.key 0 :: evtKey 194 :: recKeys))

/-- R398, R400, R401, R405, R406, R408: a rank leaves service and its blocks are migrated; a channel is vacated and restored; a request
that cannot be taken is refused with its reason; a region is filled. What the spec leaves open in it is the model's choice: log entries
32, 33 and 36. -/
def Obligations.DramOperations : Prop :=
  ∀ (s : State) (v : Qword) (c : Nat), c = v.toNat % 2 →
    (∀ k : Nat, k = 4 * c + slice v.toNat 6 2 → (s.dram.op = none → k ∈ servingRanks s → s.sys.inReset = false → ∃ t, exec (.drmActRankOut v) s = .next t ∧
        rankIsOut k t = true ∧ evtSet 196 t = true ∧ rd DRM_STAT_MIGRATING 0 t = 1 ∧ rd DRM_MIG_STAT_OP 0 t = 1 ∧
        t.dram = { s.dram with op := some { kind := 1, ch := k / 4, rank := k % 4, toSpare := rdB DRM_STAT_SPARE_OK 0 s && decide (k ≠ spareRank s), byCmd := false } } ∧
        s.framed t (.dram :: evtParts) [DRM_STAT_RANK_OUT.key 0, evtKey 196, DRM_STAT_MIGRATING.key 0, DRM_MIG_STAT_OP.key 0,
          DRM_MIG_STAT_CH.key 0, DRM_MIG_STAT_RANK.key 0, DRM_MIG_STAT_DONE.key 0, DRM_MIG_STAT_TOTAL.key 0]) ∧
      (s.dram.op = none → k ∉ servingRanks s → s.sys.inReset = false → ∃ t, exec (.drmActRankOut v) s = .next t ∧ rd DRM_MIG_STAT_REFUSED 0 t = 1 ∧
        rd DRM_MIG_STAT_REASON 0 t = 2 ∧ evtSet 20 t = true ∧
        s.framed t recParts (DRM_MIG_STAT_REFUSED.key 0 :: DRM_MIG_STAT_REASON.key 0 :: logKeys))) ∧
    (s.dram.op ≠ none → s.sys.inReset = false → ∀ i ∈ [Instr.drmActRankOut v, .drmActVacate v, .drmActRestore v false false 0 0 0 0], ∃ t, exec i s = .next t ∧
      rd DRM_MIG_STAT_REFUSED 0 t = 1 ∧ rd DRM_MIG_STAT_REASON 0 t = 1 ∧ t.dram.op = s.dram.op ∧ evtSet 20 t = true) ∧
    (s.dram.op = none → chState 0 s = chSERVING → chState 1 s = chSERVING →
      ((declaredChan c s).length ≤ (freeFrames (vacateRanks c s) s).length → s.sys.inReset = false → ∃ t, exec (.drmActVacate v) s = .next t ∧ chState c t = chVACATING ∧
        t.dram = { s.dram with op := some { kind := 2, ch := c, rank := 0, toSpare := false, byCmd := false } } ∧
        rd DRM_STAT_MIGRATING 0 t = 1 ∧ s.framed t [.dram] [(chFld c).key 0, DRM_STAT_MIGRATING.key 0, DRM_MIG_STAT_OP.key 0,
          DRM_MIG_STAT_CH.key 0, DRM_MIG_STAT_RANK.key 0, DRM_MIG_STAT_DONE.key 0, DRM_MIG_STAT_TOTAL.key 0]) ∧
      ((freeFrames (vacateRanks c s) s).length < (declaredChan c s).length → s.sys.inReset = false → ∃ t, exec (.drmActVacate v) s = .next t ∧
        rd DRM_MIG_STAT_REASON 0 t = 3 ∧ chState c t = chSERVING ∧ evtSet 20 t = true)) ∧
    (∀ (pr kn : Bool) (rk : Fin 8) (de : Fin 64) (gi : Fin 256) (tr : Fin 65536), s.dram.op = none →
      (∀ x : Spd, chState c s = chVACANT → spdOf pr kn rk de gi tr = some x → orgSame c x s = true →
        s.sys.inReset = false → ∃ t, exec (.drmActRestore v pr kn rk de gi tr) s = .next t ∧ chState c t = chRESTORING ∧ rd DRM_STAT_MIGRATING 0 t = 1 ∧
        t.dram = { s.dram with spd := s.dram.spd.put none c (some x), op := some { kind := 3, ch := c, rank := 0, toSpare := false, byCmd := false } }) ∧
      (chState c s = chVACANT → spdOf pr kn rk de gi tr = none → s.sys.inReset = false → ∃ t, exec (.drmActRestore v pr kn rk de gi tr) s = .next t ∧
        rd DRM_MIG_STAT_REASON 0 t = 4 ∧ chState c t = chVACANT ∧ rd DRM_ORG_RANKS c t = 0 ∧ evtSet 20 t = true)) ∧
    (s.dram.op = none → exec .rankMigrateDone s = .next s ∧ exec .vacateDone s = .next s ∧ ∀ a b, exec (.restoreDone a b) s = .next s) ∧
    (∀ o : DramOp, s.dram.op = some o → dramHeld s = false → s.dram.rankWait = [] → rdB DRM_CTL_AUTO_RANK 0 s = false → o.ch < 2 →
      (o.kind = 1 → o.toSpare = true → ∃ t, exec .rankMigrateDone s = .next t ∧ t.dram.op = none ∧ rd DRM_STAT_MIGRATING 0 t = 0 ∧
        rd DRM_STAT_SPARE_OK 0 t = 0 ∧ evtSet 197 t = true ∧
        ∀ b ∈ blocksIn (4 * o.ch + o.rank) s, blockLoc b t = frameKey (spareRank s) (blockLoc b s % 65536)) ∧
      (o.kind = 1 → o.toSpare = false → ∃ t, exec .rankMigrateDone s = .next t ∧ t.dram.op = none ∧ rd DRM_STAT_MIGRATING 0 t = 0 ∧
        evtSet 197 t = true) ∧
      (o.kind = 2 → ∃ t, exec .vacateDone s = .next t ∧ t.dram.op = none ∧ chState o.ch t = chVACANT ∧ evtSet 198 t = true ∧
        (rankFrames s ≤ 65536 → ∀ b : Nat, b < rd DRM_CAP_FRAMES 0 s → blockLoc b t / 65536 / 4 ≠ o.ch) ∧
        ∀ e : Cmd, s.host.cmds.filter (fun e => decide (e.opcode = 0x30 ∧ e.phase = .running)) = [e] → e.aux = o.ch →
          cplOf e 0 0 0 ∈ t.host.cplWait) ∧
      (∀ er ew : Fin 65, o.kind = 3 →
        (er.val < 20 → ∃ t, exec (.restoreDone er ew) s = .next t ∧ t.dram.op = none ∧ chState o.ch t = chABSENT ∧
          rd DRM_TRAIN_TRAIN_ERR o.ch t = 1 ∧ evtSet 203 t = true ∧
          ∀ e : Cmd, s.host.cmds.filter (fun e => decide (e.opcode = 0x31 ∧ e.phase = .running)) = [e] → e.aux = o.ch →
            cplOf e 0x16 0 0 ∈ t.host.cplWait) ∧
        (20 ≤ er.val → 20 ≤ ew.val → ∃ t, exec (.restoreDone er ew) s = .next t ∧ t.dram.op = none ∧ chState o.ch t = chSERVING ∧
          rd DRM_TRAIN_EYE_R o.ch t = er ∧ rd DRM_TRAIN_EYE_W o.ch t = ew ∧ evtSet 199 t = true))) ∧
    (∀ r : Fin 8, s.sys.inReset = false → DRM_REGION_CTL_EN.ofQ v = 1 → rd DRM_REGION_CTL_EN r s = 1 →
      (rd DRM_STAT_FILL_BUSY 0 s = 0 → s.dram.op = none → weaving s = false → ∃ t, exec (.regionFillGo r v) s = .next t ∧
        rd DRM_REGION_CTL_STATE r t = rgFILLING ∧ rd DRM_STAT_FILL_BUSY 0 t = 1 ∧
        s.framed t [] [DRM_REGION_CTL_FILL.key r, DRM_REGION_CTL_KEEP.key r, DRM_REGION_CTL_STATE.key r, DRM_STAT_FILL_BUSY.key 0]) ∧
      (rd DRM_STAT_FILL_BUSY 0 s = 1 → ∃ t, exec (.regionFillGo r v) s = .next t ∧ evtSet 20 t = true ∧
        rd DRM_REGION_CTL_STATE r t = rd DRM_REGION_CTL_STATE r s)) ∧
    (∀ r : Nat, r < 8 → (∀ q : Nat, q < 8 → (rd DRM_REGION_CTL_STATE q s = rgFILLING ↔ q = r)) → dramHeld s = false → s.dram.remap = [] →
      s.dram.fillKeep = [] → ∃ t, exec .regionFillDone s = .next t ∧ rd DRM_REGION_CTL_STATE r t = rgFILLED ∧ rd DRM_STAT_FILL_BUSY 0 t = 0 ∧
      evtSet 202 t = true ∧ (∀ sb : Nat, rd DRM_REGION_BASE r s ≤ sb / 16384 → sb / 16384 ≤ rd DRM_REGION_LIMIT r s →
        blockLoc (sb / 16384) s < lostLoc → dramRaw sb t = bareBurst) ∧
      s.framed t (.dram :: evtParts) [DRM_REGION_CTL_STATE.key r, DRM_STAT_FILL_BUSY.key 0, evtKey 202])

/-- R393, R402, R403, R415: the mover takes a request whose items are right, refuses one without the marker, copies its words and answers
with a reply item; a replay window is enabled when its settings pass the check, and keeps its fields while it is enabled. What the spec
leaves open in it is the model's choice: log entries 35 and 36. -/
def Obligations.MoverAndWindows : Prop :=
  ∀ (s : State),
    (s.dram.move.isSome = true → exec .moveRequest s = .next s) ∧
    (∀ (q d0 d1 d2 : Nat) (i0 i1 i2 : QItem) (r : List QItem), s.dram.move = none → dramHeld s = false → s.dram.turn = false →
      q = moveQueue 0 s → s.dram.skip = [] → (queueOf q s).items = i0 :: i1 :: i2 :: r → (∀ i ∈ [i0, i1, i2], i.linkBad = false) →
      decodeWord i0.word = .clean d0 → decodeWord i1.word = .clean d1 → decodeWord i2.word = .clean d2 →
      (moveMarker d0 = true → moveAllowed (d1 % 2 ^ 38) (6 * (d0 % 2 ^ 17 + 1)) s = true → 0x1600000 ≤ d2 →
        d2 + (d0 % 2 ^ 17 + 1) ≤ 0x1800000 → d1 < 2 ^ 38 → ∃ t, exec .moveRequest s = .next t ∧
        t.dram = { s.dram with turn := true, move := some { dir := bitOf d0 47, reply := slice d0 39 8, tag := slice d0 23 16, len := d0 % 2 ^ 17 + 1, addr := d1, word := d2 } } ∧
        (queueOf q t).items = r ∧ rd DRM_STAT_MOVE_BUSY 0 t = 1 ∧ s.framed t [.dram, .queues, .warp] [DRM_STAT_MOVE_BUSY.key 0]) ∧
      (moveMarker d0 = false → ∃ t, exec .moveRequest s = .next t ∧ q ∈ t.dram.skip ∧ (slice d0 39 8 < 64 → t.dram.move = none) ∧
        (∀ m : Move, t.dram.move = some m → m.refused = true ∧ m.reply = slice d0 39 8 ∧ m.tag = slice d0 23 16) ∧ evtSet 20 t = true ∧
        rd DRM_MOVE_REFUSED 0 t = satU DRM_MOVE_REFUSED.width (rd DRM_MOVE_REFUSED 0 s + 1))) ∧
    (s.dram.move = none → exec .moveDone s = .next s) ∧
    (∀ m : Move, s.dram.move = some m →
      (64 ≤ m.reply → qRoom m.reply s = 0 → exec .moveDone s = .next s) ∧
      (m.reply < 64 ∨ 0 < qRoom m.reply s → ∃ t, exec .moveDone s = .next t ∧ t.dram.move = none ∧ rd DRM_STAT_MOVE_BUSY 0 t = 0 ∧
        (m.refused = false → rd DRM_MOVE_REQUESTS 0 t = satU DRM_MOVE_REQUESTS.width (rd DRM_MOVE_REQUESTS 0 s + 1)) ∧
        (m.refused = true → rd DRM_MOVE_REQUESTS 0 t = rd DRM_MOVE_REQUESTS 0 s ∧ t.dram = { s.dram with move := none })) ∧
      (m.reply < 64 → m.refused = false → m.dir = false → 0x1600000 ≤ m.word → m.word + m.len ≤ 0x1800000 → s.warp.rowMap = [] → s.warp.fill = none → s.warp.repair = none →
        rdB WRP_INJ_ADDR_ARM 0 s = false →
        (∀ sb : Nat, m.addr / 64 ≤ sb → sb ≤ (m.addr + 6 * m.len) / 64 → decodeBurst (dramRaw sb s) = .clean) → ∃ t,
        exec .moveDone s = .next t ∧ t.dram = { s.dram with move := none } ∧
        (∀ i : Nat, i < m.len → warpStored (m.word + i) t = encodeWord (leNum ((List.range 6).map (fun k =>
          (dataBytes (dramRaw ((m.addr + 6 * i + k) / 64) s)).getD ((m.addr + 6 * i + k) % 64) 0)))) ∧
        (∀ a : Nat, a < m.word ∨ m.word + m.len ≤ a → warpStored a t = warpStored a s) ∧
        s.framed t [.dram, .warp] [DRM_STAT_MOVE_BUSY.key 0, DRM_MOVE_REQUESTS.key 0])) ∧
    (∀ (w : Fin 4) (v : Qword), s.sys.inReset = false →
      (rd DRM_RPL_EN w s = 0 → DRM_RPL_EN.ofQ v = 0 → ∃ t, exec (.drmRplWrite w v) s = .next t ∧ rd DRM_RPL_PORT w t = DRM_RPL_PORT.ofQ v ∧
        rd DRM_RPL_CELLS w t = DRM_RPL_CELLS.ofQ v ∧ rd DRM_RPL_FIRST w t = DRM_RPL_FIRST.ofQ v ∧
        s.framed t [] [DRM_RPL_PORT.key w, DRM_RPL_CELLS.key w, DRM_RPL_FIRST.key w, DRM_RPL_STAT_SLOT_BYTES.key w]) ∧
      ((∀ f ∈ [DRM_RPL_PORT, DRM_RPL_CELLS, DRM_RPL_FIRST], f.ofQ v = rd f w s) →
        (rd DRM_RPL_EN w s = 0 → DRM_RPL_EN.ofQ v = 1 → rplValid w s = true → ∃ t, exec (.drmRplWrite w v) s = .next t ∧
          rd DRM_RPL_EN w t = 1 ∧ s.framed t [.dram] [DRM_RPL_EN.key w, DRM_RPL_PORT.key w, DRM_RPL_CELLS.key w, DRM_RPL_FIRST.key w,
            DRM_RPL_STAT_SLOT_BYTES.key w]) ∧
        (rd DRM_RPL_EN w s = 0 → DRM_RPL_EN.ofQ v = 1 → rplValid w s = false → ∃ t, exec (.drmRplWrite w v) s = .next t ∧
          rd DRM_RPL_EN w t = 0 ∧ evtSet 20 t = true) ∧
        (rd DRM_RPL_EN w s = 1 → DRM_RPL_EN.ofQ v = 0 → ∃ t, exec (.drmRplWrite w v) s = .next t ∧ rd DRM_RPL_EN w t = 0 ∧
          s.framed t [] [DRM_RPL_EN.key w])) ∧
      (rd DRM_RPL_EN w s = 1 → DRM_RPL_EN.ofQ v = 1 → DRM_RPL_CELLS.ofQ v ≠ rd DRM_RPL_CELLS w s → ∃ t,
        exec (.drmRplWrite w v) s = .next t ∧ evtSet 20 t = true ∧ s.framed t recParts logKeys))

/-! ### Source drive and lines -/

/-- R421 to R423, R434 to R436: a channel's settings are staged or come into force, and its fade starts; its mode changes only at 0 mA and
leaves FAULT by MODE 00 and a further write; a fade's next update is made; a measurement is taken, and two consecutive findings of one
kind fault the channel; a due proof pulse is driven, counted and checked. What the spec leaves open in it is the model's choice: log
entries 6, 57, 90 and 91. -/
def Obligations.SourceChannels : Prop :=
  ∀ (s : State) (c : Fin 8) (v : Qword),
    (weaving s = true → setPrepared s = false → s.sys.inReset = false → ∃ t, exec (.srcCurWrite c v) s = .next t ∧
      (∀ f ∈ SRC_CUR.fields, rd f c t = f.ofQ v) ∧ s.framed t [] (SRC_CUR.fields.map (fun f => f.key c))) ∧
    (weaving s = true → setPrepared s = true → s.sys.inReset = false → ∃ t, exec (.srcCurWrite c v) s = .next t ∧
      t.trd = { s.trd with held := s.trd.held ++ SRC_CUR.fields.map (fun f => .fld (f.key c) (f.rst c) (f.ofQ v % 2 ^ f.width)) } ∧
      s.framed t [.trd] []) ∧
    (weaving s = false → rd SRC_CUR_STAT_STATE c s < 2 → s.sys.inReset = false → ∃ t, exec (.srcCurWrite c v) s = .next t ∧
      (∀ f ∈ SRC_CUR.fields, rd f c t = f.ofQ v ∧ rdI f c t = f.ofQ v) ∧ rd SRC_CUR_STAT_FADING c t = 1 ∧
      (chanOf c t).fade = some { start := rd SRC_CUR_STAT_PRESENT c s, target := minN 60000 (SRC_CUR_SET.ofQ v), shape := decide (SRC_CUR_SHAPE.ofQ v = 1), tf := clampN 1 6000000 (SRC_CUR_FADE.ofQ v) * 10, at_ := s.now, step := 1 } ∧
      (∀ d : Nat, d ≠ c → chanOf d t = chanOf d s) ∧ (∀ f : Fade, (chanOf c t).fade = some f → rd SRC_CUR_STAT_PRESENT c t = fadeValue f 0 % 2 ^ 16) ∧
      s.framed t [.inf, .src] (SRC_CUR_STAT_FADING.key c :: SRC_CUR_STAT_PRESENT.key c :: SRC_CUR.fields.map (fun f => f.key c))) ∧
    (weaving s = false → rd SRC_CUR_STAT_STATE c s = 2 ∨ rd SRC_CUR_STAT_STATE c s = 3 → s.sys.inReset = false → ∃ t, exec (.srcCurWrite c v) s = .next t ∧
      (∀ f ∈ SRC_CUR.fields, rd f c t = f.ofQ v ∧ rdI f c t = f.ofQ v) ∧ s.framed t [.inf] (SRC_CUR.fields.map (fun f => f.key c))) ∧
    (∀ m : Nat, m = SRC_CUR_MODE_MODE.ofQ v →
      (m = rd SRC_CUR_MODE_MODE c s → s.sys.inReset = false → ∃ t, exec (.srcCurModeWrite c v) s = .next t ∧ (∀ f ∈ SRC_CUR_MODE.fields, rd f c t = f.ofQ v) ∧
        s.framed t [] (SRC_CUR_MODE.fields.map (fun f => f.key c))) ∧
      (m ≠ rd SRC_CUR_MODE_MODE c s → rd SRC_CUR_STAT_PRESENT c s ≠ 0 → s.sys.inReset = false → ∃ t, exec (.srcCurModeWrite c v) s = .next t ∧
        rd SRC_CUR_MODE_MODE c t = rd SRC_CUR_MODE_MODE c s % 4 ∧ evtSet 20 t = true ∧
        s.framed t recParts (SRC_CUR_MODE.fields.map (fun f => f.key c) ++ logKeys)) ∧
      (m ≠ rd SRC_CUR_MODE_MODE c s → rd SRC_CUR_STAT_PRESENT c s = 0 →
        (chanFault c s = false → s.sys.inReset = false → ∃ t, exec (.srcCurModeWrite c v) s = .next t ∧ rd SRC_CUR_MODE_MODE c t = m ∧
          rd SRC_CUR_STAT_STATE c t = (if m = 0 ∨ m = 3 then 0 else if permitted s then 1 else 3) ∧
          chanOf c t = { chanOf c s with onEnd := none, proofAt := none, on := none, fade := if m = 0 ∨ m = 3 ∨ permitted s = true then (chanOf c s).fade else none } ∧
          rd SRC_CUR_STAT_PROOF_OFF c t = 0 ∧ rd SRC_CUR_STAT_PRESENT c t = 0 ∧
          s.framed t [.src] (SRC_CUR_STAT_STATE.key c :: SRC_CUR_STAT_PROOF_OFF.key c :: SRC_CUR_STAT_FADING.key c ::
            SRC_CUR_MODE.fields.map (fun f => f.key c))) ∧
        (chanFault c s = true → m = 0 → s.sys.inReset = false → ∃ t, exec (.srcCurModeWrite c v) s = .next t ∧ rd SRC_CUR_MODE_MODE c t = 0 ∧
          rd SRC_CUR_STAT_STATE c t = 2 ∧ chanOf c t = { chanOf c s with cleared := true } ∧
          s.framed t [.src] (SRC_CUR_MODE.fields.map (fun f => f.key c))) ∧
        (chanFault c s = true → m ≠ 0 → (chanOf c s).cleared = true → s.sys.inReset = false → ∃ t, exec (.srcCurModeWrite c v) s = .next t ∧
          rd SRC_CUR_STAT_STATE c t = (if m = 3 then 0 else if permitted s then 1 else 3) ∧ (chanOf c t).cleared = false ∧
          (chanOf c t).onEnd = none ∧ (chanOf c t).proofAt = none ∧ rd SRC_CUR_STAT_PROOF_OFF c t = 0 ∧
          s.framed t [.src] (SRC_CUR_STAT_STATE.key c :: SRC_CUR_STAT_PROOF_OFF.key c :: SRC_CUR_STAT_FADING.key c ::
            SRC_CUR_MODE.fields.map (fun f => f.key c))))) ∧
    ((chanOf c s).fade = none → exec (.fadeStep c) s = .next s) ∧
    (∀ f : Fade, (chanOf c s).fade = some f →
      (f.step < f.tf → ∃ t, exec (.fadeStep c) s = .next t ∧ rd SRC_CUR_STAT_PRESENT c t = fadeValue f f.step % 2 ^ 16 ∧
        t.now = maxN s.now (f.at_ + f.step * 1000) ∧ chanOf c t = { chanOf c s with fade := some { f with step := f.step + 1 } } ∧
        s.framed t [.now, .src] [SRC_CUR_STAT_PRESENT.key c]) ∧
      (f.step = f.tf → f.target < 65536 → ∃ t, exec (.fadeStep c) s = .next t ∧ rd SRC_CUR_STAT_PRESENT c t = f.target ∧
        rd SRC_CUR_STAT_FADING c t = 0 ∧ chanOf c t = { chanOf c s with fade := none } ∧ evtSet 212 t = true ∧
        s.framed t (.now :: .src :: evtParts) [SRC_CUR_STAT_PRESENT.key c, SRC_CUR_STAT_FADING.key c, evtKey 212])) ∧
    (∀ (vc cu : Fin 65536) (k : Nat), chanMode c s = 1 → 400 ≤ rd SRC_CUR_STAT_PRESENT c s →
      k = chanFinding vc cu (rd SRC_CUR_STAT_PRESENT c s) →
      (k = 0 ∨ k ≠ (chanOf c s).lastKind → ∃ t, exec (.currentMeasure c vc cu) s = .next t ∧ rd SRC_CUR_STAT_VCOMP c t = vc ∧
        t.now = maxN s.now (measureAt c s) ∧ chanOf c t = { chanOf c s with lastKind := k, measured := measureAt c s } ∧
        s.framed t [.now, .src] [SRC_CUR_STAT_VCOMP.key c]) ∧
      (k ≠ 0 → k = (chanOf c s).lastKind → ∃ t, exec (.currentMeasure c vc cu) s = .next t ∧ chanFault c t = true ∧
        rd SRC_CUR_STAT_PRESENT c t = 0 ∧ rd (if k = 2 then SRC_CUR_STAT_SHORT else SRC_CUR_STAT_OPEN) c t = 1 ∧
        evtSet 211 t = true ∧ s.framed t (.now :: .src :: recParts) (SRC_CUR_STAT_VCOMP.key c :: SRC_CUR_STAT_SHORT.key c :: SRC_CUR_STAT_OPEN.key c ::
          SRC_CUR_STAT_FADING.key c :: SRC_CUR_STAT_PRESENT.key c :: SRC_CUR_STAT_STATE.key c :: evtKey 211 :: recKeys))) ∧
    (∀ (vc cu : Fin 65536), chanMode c s = 0 → (chanOf c s).onEnd = none → exec (.currentMeasure c vc cu) s = .next s) ∧
    (∀ (vc cu : Fin 65536) (u : Nat), chanMode c s = 2 → (chanOf c s).onEnd = some u → ∃ t, exec (.currentMeasure c vc cu) s = .next t ∧
      (chanOf c t).onEnd = none ∧ t.now = maxN s.now u ∧ rd SRC_CUR_STAT_VCOMP c t = vc) ∧
    (∀ (vc cu : Fin 65536), ((chanOf c s).proofAt = none → exec (.proofPulse c vc cu) s = .next s) ∧
      ((chanOf c s).proofAt ≠ none → chanMode c s ≠ 2 → ∃ t, exec (.proofPulse c vc cu) s = .next t ∧
        chanOf c t = { chanOf c s with proofAt := none } ∧ s.framed t [.src] []) ∧
      (∀ u : Nat, (chanOf c s).proofAt = some u → chanMode c s = 2 → ∃ t, exec (.proofPulse c vc cu) s = .next t ∧ (chanOf c t).proofAt = none ∧
        t.now = maxN s.now (u + 5000) ∧ .pulse c (rd SRC_CUR_MODE_PROOF_I c s) ∈ t.out ∧ rd SRC_CUR_STAT_VCOMP c t = vc ∧
        rd SRC_CNT_PROOFS 0 t = satU SRC_CNT_PROOFS.width (rd SRC_CNT_PROOFS 0 s + 1)))

/-- R425, R426, R431, R432, R437, R438, R441: the interlock takes permission away and does not give it back; PERMIT gives it in IDLE and
WEAVING; the heartbeat toggles every 500 µs; blanking ends; a launch window without a stamp counts as missing, the last allowed one in
a row as a fault; a bus frame ends acknowledged, in a status frame, repeated or failed; SRC_LINE_DATA reads and writes the addressed
word. What the spec leaves open in it is the model's choice: log entries 6 and 80. -/
def Obligations.SourcePermissionAndBus : Prop :=
  ∀ (s : State) (v : Qword) (p : Fin 16),
    (rdB SRC_CTL_PERMIT 0 s = false → ∃ t, exec .intlkNLow s = .next t ∧ t.src.intlkLow = true ∧
      (∀ c : Nat, c < 8 → rd SRC_CUR_STAT_PRESENT c t = 0 ∧ rd SRC_CUR_STAT_FADING c t = 0 ∧ (chanOf c t).fade = none) ∧
      (tapHolds s = false → t.out = s.out) ∧
      s.framed t [.src, .out] ((List.range 8).flatMap (fun c => [SRC_CUR_STAT_PRESENT.key c, SRC_CUR_STAT_FADING.key c]))) ∧
    (rdB SRC_CTL_PERMIT 0 s = true → ∃ t, exec .intlkNLow s = .next t ∧ t.src.intlkLow = true ∧ rd SRC_CTL_PERMIT 0 t = 0 ∧
      permitted t = false ∧ rd SRC_STAT_INTLK_SEEN 0 t = 1 ∧ evtSet 209 t = true ∧
      (∀ c : Nat, c < 8 → rd SRC_CUR_STAT_PRESENT c t = 0 ∧ rd SRC_CUR_STAT_FADING c t = 0 ∧
        (permitted s = true → chanMode c s ≠ 0 → chanFault c s = false → rd SRC_CUR_STAT_STATE c t = 3))) ∧
    (∃ t, exec .intlkNHigh s = .next t ∧ t.src = { s.src with intlkLow := false } ∧ (tapHolds s = false → t.out = s.out) ∧
      s.framed t [.src, .out] []) ∧
    (s.src.intlkLow = true → rd SRC_CTL_PERMIT 0 s = 0 → s.sys.inReset = false → ∃ t, exec (.permitWrite v) s = .next t ∧ rd SRC_CTL_PERMIT 0 t = 0 ∧
      evtSet 20 t = true ∧ s.framed t recParts (SRC_CTL.fields.map (fun f => f.key 0) ++ proofKeys ++ logKeys)) ∧
    (s.src.intlkLow = false → devState s = stIDLE ∨ devState s = stWEAVING →
      (permitted s = true → s.sys.inReset = false → ∃ t, exec (.permitWrite v) s = .next t ∧ rd SRC_CTL_PERMIT 0 t = 1 ∧
        (∀ f ∈ SRC_CTL.fields, f.key 0 ≠ SRC_CTL_PERMIT.key 0 → rd f 0 t = f.ofQ v) ∧
        (rd SRC_CTL_PROOF_EN 0 t = 0 → ∀ c : Nat, c < 8 → rd SRC_CUR_STAT_PROOF_OFF c t = 0) ∧
        s.framed t [] (SRC_CTL.fields.map (fun f => f.key 0) ++ proofKeys)) ∧
      (permitted s = false → s.sys.inReset = false → ∃ t, exec (.permitWrite v) s = .next t ∧ rd SRC_CTL_PERMIT 0 t = 1 ∧ permitted t = true ∧
        rd SRC_STAT_HBEAT_RUN 0 t = 1 ∧ evtSet 210 t = true ∧ t.src.hbeatAt = s.now ∧ (∀ q : Nat, q < 16 → isBlanked q t = true) ∧
        ∀ c : Nat, c < 8 → chanMode c s ≠ 0 → chanFault c s = false → rd SRC_CUR_STAT_STATE c t = 1 ∧
          rd SRC_CUR_STAT_PRESENT c t = (if rdI SRC_CUR_SHAPE c s = 1 then 1 else 0) ∧ rd SRC_CUR_STAT_FADING c t = 1)) ∧
    (permitted s = false → exec .hbeatToggle s = .next s) ∧
    (permitted s = true → ∃ t, exec .hbeatToggle s = .next t ∧ t.now = maxN s.now (s.src.hbeatAt + 500000) ∧
      t.src = { s.src with hbeat := !s.src.hbeat, hbeatAt := s.src.hbeatAt + 500000 } ∧ s.framed t [.now, .src] []) ∧
    (s.src.blankUntil.get 0 p = 0 → exec (.blankEnd p) s = .next s) ∧
    (s.src.blankUntil.get 0 p ≠ 0 → ∃ t, exec (.blankEnd p) s = .next t ∧ t.now = maxN s.now (s.src.blankUntil.get 0 p) ∧
      t.src.blankUntil.get 0 p = 0 ∧ s.framed t [.now, .src] []) ∧
    (windowDue p s = none → exec (.launchWindowEnd p) s = .next s) ∧
    (∀ (x : PickCtx) (y : PortPick), windowDue p s = some (x, y) →
      (rdB SRC_LAUNCH_MON_EN p s = false → ∃ t, exec (.launchWindowEnd p) s = .next t ∧ t.now = maxN s.now (windowDecided y s) ∧
        s.framed t [.now, .trd] []) ∧
      (rdB SRC_LAUNCH_MON_EN p s = true →
        rd SRC_MON_RUN p s < rd SRC_CTL_MISS_M1 0 s ∨ rd SRC_CTL_MISS_M1 0 s < rd SRC_MON_RUN p s ∧ rd PRT_STAT_STAMP_FAULT p s = 1 → ∃ t, exec (.launchWindowEnd p) s = .next t ∧
        rd SRC_MON_MISSED p t = satU SRC_MON_MISSED.width (rd SRC_MON_MISSED p s + 1) ∧ rd SRC_MON_RUN p t = minN (rd SRC_MON_RUN p s + 1) 16 ∧
        s.framed t [.now, .trd] [SRC_MON_MISSED.key p, SRC_MON_RUN.key p]) ∧
      (rdB SRC_LAUNCH_MON_EN p s = true →
        rd SRC_MON_RUN p s = rd SRC_CTL_MISS_M1 0 s ∨ rd SRC_CTL_MISS_M1 0 s < rd SRC_MON_RUN p s ∧ rd PRT_STAT_STAMP_FAULT p s = 0 → ∃ t, exec (.launchWindowEnd p) s = .next t ∧
        rd PRT_STAT_STAMP_FAULT p t = 1 ∧ evtSet 208 t = true ∧ (portSt p s = pRUNNING → portSt p t = pFAULTED))) ∧
    (∀ miso : List Byte, (s.src.bus = none → exec (.busFrameDone miso) s = .next s) ∧
      (∀ x : Xfer, s.src.bus = some x →
        (x.status = false → x.ack = 2 → ∃ (t : State) (y : Xfer), exec (.busFrameDone miso) s = .next t ∧ t.now = maxN s.now x.due ∧
          t.src = { s.src with bus := some y } ∧ y.status = true ∧ y.kind = x.kind ∧ y.attempts = x.attempts ∧
          y.due = t.now + frameCc 2 s ∧ y.mask = rd SRC_CS_ACK_MASK x.cs s ∧ y.val = rd SRC_CS_ACK_VAL x.cs s ∧
          t.out = .busFrame x.cs (rd SRC_CS_SPI_MODE x.cs s) [BitVec.ofNat 8 (rd SRC_CS_ACK_CMD x.cs s), 0#8] :: s.out ∧
          s.framed t [.now, .src, .out] []) ∧
        (x.status = true ∨ x.ack ≠ 2 → frameAcked x miso = true → s.src.loWait = [] → s.src.swWait = [] →
          ∃ t, exec (.busFrameDone miso) s = .next t ∧ t.now = maxN s.now x.due ∧ t.src.bus = none ∧
          (∀ e : Nat, x.kind = .lo e → t.src.loDone = some e) ∧
          (∀ q : Nat, x.kind = .restore q → t.src.swLast.get 0 q = 0 ∧ q ∉ t.src.swFailed) ∧ s.framed t [.now, .src] []) ∧
        (x.status = true ∨ x.ack ≠ 2 → frameAcked x miso = false → x.attempts < x.retries →
          ∃ (t : State) (y : Xfer), exec (.busFrameDone miso) s = .next t ∧ t.now = maxN s.now x.due ∧ t.src = { s.src with bus := some y } ∧
          y.attempts = x.attempts + 1 ∧ y.status = false ∧ y.kind = x.kind ∧ y.data = x.data ∧ s.framed t [.now, .src, .out] []) ∧
        (x.status = true ∨ x.ack ≠ 2 → frameAcked x miso = false → x.retries ≤ x.attempts → s.src.loWait = [] →
          s.src.swWait = [] → ∃ t, exec (.busFrameDone miso) s = .next t ∧ t.now = maxN s.now x.due ∧ t.src.bus = none ∧ evtSet 213 t = true ∧
          rd SRC_CNT_NAKS 0 t = satU SRC_CNT_NAKS.width (rd SRC_CNT_NAKS 0 s + 1) ∧
          (∀ e : Nat, x.kind = .lo e → t.src.loSent = none ∧ t.src.loFailed = some e) ∧
          (∀ q : Nat, x.kind = .preset q → q ∈ t.src.presetNak) ∧ (∀ q : Nat, x.kind = .restore q → q ∈ t.src.swFailed) ∧
          s.framed t (.now :: .src :: recParts) (SRC_CNT_NAKS.key 0 :: evtKey 213 :: recKeys)))) ∧
    (∀ j b : Nat, j = rd SRC_LINE_ADDR_LINE 0 s → b = rd SRC_LINE_ADDR_WORD 0 s → b < 2 →
      (s.sys.inReset = false → ∃ t, exec (.srcLineDataAccess none) s = .next t ∧ t.out = .readData (BitVec.ofNat 64 (s.src.sw.get 0 (2 * j + b))) :: s.out ∧
        rd SRC_LINE_ADDR_LINE 0 t = (2 * j + b + 1) / 2 % 128 ∧ rd SRC_LINE_ADDR_WORD 0 t = (b + 1) % 2 ∧
        s.framed t [.out] [SRC_LINE_ADDR_LINE.key 0, SRC_LINE_ADDR_WORD.key 0]) ∧
      (swWritable j s = true → s.sys.inReset = false → ∃ t, exec (.srcLineDataAccess (some v)) s = .next t ∧
        t.src.sw.get 0 (2 * j + b) = (if b = 0 then slice v.toNat 25 7 * 2 ^ 25 else v.toNat % 2 ^ 48) ∧
        (∀ k : Nat, k ≠ 2 * j + b → t.src.sw.get 0 k = s.src.sw.get 0 k) ∧ rd SRC_LINE_ADDR_WORD 0 t = (b + 1) % 2 ∧
        s.framed t [.src] [SRC_LINE_ADDR_LINE.key 0, SRC_LINE_ADDR_WORD.key 0]) ∧
      (swWritable j s = false → s.sys.inReset = false → ∃ t, exec (.srcLineDataAccess (some v)) s = .next t ∧ t.src = s.src ∧ evtSet 20 t = true ∧
        s.framed t recParts (SRC_LINE_ADDR_LINE.key 0 :: SRC_LINE_ADDR_WORD.key 0 :: logKeys)))

/-! ### Timestamps, gates and the time of day -/

/-- R449 to R452, R456 to R458, R432, R433, R453, R465: an edge that an input does not stamp changes nothing, one in the dead time is
counted, any other is stamped and, for a delivered input, waits; a launch monitor's stamp belongs to its launch or is spurious; stamps
go to queue 58 in order or are counted as lost, and a gap is reported; the spare line takes or leaves service; TSU_MAP_DATA reads and
writes the map. What the spec leaves open in it is the model's choice: log entries 80 and 90. -/
def Obligations.Timestamps : Prop :=
  ∀ (s : State) (i : Fin 24) (k n raw u : Nat) (tap : Fin 320) (fall : Bool), n = maxN s.now k → raw = (edgeRaw i n tap s).toNat →
    u = ((raw : Int) - rdZ TSU_IN_DELAY i s).toNat →
    (onCalclk i (advanceTo k s) = true ∨ edgeWanted i fall s = false → exec (.stampEdge i k tap fall) s = .next (noteEdge i (advanceTo k s))) ∧
    (onCalclk i (advanceTo k s) = false → edgeWanted i fall s = true → s.tsu.last.get 0 i ≠ 0 → raw + 1 < s.tsu.last.get 0 i + 640 → ∃ t,
      exec (.stampEdge i k tap fall) s = .next t ∧ rd TSU_IN_CNT_DEAD i t = satU TSU_IN_CNT_DEAD.width (rd TSU_IN_CNT_DEAD i s + 1) ∧
      t.now = n ∧ t.tsu = { s.tsu with seen := s.tsu.seen.put 0 i n } ∧ s.framed t [.now, .tsu] [TSU_IN_CNT_DEAD.key i]) ∧
    (onCalclk i (advanceTo k s) = false → edgeWanted i fall s = true → s.tsu.last.get 0 i = 0 ∨ s.tsu.last.get 0 i + 640 ≤ raw + 1 →
      (17 ≤ i.val → rdB TSU_IN_DELIVER i s = false ∨ (s.tsu.stamps.filter (fun y => decide (y.input = i.val))).length < 16 → ∃ t,
        exec (.stampEdge i k tap fall) s = .next t ∧ t.now = n ∧ t.tsu.last.get 0 i = raw + 1 ∧
        t.tsu.stamps = (if rdB TSU_IN_DELIVER i s then s.tsu.stamps ++ [{ input := i, raw := u, fall := fall, edge := n }] else s.tsu.stamps) ∧
        rd TSU_IN_CNT_STAMPS i t = satU TSU_IN_CNT_STAMPS.width (rd TSU_IN_CNT_STAMPS i s + 1) ∧
        s.framed t [.now, .tsu] [TSU_IN_CNT_STAMPS.key i]) ∧
      (17 ≤ i.val → rdB TSU_IN_DELIVER i s = true → 16 ≤ (s.tsu.stamps.filter (fun y => decide (y.input = i.val))).length → ∃ t,
        exec (.stampEdge i k tap fall) s = .next t ∧ t.tsu.stamps = s.tsu.stamps ∧
        rd TSU_IN_CNT_OVER i t = satU TSU_IN_CNT_OVER.width (rd TSU_IN_CNT_OVER i s + 1) ∧ (s.tsu.overAt = none → evtSet 217 t = true)) ∧
      (i.val < 16 → s.trd.picks.any (fun x => x.ports.any (inLaunch i u)) = true → ∃ t, exec (.stampEdge i k tap fall) s = .next t ∧
        rd SRC_MON_RUN i t = 0 ∧ (∀ x ∈ t.trd.picks, ∀ y ∈ x.ports, inLaunch i u y = true → y.stamp ≠ none) ∧
        rd TSU_IN_CNT_STAMPS i t = satU TSU_IN_CNT_STAMPS.width (rd TSU_IN_CNT_STAMPS i s + 1)) ∧
      (i.val < 16 → s.trd.picks.any (fun x => x.ports.any (inLaunch i u)) = false → ∃ t, exec (.stampEdge i k tap fall) s = .next t ∧
        rd SRC_MON_SPURIOUS i t = satU SRC_MON_SPURIOUS.width (rd SRC_MON_SPURIOUS i s + 1) ∧
        (s.src.spurious.get 0 i ≠ rd SYS_PICK_NUM_NUM 0 s + 1 → evtSet 214 t = true))) ∧
    (firstStamp s.tsu.stamps = none → exec .stampDeliver s = .next s) ∧
    (∀ (x : Stamp) (w : Nat × Nat), firstStamp s.tsu.stamps = some x → s.canon = true → rdB WRP_INJ_ADDR_ARM 0 s = false → winOf x.input x.raw s = none →
      w = rawStamp x.raw x.input (16 * b2n (edgeNear x.input x.raw s) + 8 * b2n x.fall) s →
      (2 ≤ qRoom 58 s → ∃ t, exec .stampDeliver s = .next t ∧ t.now = maxN s.now (x.edge + 96) ∧ x ∉ t.tsu.stamps ∧
        (queueOf 58 t).items = insertItem (pushedItem 58 8 w.2 (pushOne 58 8 w.1 s)) (insertItem (pushedItem 58 8 w.1 s) (queueOf 58 s).items) ∧
        rd TSU_CNT_DELIVERED 0 t = satU TSU_CNT_DELIVERED.width (rd TSU_CNT_DELIVERED 0 s + 1) ∧
        s.framed t [.now, .tsu, .out, .host, .queues] (TSU_CNT_DELIVERED.key 0 :: pushKeys 58)) ∧
      (qRoom 58 s < 2 → ∃ t, exec .stampDeliver s = .next t ∧ (queueOf 58 t).items = (queueOf 58 s).items ∧
        t.tsu.lost = s.tsu.lost + 1 ∧ rd TSU_CNT_LOST 0 t = satU TSU_CNT_LOST.width (rd TSU_CNT_LOST 0 s + 1))) ∧
    (s.tsu.lossDue = [] → exec .stampLoss s = .next s) ∧
    (∀ (m : Nat) (ts : Nat × Nat) (r : List (Nat × Nat × Nat)), s.tsu.lossDue = (m, ts) :: r → ∃ t, exec .stampLoss s = .next t ∧
      t.tsu = { s.tsu with lossDue := r } ∧ evtSet 219 t = true ∧ s.framed t (.tsu :: recParts) (evtKey 219 :: recKeys)) ∧
    (s.tsu.spareNext = none → exec .spareLineChange s = .next s) ∧
    (∀ l : Nat, s.tsu.spareNext = some l → l < 32 → ∃ t, exec .spareLineChange s = .next t ∧ rd TSU_STAT_SPARE_FOR 0 t = l ∧
      t.tsu = { s.tsu with spareNext := none } ∧ evtSet 222 t = true ∧
      s.tsu.seen.get 0 (if l = 31 then rd TSU_STAT_SPARE_FOR 0 s else l) + 64 ≤ t.now ∧
      s.framed t (.now :: .tsu :: evtParts) [TSU_STAT_SPARE_FOR.key 0, evtKey 222]) ∧
    (∀ (v : Qword) (l p : Nat), l = rd TSU_MAP_ADDR_LINE 0 s → p = rd TSU_MAP_ADDR_TAP 0 s → l < 29 → p < 320 →
      (s.sys.inReset = false → ∃ t, exec (.tsuMapDataAccess none) s = .next t ∧ t.out = .readData (BitVec.ofNat 64 (s.tsu.maps.get 0 (512 * l + p))) :: s.out ∧
        rd TSU_MAP_ADDR_TAP 0 t = (if p = 319 then 0 else p + 1) ∧ s.framed t [.out] [TSU_MAP_ADDR_TAP.key 0]) ∧
      (lineServes l s = false ∨ weaving s = false → l ≠ 28 ∨ lineCalibrates 28 s = false → s.sys.inReset = false → ∃ t, exec (.tsuMapDataAccess (some v)) s = .next t ∧
        t.tsu = { s.tsu with maps := s.tsu.maps.put 0 (512 * l + p) (v.toNat % 4096) } ∧ bitOf (rd TSU_STAT_LINE_OK 0 t) l = false ∧
        (calRec 1 l t).source = 3 ∧ rd TSU_MAP_ADDR_TAP 0 t = (if p = 319 then 0 else p + 1) ∧
        s.framed t [.tsu, .cal] [TSU_STAT_LINE_OK.key 0, TSU_MAP_ADDR_TAP.key 0]) ∧
      (lineServes l s = true → weaving s = true → s.sys.inReset = false → ∃ t, exec (.tsuMapDataAccess (some v)) s = .next t ∧ t.tsu = s.tsu ∧
        evtSet 20 t = true ∧ s.framed t recParts (TSU_MAP_ADDR_TAP.key 0 :: logKeys)))

/-- R455 to R457, R460, R461: an edge opens a window of an armed gate that has none open; the window closes at an edge, at MAX_LEN or at a
write of ARM = 0 (in the cycle of its opening with zero length), which disarms a gate without CONT and raises event 220 where CLOSE_EV
asks for it. What the spec leaves open in it is the model's choice: log entries 6 and 81. -/
def Obligations.Gates : Prop :=
  ∀ (s : State) (g : Fin 4) (k n raw : Nat) (tap : Fin 320) (v : Qword), n = maxN s.now k → raw = (edgeRaw (24 + g) n tap s).toNat →
    (onCalclk (24 + g) (advanceTo k s) = true ∨ s.tsu.last.get 0 (24 + g) ≠ 0 ∧ raw + 1 < s.tsu.last.get 0 (24 + g) + 640 →
      exec (.gateOpen g k tap) s = .next (noteEdge (24 + g) (advanceTo k s)) ∧
      (onCalclk (24 + g) (advanceTo k s) = true ∨ openedNow g (advanceTo k s) = none → exec (.gateClose g k tap) s = .next (noteEdge (24 + g) (advanceTo k s)))) ∧
    (onCalclk (24 + g) (advanceTo k s) = false → s.tsu.last.get 0 (24 + g) = 0 ∨ s.tsu.last.get 0 (24 + g) + 640 ≤ raw + 1 →
      (rdB TSU_GATE_ARM g s = true → rdB TSU_GATE_STAT_OPEN g s = false → ∃ t, exec (.gateOpen g k tap) s = .next t ∧
        gateWins g t = { open_ := raw, edge := n, inputs := rd TSU_GATE_INPUTS g s, maxLen := rd TSU_GATE_MAX_LEN g s } :: gateWins g s ∧
        (∀ h : Nat, h ≠ g → gateWins h t = gateWins h s) ∧ rd TSU_GATE_STAT_OPEN g t = 1 ∧ t.now = n ∧
        s.framed t [.now, .tsu] [TSU_GATE_STAT_OPEN.key g]) ∧
      (rdB TSU_GATE_ARM g s = false ∨ rdB TSU_GATE_STAT_OPEN g s = true → ∃ t, exec (.gateOpen g k tap) s = .next t ∧
        t.tsu = { s.tsu with last := s.tsu.last.put 0 (24 + g) (raw + 1), seen := s.tsu.seen.put 0 (24 + g) n } ∧ s.framed t [.now, .tsu] []) ∧
      (rdB TSU_GATE_STAT_OPEN g s = false → openedNow g (advanceTo k s) = none → ∃ t, exec (.gateClose g k tap) s = .next t ∧
        t.tsu = { s.tsu with last := s.tsu.last.put 0 (24 + g) (raw + 1), seen := s.tsu.seen.put 0 (24 + g) n } ∧ s.framed t [.now, .tsu] [])) ∧
    (gateWins g s = [] → exec (.gateMaxLen g) s = .next s) ∧
    (rdB TSU_GATE_STAT_OPEN g s = false ∨ bitOf v.toNat 1 = true → s.sys.inReset = false → ∃ t, exec (.tsuGateWrite g v) s = .next t ∧
      (∀ f ∈ TSU_GATE.fields, rd f g t = f.ofQ v) ∧ s.framed t [] (TSU_GATE.fields.map (fun f => f.key g))) ∧
    (∀ (w : Window) (r : List Window), gateWins g s = w :: r →
      (w.close.isSome = true ∨ w.maxLen = 0 → exec (.gateMaxLen g) s = .next s) ∧
      (w.close = none → w.beyond = [] → s.tsu.stamps = [] →
        (∀ c : Nat, onCalclk (24 + g) (advanceTo k s) = false → (openedNow g (advanceTo k s) = some c ∨ openedNow g (advanceTo k s) = none ∧ c = raw ∧
            (s.tsu.last.get 0 (24 + g) = 0 ∨ s.tsu.last.get 0 (24 + g) + 640 ≤ raw + 1) ∧ rdB TSU_GATE_STAT_OPEN g s = true) → ∃ t,
          exec (.gateClose g k tap) s = .next t ∧ gateWins g t = { w with close := some c } :: r ∧ rd TSU_GATE_STAT_OPEN g t = 0 ∧
          rd TSU_GATE_STAT_WINDOWS g t = satU TSU_GATE_STAT_WINDOWS.width (rd TSU_GATE_STAT_WINDOWS g s + 1) ∧
          (rdB TSU_GATE_CONT g s = false → rd TSU_GATE_ARM g t = 0) ∧ (rdB TSU_GATE_CONT g s = true → rd TSU_GATE_ARM g t = rd TSU_GATE_ARM g s) ∧
          (rdB TSU_GATE_CLOSE_EV g s = true → evtSet 220 t = true) ∧
          s.framed t (.now :: .tsu :: evtParts) [TSU_GATE_STAT_OPEN.key g, TSU_GATE_STAT_WINDOWS.key g, TSU_GATE_ARM.key g, evtKey 220]) ∧
        (w.maxLen ≠ 0 → ∃ t, exec (.gateMaxLen g) s = .next t ∧ gateWins g t = { w with close := some (w.open_ + 256000 * w.maxLen) } :: r ∧
          rd TSU_GATE_STAT_OPEN g t = 0 ∧ rd TSU_GATE_STAT_TRUNC g t = 1 ∧ t.now = maxN s.now ((w.open_ + 256000 * w.maxLen + 255) / 256) ∧
          (rdB TSU_GATE_CONT g s = false → rd TSU_GATE_ARM g t = 0) ∧ (rdB TSU_GATE_CLOSE_EV g s = true → evtSet 220 t = true)) ∧
        (rdB TSU_GATE_STAT_OPEN g s = true → bitOf v.toNat 1 = false → s.sys.inReset = false → ∃ t, exec (.tsuGateWrite g v) s = .next t ∧
          gateWins g t = { w with close := some ((openedNow g s).getD (256 * s.now)) } :: r ∧ rd TSU_GATE_STAT_OPEN g t = 0 ∧ rd TSU_GATE_STAT_TRUNC g t = 1 ∧
          rd TSU_GATE_ARM g t = 0)))

/-- R34, R35, R37 to R42, R459: the time of day is set at once or armed; a read of SYS_TIME_HI latches the low word; a PPS edge is
recorded, and with PPS_EN accepted or rejected: an accepted one steps the time, or steers it by SLEW and FREQ, whose last bit is free,
and the fourth in a row within 100 ns locks; holdover begins 1.5 s after the last accepted edge. What the spec leaves open in it is the
model's choice: log entries 6, 82 and 98. -/
def Obligations.TimeOfDay : Prop :=
  ∀ (s : State) (sec : BitVec 40) (v : Qword),
    (s.tod.armed = none → s.sys.inReset = false → ∃ t, exec (.todArm sec) s = .next t ∧ t.tod = { s.tod with armed := some sec.toNat } ∧
      s.framed t [.tod] [SYS_TOD_SET_SEC.key 0]) ∧
    (∀ (n : Nat) (e : Cmd), s.tod.armed = some n → s.host.cmds.filter (fun e => decide (e.opcode = 0x16 ∧ e.phase = .running)) = [e] → e.aux = 1 →
      s.sys.inReset = false → ∃ t, exec (.todArm sec) s = .next t ∧ t.tod = { s.tod with armed := some sec.toNat } ∧ cplOf e 2 0 0 ∈ t.host.cplWait) ∧
    (s.tod.armed = none → s.sys.inReset = false → ∃ t, exec (.todSetImm sec) s = .next t ∧ rd SYS_DISC_STAT_VALID 0 t = 1 ∧ evtSet 6 t = true ∧
      t.tod = { s.tod with tU := ((sec.toNat * 256000000000 : Nat) : Rat), rawU := 256 * s.now, armed := none } ∧
      s.framed t (.tod :: evtParts) [SYS_TOD_SET_SEC.key 0, SYS_DISC_STAT_VALID.key 0, evtKey 6]) ∧
    (s.sys.inReset = false → ∃ t, exec .sysTimeHiRead s = .next t ∧ t.out = .readData (BitVec.ofNat 64 (nowStamp s).1) :: s.out ∧
      t.tod = { s.tod with latchedLo := (nowStamp s).2 } ∧ s.framed t [.tod, .out] []) ∧
    (bitOf v.toNat 0 = true → s.sys.inReset = false → ∃ t, exec (.discCtlWrite v) s = .next t ∧ (∀ f ∈ SYS_DISC_CTL.fields, rd f 0 t = f.ofQ v) ∧
      t.tod = (if rdB SYS_DISC_CTL_PPS_EN 0 s then s.tod else { s.tod with ppsFirst := true, lockRun := 0, lastAccept := s.now }) ∧
      s.framed t [.tod] (SYS_DISC_CTL.fields.map (fun f => f.key 0))) ∧
    (bitOf v.toNat 0 = false → s.sys.inReset = false → ∃ t, exec (.discCtlWrite v) s = .next t ∧ rd SYS_DISC_CTL_PPS_EN 0 t = 0 ∧ rd SYS_DISC_STAT_LOCKED 0 t = 0 ∧
      rd SYS_DISC_STAT_HOLDOVER 0 t = 0 ∧ t.tod.slew = 0 ∧ s.framed t [.tod] (SYS_DISC_STAT_LOCKED.key 0 :: SYS_DISC_STAT_HOLDOVER.key 0 ::
        SYS_DISC_CTL.fields.map (fun f => f.key 0))) ∧
    (rdB SYS_DISC_CTL_PPS_EN 0 s = false ∨ rdB SYS_DISC_STAT_HOLDOVER 0 s = true → exec .ppsHoldover s = .next s) ∧
    (rdB SYS_DISC_CTL_PPS_EN 0 s = true → rdB SYS_DISC_STAT_HOLDOVER 0 s = false → ∃ t, exec .ppsHoldover s = .next t ∧
      t.now = maxN s.now (s.tod.lastAccept + 1500000000) ∧ rd SYS_DISC_STAT_HOLDOVER 0 t = 1 ∧ rd SYS_DISC_STAT_LOCKED 0 t = 0 ∧
      t.tod.slew = 0 ∧ evtSet 8 t = true ∧ s.framed t (.now :: .tod :: evtParts) [SYS_DISC_STAT_HOLDOVER.key 0, SYS_DISC_STAT_LOCKED.key 0, evtKey 8]) ∧
    (∀ (k raw u : Nat) (e : Int) (tap : Fin 320), raw = (edgeRaw 16 (maxN s.now k) tap s).toNat → u = ((raw : Int) - rdZ TSU_IN_DELAY 16 s).toNat →
      e = taiOf u s - nearSecond (taiOf u s) → onCalclk 16 (advanceTo k s) = false → s.tsu.last.get 0 16 = 0 ∨ s.tsu.last.get 0 16 + 640 ≤ raw + 1 →
      (rdB SYS_DISC_CTL_PPS_EN 0 s = false → ∃ t, exec (.ppsEdge k tap) s = .next t ∧ t.tod = { s.tod with prevPps := some u } ∧
        rd TSU_IN_CNT_STAMPS 16 t = satU TSU_IN_CNT_STAMPS.width (rd TSU_IN_CNT_STAMPS 16 s + 1)) ∧
      (rdB SYS_DISC_CTL_PPS_EN 0 s = true → ppsAccept u s.tod.prevPps s = false → ∃ t, exec (.ppsEdge k tap) s = .next t ∧
        t.tod = { s.tod with prevPps := some u, ppsFirst := false } ∧ evtSet 218 t = true ∧
        rd TSU_CNT_PPS_REJECTS 0 t = satU TSU_CNT_PPS_REJECTS.width (rd TSU_CNT_PPS_REJECTS 0 s + 1)) ∧
      (∀ n : Nat, rdB SYS_DISC_CTL_PPS_EN 0 s = true → ppsAccept u s.tod.prevPps s = true → s.tod.armed = some n → s.trd.ppsWait = none → ∃ t,
        exec (.ppsEdge k tap) s = .next t ∧ t.tod.tU = ((n * 256000000000 : Nat) : Rat) ∧ t.tod.rawU = u ∧ t.tod.slew = 0 ∧ t.tod.armed = none ∧
        rd SYS_DISC_STAT_VALID 0 t = 1 ∧ rdZ SYS_DISC_STAT_PHASE_ERR 0 t = 0 ∧ evtSet 6 t = true) ∧
      (rdB SYS_DISC_CTL_PPS_EN 0 s = true → ppsAccept u s.tod.prevPps s = true → s.tod.armed = none → s.trd.ppsWait = none →
        (maxN 100 (rd SYS_DISC_CTL_STEP_THR 0 s) * 256 < e.natAbs → ∃ t, exec (.ppsEdge k tap) s = .next t ∧ rd SYS_DISC_STAT_STEPPED 0 t = 1 ∧
          t.tod.tU = (nearSecond (taiOf u s) : Rat) ∧ t.tod.rawU = u ∧ t.tod.slew = 0 ∧ t.tod.lastAccept = (u + 255) / 256 ∧ evtSet 5 t = true ∧
          rdZ SYS_DISC_STAT_PHASE_ERR 0 t = satS 32 e ∧ rd SYS_DISC_STAT_HOLDOVER 0 t = 0) ∧
        (e.natAbs ≤ maxN 100 (rd SYS_DISC_CTL_STEP_THR 0 s) * 256 → ∃ t, exec (.ppsEdge k tap) s = .next t ∧
          t.tod.slew = -(mkRat e (256000000000 * 2 ^ minN 10 (rd SYS_DISC_CTL_TC 0 s))) ∧ t.tod.rawU = u ∧ t.tod.tU = taiExact u s ∧
          rdZ SYS_DISC_STAT_PHASE_ERR 0 t = satS 32 e ∧ rd SYS_DISC_STAT_HOLDOVER 0 t = 0 ∧
          (∀ (d : Nat) (z : Int), d = 256000000000 * 4 * (2 ^ minN 10 (rd SYS_DISC_CTL_TC 0 s)) ^ 2 →
            z = (rdZ SYS_DISC_FREQ_FREQ 0 s * d - e * 2 ^ 48) / d →
            (rdZ SYS_DISC_FREQ_FREQ 0 t = clampZ (-(2 ^ 36)) (2 ^ 36) z ∨
              rdZ SYS_DISC_FREQ_FREQ 0 t = clampZ (-(2 ^ 36)) (2 ^ 36) (z + 1) ∧ z * d ≠ rdZ SYS_DISC_FREQ_FREQ 0 s * d - e * 2 ^ 48)) ∧
          (e.natAbs ≤ 25600 → t.tod.lockRun = s.tod.lockRun + 1 ∧
            (s.tod.lockRun < 3 → rd SYS_DISC_STAT_LOCKED 0 t = rd SYS_DISC_STAT_LOCKED 0 s) ∧
            (3 ≤ s.tod.lockRun → rd SYS_DISC_STAT_LOCKED 0 s = 0 → rd SYS_DISC_STAT_LOCKED 0 t = 1 ∧ evtSet 7 t = true)) ∧ (25600 < e.natAbs → rd SYS_DISC_STAT_LOCKED 0 t = 0 ∧ t.tod.lockRun = 0))))

/-! ### Anchor channels -/

/-- R470 to R481, R484, R486, R492: the table starts and stops; a delay ends in the first conversion, a conversion in its record and the
channel's anchor quad, a check in its verdict; a trip breaks a channel; a channel without a valid conversion is marked stale. What the
spec leaves open in it is the model's choice: log entries 6 and 83. -/
def Obligations.AnchorChannels : Prop :=
  ∀ (s : State) (v : Qword),
    (bitOf v.toNat 0 = true → ancTable s = ancSTOPPED → devState s = stIDLE ∨ devState s = stWEAVING ∨ devState s = stFAULT → s.sys.inReset = false → ∃ t, exec (.ancEnWrite v) s = .next t ∧
      ancTable t = ancRUNNING ∧ rd ANC_STAT_ENTRY 0 t = 0 ∧ t.anc.phase = .delay ∧ t.anc.word = s.anc.tbl.get 0 0 ∧ t.anc.startAt = s.now ∧
      t.anc.since = s.now ∧ s.framed t [.anc] ([ANC_STAT_TABLE.key 0, ANC_STAT_ENTRY.key 0, ANC_STAT_START_PENDING.key 0] ++
        ANC_CTL.fields.map (fun f => f.key 0))) ∧
    (bitOf v.toNat 0 = true → ancTable s = ancCLOSING → s.sys.inReset = false → ∃ t, exec (.ancEnWrite v) s = .next t ∧ rd ANC_STAT_START_PENDING 0 t = 1 ∧
      ancTable t = ancCLOSING ∧ s.framed t [] (ANC_STAT_START_PENDING.key 0 :: ANC_CTL.fields.map (fun f => f.key 0))) ∧
    (bitOf v.toNat 0 = false → ancTable s = ancRUNNING →
      (s.anc.phase = .convert ∨ s.anc.phase = .check → s.sys.inReset = false → ∃ t, exec (.ancEnWrite v) s = .next t ∧ ancTable t = ancCLOSING ∧
        s.framed t [] (ANC_STAT_TABLE.key 0 :: ANC_CTL.fields.map (fun f => f.key 0))) ∧
      (s.anc.phase = .delay → rdB ANC_STAT_START_PENDING 0 s = false → s.sys.inReset = false → ∃ t, exec (.ancEnWrite v) s = .next t ∧ ancTable t = ancSTOPPED ∧
        t.anc = { s.anc with phase := .idle } ∧ s.framed t [.anc] (ANC_STAT_TABLE.key 0 :: ANC_CTL.fields.map (fun f => f.key 0)))) ∧
    (s.anc.phase ≠ .delay → exec .entryDelayEnd s = .next s) ∧ (s.anc.phase ≠ .check → ∀ z : Nat, exec (.impedanceCheckEnd z) s = .next s) ∧
    (s.anc.phase ≠ .convert → ∀ (x y z : Int) (b : Bool), exec (.conversionEnd (x, y) z b) s = .next s) ∧
    (s.anc.phase = .delay → entryCh s.anc.word < 26 → ∃ t, exec .entryDelayEnd s = .next t ∧ t.anc.phase = .convert ∧
      t.now = maxN s.now (s.anc.since + entryDelay s.anc.word) ∧ t.anc.since = t.now ∧ t.anc.left = s.anc.left ∧
      s.framed t [.now, .anc] []) ∧
    (s.anc.phase = .delay → 26 ≤ entryCh s.anc.word → s.anc.beyond = false → ancTable s = ancRUNNING → ancCalDue s = false →
      checkPick (advanceTo (s.anc.since + entryDelay s.anc.word) s) = none → ∃ t, exec .entryDelayEnd s = .next t ∧ t.anc.phase = .delay ∧
      rd ANC_STAT_ENTRY 0 t = (if rd ANC_CTL_LEN_M1 0 s ≤ rd ANC_STAT_ENTRY 0 s then 0 else (rd ANC_STAT_ENTRY 0 s + 1) % 64) ∧
      (rd ANC_CTL_LEN_M1 0 s ≤ rd ANC_STAT_ENTRY 0 s → evtSet 227 t = true)) ∧
    (∀ (v1 v2 vexc value : Int) (x : Int × Nat) (ch w item : Nat) (ts : Nat × Nat), s.anc.phase = .convert → 2 ≤ s.anc.left →
      ancTable s = ancRUNNING → ch = entryCh s.anc.word → ch < 26 → x = ancVin s.anc.cfg v1 v2 →
      (ch < 16 → s.anc.cfg.getD 4 0 = 1 → vexc ≠ 0) → satS 24 value = value →
      w = rd ANC_CELL_BASE_CELL_BASE 0 s + 4 * ch → w % 4 = 0 → 0x1600000 ≤ w → w + 4 ≤ 0x1800000 → s.warp.fill = none → s.warp.rowMap = [] → s.warp.repair = none →
      rdB WRP_INJ_ADDR_ARM 0 s = false → value = (if 16 ≤ ch then v1 else if s.anc.cfg.getD 4 0 = 1 then quotRound (x.1 * 2 ^ (23 + s.anc.range)) (vexc * x.2) else quotRound (x.1 * 2 ^ (23 + s.anc.range)) ((refinUv s * 1000000 * x.2 : Nat) : Int)) →
      item = withLoss (ancQueue ch) (ancItem 0 s.anc.spoilt false ch s.anc.range (rd ANC_STAT_ENTRY 0 s) (ux 24 value)) s →
      ts = rawStamp (256 * s.anc.since + convMid ch s.anc.cfg) 24 0 s → ∃ t, exec (.conversionEnd (v1, v2) vexc false) s = .next t ∧
      t.now = maxN s.now (s.anc.since + convCc ch s.anc.cfg) ∧ t.anc.phase = .convert ∧ t.anc.left = s.anc.left - 1 ∧
      warpStored w t = encodeWord (ux 48 (if ch < 16 then ancEng ch s.anc.range value s else value)) ∧ warpStored (w + 1) t = encodeWord item ∧
      warpStored (w + 2) t = encodeWord ts.1 ∧ warpStored (w + 3) t = encodeWord ts.2 ∧
      (∀ a : Nat, a < w ∨ w + 4 ≤ a → inPool a = false → warpStored a t = warpStored a s) ∧
      rd ANC_CNT_CONVERSIONS 0 t = satU ANC_CNT_CONVERSIONS.width (rd ANC_CNT_CONVERSIONS 0 s + 1)) ∧
    (∀ (z ch : Nat), s.anc.phase = .check → ch = s.anc.checkCh → ch < 16 →
      (rd ANC_CH_CFG_ZMIN ch s ≤ minN z 65535 → minN z 65535 ≤ rd ANC_CH_CFG_ZMAX ch s → s.anc.tripped = false → ∃ t,
        exec (.impedanceCheckEnd z) s = .next t ∧ ancChState ch t = chVALID ∧ rd ANC_CH_STAT_LAST_Z ch t = minN z 65535 ∧
        rd ANC_STAT_CHECKING 0 t = 0 ∧ t.now = maxN s.now (s.anc.since + 20000000) ∧ (s.anc.wasBroken = true → evtSet 225 t = true)) ∧
      (minN z 65535 < rd ANC_CH_CFG_ZMIN ch s ∨ rd ANC_CH_CFG_ZMAX ch s < minN z 65535 ∨ s.anc.tripped = true → ∃ t,
        exec (.impedanceCheckEnd z) s = .next t ∧ ancChState ch t = chBROKEN ∧ rd ANC_CH_STAT_LAST_Z ch t = minN z 65535 ∧
        rd ANC_STAT_CHECKING 0 t = 0 ∧ (s.anc.wasBroken = false → evtSet 224 t = true ∧
          rd ANC_CH_STAT_BREAKS ch t = satU ANC_CH_STAT_BREAKS.width (rd ANC_CH_STAT_BREAKS ch s + 1) ∧
          rd ANC_CH_STAT_CHK_FAILS ch t = satU ANC_CH_STAT_CHK_FAILS.width (rd ANC_CH_STAT_CHK_FAILS ch s + 1)))) ∧
    (∀ (ch : Fin 16) (c lo hi : Nat), lo = (chInForce ch s).getD 5 0 * 100 → hi = (chInForce ch s).getD 6 0 * 500 →
      (lo ≤ c → c ≤ hi → exec (.excitationTrip ch c) s = .next s) ∧
      (c < lo ∨ hi < c → ¬(s.anc.phase = .check ∧ s.anc.checkCh = ch.val) → excOn ch s = true → ∃ t, exec (.excitationTrip ch c) s = .next t ∧
        ancChState ch t = chBROKEN ∧ (c < lo → rd ANC_CH_STAT_OPEN ch t = 1) ∧ (hi < c → rd ANC_CH_STAT_SHORT ch t = 1) ∧
        rd ANC_CH_STAT_BREAKS ch t = satU ANC_CH_STAT_BREAKS.width (rd ANC_CH_STAT_BREAKS ch s + 1) ∧ evtSet 224 t = true ∧
        s.framed t (.anc :: recParts) (ANC_CH_STAT_OPEN.key ch :: ANC_CH_STAT_SHORT.key ch :: ANC_CH_STAT_STATE.key ch :: ANC_STAT_BROKEN.key 0 ::
          ANC_CH_STAT_BREAKS.key ch :: evtKey 224 :: recKeys)) ∧
      (c < lo ∨ hi < c → s.anc.phase = .check → s.anc.checkCh = ch.val → ∃ t, exec (.excitationTrip ch c) s = .next t ∧
        t.anc = { s.anc with tripped := true } ∧ s.framed t [.anc] [ANC_CH_STAT_OPEN.key ch, ANC_CH_STAT_SHORT.key ch])) ∧
    (∀ ch : Fin 26, (rd ANC_CTL_STALE 0 s = 0 ∨ ancNamed ch s = false ∨ s.anc.stale.contains ch.val = true → exec (.ancStale ch) s = .next s) ∧
      (rd ANC_CTL_STALE 0 s ≠ 0 → ancNamed ch s = true → s.anc.stale.contains ch.val = false → ∃ t,
        exec (.ancStale ch) s = .next t ∧ staleAt ch s ≤ t.now ∧ t.anc = { s.anc with stale := ch.val :: s.anc.stale } ∧ evtSet 228 t = true ∧
        rd ANC_CNT_STALE_MARKS 0 t = satU ANC_CNT_STALE_MARKS.width (rd ANC_CNT_STALE_MARKS 0 s + 1))) ∧
    (∀ e : Nat, e = rd ANC_TBL_ADDR_ENTRY 0 s → e < 64 →
      (s.sys.inReset = false → ∃ t, exec (.ancTblDataAccess none) s = .next t ∧ t.out = .readData (BitVec.ofNat 64 (s.anc.tbl.get 0 e + place (s.anc.cur.get 0 e) 4 3)) :: s.out ∧
        rd ANC_TBL_ADDR_ENTRY 0 t = (e + 1) % 64 ∧ s.framed t [.out] [ANC_TBL_ADDR_ENTRY.key 0]) ∧
      (slice v.toNat 27 8 = 0 → slice v.toNat 0 4 = 0 → s.sys.inReset = false → ∃ t, exec (.ancTblDataAccess (some v)) s = .next t ∧
        t.anc = { s.anc with tbl := s.anc.tbl.put 0 e (v.toNat % 2 ^ 48 - slice v.toNat 4 3 * 16), cur := s.anc.cur.put 0 e (slice v.toNat 7 3), rewritten := s.anc.rewritten || decide (rd ANC_STAT_ENTRY 0 s = e) } ∧
        rd ANC_TBL_ADDR_ENTRY 0 t = (e + 1) % 64 ∧ s.framed t [.anc] [ANC_TBL_ADDR_ENTRY.key 0]) ∧
      (slice v.toNat 27 8 ≠ 0 → s.sys.inReset = false → ∃ t, exec (.ancTblDataAccess (some v)) s = .next t ∧ t.anc = s.anc ∧ evtSet 20 t = true ∧
        rd ANC_TBL_ADDR_ENTRY 0 t = (e + 1) % 64 ∧ s.framed t recParts (ANC_TBL_ADDR_ENTRY.key 0 :: logKeys)))

/-! ### The Bobbin -/

/-- R496, R497, R499, R503, R504, R508: the commands of a context: each acts in the states it is listed for and is refused with its reason
in any other; a start begins a stream, resumes a paused one or waits for a close; a pause and a finish close at a frame boundary; a
flush empties the block in progress and pads to an item; an abort discards the stream; a save and a restore begin. What the spec leaves
open in it is the model's choice: log entries 60 and 61. -/
def Obligations.BobbinCommands : Prop :=
  ∀ (s : State) (x : Fin 4) (c : BobCtx), c = bobOf x s → s.sys.inReset = false →
    (∀ y ∈ ([(.bobStart x, [bRUNNING, bSAVING, bRESTORING]), (.bobPause x, [bIDLE, bCLOSING, bPAUSED, bSAVING, bRESTORING]),
        (.bobFinish x, [bIDLE, bCLOSING, bSAVING, bRESTORING]), (.bobFlush x, [bIDLE, bCLOSING, bPAUSED, bSAVING, bRESTORING]),
        (.bobAbort x, [bIDLE, bSAVING, bRESTORING]), (.bobSave x 0, [bIDLE, bRUNNING, bCLOSING, bSAVING, bRESTORING]),
        (.bobRestore x 15, [bRUNNING, bCLOSING, bPAUSED, bSAVING, bRESTORING])] : List (Instr × List Nat)), bobSt x s ∈ y.2 → ∃ t,
      exec y.1 s = .next t ∧ rd BOB_CTX_STAT_REFUSED x t = 1 ∧ rd BOB_CTX_STAT_REASON x t = 3 ∧ evtSet 20 t = true ∧
      s.framed t recParts (BOB_CTX_STAT_REFUSED.key x :: BOB_CTX_STAT_REASON.key x :: logKeys)) ∧
    (bobSt x s = bIDLE →
      (bobStartReason x s = 0 → bobFrame x s = 0 → ∃ t, exec (.bobStart x) s = .next t ∧ bobSt x t = bRUNNING ∧ rd BOB_CTX_STAT_ADLER x t = 1 ∧
        rd BOB_CTX_IN_IN_BYTES x t = 0 ∧ bobOf x t = (if rdB BOB_CTX_CFG_WRAP x s then { lastIn := s.now, idleDone := false, out := [0x78, 0x5E], bits := 16 } else { lastIn := s.now, idleDone := false }) ∧
        s.framed t [.bob] [BOB_CTX_STAT_STATE.key x, BOB_CTX_STAT_ADLER.key x, BOB_CTX_IN_IN_BYTES.key x, BOB_CTX_STAT_WAIT_OUT.key x]) ∧
      (bobStartReason x s = 0 → bobFrame x s ≠ 0 → s.warp.fill = none → s.warp.rowMap = [] → s.warp.repair = none →
        rdB WRP_INJ_ADDR_ARM 0 s = false → ∃ t, exec (.bobStart x) s = .next t ∧ bobSt x t = bRUNNING ∧ rd BOB_CTX_STAT_ADLER x t = 1 ∧
        (∀ i : Nat, i < bobW x s → warpStored (rd BOB_CTX_HIST_HIST_BASE x s + i) t = encodeWord 0) ∧
        s.framed t [.bob, .warp] [BOB_CTX_STAT_STATE.key x, BOB_CTX_STAT_ADLER.key x, BOB_CTX_IN_IN_BYTES.key x, BOB_CTX_STAT_WAIT_OUT.key x]) ∧
      (bobStartReason x s ≠ 0 → ∃ t, exec (.bobStart x) s = .next t ∧ rd BOB_CTX_STAT_REFUSED x t = 1 ∧ evtSet 20 t = true ∧
        rd BOB_CTX_STAT_REASON x t = bobStartReason x s ∧
        s.framed t recParts (BOB_CTX_STAT_REFUSED.key x :: BOB_CTX_STAT_REASON.key x :: logKeys)) ∧
      (∀ k : Fin 16, (∀ y : Nat, y < 4 → bobSt y s = bSAVING → (bobOf y s).slot ≠ k) → ∃ t, exec (.bobRestore x k) s = .next t ∧
        bobSt x t = bRESTORING ∧ (bobOf x t).slot = k ∧ s.framed t [.bob] [BOB_CTX_STAT_STATE.key x])) ∧
    (bobSt x s = bPAUSED →
      (∃ t, exec (.bobStart x) s = .next t ∧ bobSt x t = bRUNNING ∧ bobOf x t = { c with lastIn := s.now, idleDone := false, closing := 0 } ∧
        s.framed t [.bob] [BOB_CTX_STAT_STATE.key x]) ∧
      (∀ k : Fin 16, slotInside k s = true → ∃ t, exec (.bobSave x k) s = .next t ∧ bobSt x t = bSAVING ∧ bobOf x t = { c with slot := k } ∧
        s.framed t [.bob] [BOB_CTX_STAT_STATE.key x]) ∧
      (∀ k : Fin 16, slotInside k s = false → ∃ t, exec (.bobSave x k) s = .next t ∧ rd BOB_CTX_STAT_REFUSED x t = 1 ∧
        rd BOB_CTX_STAT_REASON x t = 4 ∧ bobSt x t = bPAUSED ∧ evtSet 20 t = true)) ∧
    (bobSt x s = bCLOSING → ∃ t, exec (.bobStart x) s = .next t ∧ rd BOB_CTX_STAT_START_PENDING x t = 1 ∧
      s.framed t [] [BOB_CTX_STAT_START_PENDING.key x]) ∧
    (bobSt x s = bRUNNING →
      (bobAtBoundary x s = false → (∃ t, exec (.bobPause x) s = .next t ∧ bobSt x t = bCLOSING ∧ bobOf x t = { c with closing := 1, flush := false } ∧
          s.framed t [.bob] [BOB_CTX_STAT_STATE.key x]) ∧
        ∃ t, exec (.bobFinish x) s = .next t ∧ bobSt x t = bCLOSING ∧ bobOf x t = { c with closing := 2, flush := false } ∧
          s.framed t [.bob] [BOB_CTX_STAT_STATE.key x]) ∧
      (bobAtBoundary x s = true → c.block = [] → c.held = [] →
        (c.bits % 48 = 0 → c.out = [] → c.partN = 0 → rdB BOB_CTX_STAT_START_PENDING x s = false → ∃ t, exec (.bobPause x) s = .next t ∧
          bobSt x t = bPAUSED ∧ evtSet 236 t = true) ∧
        ∃ t, exec (.bobFinish x) s = .next t ∧ bobSt x t = bCLOSING ∧ (bobOf x t).flush = true ∧ (bobOf x t).finalRec ≠ none) ∧
      (c.block = [] → c.bits % 48 = 0 → exec (.bobFlush x) s = .next s) ∧
      (c.block ≠ [] ∨ c.bits % 48 ≠ 0 → ∃ t, exec (.bobFlush x) s = .next t ∧
        (bobSt x t = bRUNNING ∧ (bobOf x t).block = [] ∧ (bobOf x t).bits % 48 = 0 ∨ bobSt x t = bIDLE ∧ rd BOB_CTX_STAT_REASON x t = 7))) ∧
    (bobSt x s = bRUNNING ∨ bobSt x s = bCLOSING ∨ bobSt x s = bPAUSED → ∃ t, exec (.bobAbort x) s = .next t ∧ bobSt x t = bIDLE ∧
      bobOf x t = {} ∧ rd BOB_CTX_STAT_REASON x t = 6 ∧ evtSet 237 t = true ∧
      rd BOB_CTX_CNT_ABORTS x t = satU BOB_CTX_CNT_ABORTS.width (rd BOB_CTX_CNT_ABORTS x s + 1) ∧
      s.framed t (.bob :: evtParts) [BOB_CTX_STAT_STATE.key x, BOB_CTX_STAT_REASON.key x, BOB_CTX_STAT_START_PENDING.key x,
        BOB_CTX_STAT_WAIT_OUT.key x, BOB_CTX_CNT_ABORTS.key x, evtKey 237])

/-- R495, R498, R499, R501, R503, R506, R509: a context that reads takes the next item of its queue into the block in progress; six bytes
of output become an item; a quiet source flushes once; a context is saved in its slot and restored from it. What the spec leaves open
in it is the model's choice: log entries 6, 60, 61 and 62. -/
def Obligations.BobbinStreams : Prop :=
  ∀ (s : State) (x : Fin 4) (c : BobCtx) (q p : Nat), c = bobOf x s → q = rd BOB_CTX_CFG_SRC_Q x s → p = rd BOB_CTX_CFG_DEST_Q x s →
    (c.held ≠ [] ∨ bobSt x s = bIDLE ∨ bobSt x s = bPAUSED → exec (.bobItemRead x) s = .next s) ∧
    (bobSt x s = bRUNNING → c.held = [] → (queueOf q s).items = [] → exec (.bobItemRead x) s = .next s) ∧
    (∀ (it : QItem) (r : List QItem) (d : Nat), bobSt x s = bRUNNING → c.held = [] → bobFrame x s = 0 → (queueOf q s).items = it :: r →
      it.linkBad = false → decodeWord it.word = .clean d → c.block.length + 6 < bobLimit x s → ∃ t, exec (.bobItemRead x) s = .next t ∧
      bobOf x t = { c with lastIn := s.now, idleDone := false, block := c.block ++ wordBytes d } ∧ (queueOf q t).items = r ∧
      rd BOB_CTX_IN_IN_BYTES x t = satU 48 (rd BOB_CTX_IN_IN_BYTES x s + 6) ∧
      rd BOB_CTX_STAT_ADLER x t = (wordBytes d).foldl adlerStep (rd BOB_CTX_STAT_ADLER x s) ∧
      s.framed t [.bob, .queues, .warp] [BOB_CTX_IN_IN_BYTES.key x, BOB_CTX_STAT_ADLER.key x]) ∧
    (c.out.length < 6 ∨ qRoom p s = 0 → exec (.bobOutputDrain x) s = .next s) ∧
    (6 ≤ c.out.length → 1 ≤ qRoom p s → c.held = [] →
      (bobSt x s = bRUNNING → rdB WRP_INJ_ADDR_ARM 0 s = false → ∃ t, exec (.bobOutputDrain x) s = .next t ∧
        bobOf x t = { c with out := c.out.drop 6 } ∧
        (queueOf p t).items = insertItem (pushedItem p 8 (leNum (c.out.take 6)) s) (queueOf p s).items ∧
        rd BOB_CTX_STAT_WAIT_OUT x t = 0 ∧ s.framed t (.bob :: recParts) (BOB_CTX_STAT_WAIT_OUT.key x :: pushKeys p)) ∧
      (bobSt x s = bCLOSING → c.flush = true → c.out.length = 6 → c.partN = 0 → rdB BOB_CTX_STAT_START_PENDING x s = false →
        (c.closing = 1 → ∃ t, exec (.bobOutputDrain x) s = .next t ∧ bobSt x t = bPAUSED ∧ evtSet 236 t = true) ∧
        (c.closing = 2 → ∃ t, exec (.bobOutputDrain x) s = .next t ∧ bobSt x t = bIDLE ∧ bobOf x t = {}))) ∧
    (∀ u : Nat, u = rd BOB_CTX_CFG_IDLE_FLUSH x s →
      (u = 0 ∨ c.idleDone = true ∨ (bobSt x s ≠ bRUNNING ∧ bobSt x s ≠ bCLOSING) ∨ (bobSt x s = bCLOSING ∧ c.flush = true) ∨
        (c.held = [] ∧ qCount q s ≠ 0) → exec (.bobIdleFlush x) s = .next s) ∧
      (u ≠ 0 → c.idleDone = false → bobSt x s = bRUNNING ∨ (bobSt x s = bCLOSING ∧ c.flush = false) → c.held ≠ [] ∨ qCount q s = 0 →
        ∃ t, exec (.bobIdleFlush x) s = .next t ∧ t.now = maxN s.now (c.lastIn + u * 1000000) ∧
        (c.block = [] → c.bits % 48 = 0 → bobOf x t = { c with idleDone := true } ∧ s.framed t [.now, .bob] []) ∧
        (bobSt x t = bobSt x s ∧ (bobOf x t).block = [] ∧ (bobOf x t).bits % 48 = 0 ∨ bobSt x t = bIDLE ∧ rd BOB_CTX_STAT_REASON x t = 7))) ∧
    (bobSt x s ≠ bSAVING → exec (.bobSaveDone x) s = .next s) ∧ (bobSt x s ≠ bRESTORING → exec (.bobRestoreDone x) s = .next s) ∧
    (bobSt x s = bSAVING → dramHeld s = false → c.slot < 16 → ∃ t, exec (.bobSaveDone x) s = .next t ∧ bobSt x t = bIDLE ∧ bobOf x t = {} ∧
      evtSet 234 t = true ∧ (insideRegions (bobSlotAddr c.slot s) (2 ^ 21) s = true → bitOf (rd BOB_SLOT_STAT_SAVED 0 t) c.slot = true) ∧
      (insideRegions (bobSlotAddr c.slot s) (2 ^ 21) s = false → rd BOB_SLOT_STAT_SAVED 0 t = rd BOB_SLOT_STAT_SAVED 0 s ∧
        evtSet 20 t = true)) ∧
    (bobSt x s = bRESTORING → dramHeld s = false →
      (slotInside c.slot s = false → ∃ t, exec (.bobRestoreDone x) s = .next t ∧ bobSt x t = bIDLE ∧ bobOf x t = {} ∧
        rd BOB_CTX_STAT_REASON x t = 5 ∧ evtSet 235 t = true ∧
        s.framed t (.bob :: evtParts) [BOB_CTX_STAT_STATE.key x, BOB_CTX_STAT_REASON.key x, evtKey 235]) ∧
      (∀ (head tail ws : List Nat) (sb n : Nat), slotInside c.slot s = true → sb = bobSlotAddr c.slot s / 64 →
        bobRead sb 513 s = (some head, s) → n = imageLen (leNum ((head.drop 30).take 6)) →
        bobRead (sb + 513) ((6 * n + 63) / 64 - 513) s = (some tail, s) → ws = imageWords (head ++ tail) n → imageOk ws = true →
        ∃ t, exec (.bobRestoreDone x) s = .next t ∧ bobSt x t = bPAUSED ∧ evtSet 236 t = true ∧
        bobOf x t = { bits := ws.getD 1 0, window := ((ws.drop 9).flatMap wordBytes).take (ws.getD 7 0) } ∧
        rd BOB_CTX_IN_IN_BYTES x t = ws.getD 2 0 % 2 ^ 48 ∧ rd BOB_CTX_STAT_ADLER x t = ws.getD 3 0 % 2 ^ 32))

/-! ### Calibration -/

/-- R453, R516, R518 to R524, R531: pairs start from the queue when their kind is free; a run ends with its result, a pair with its
outcome, which sets the values in force, the counters, events and record, and completes its command; a pair whose reference has gone
bad ends ABORTED; a disagreement is tried again, and a replica run that takes 10 s ends. What the spec leaves open in it is the model's
choice: log entries 6, 71, 72, 73 and 111. -/
def Obligations.CalibrationPairs : Prop :=
  ∀ (s : State) (g : Fin 4) (kind : Fin 4) (idx : Fin 256) (m : CalMeas),
    (devState s ≠ stIDLE → devState s ≠ stWEAVING → exec (.calRunStart kind g) s = .next s) ∧
    (devState s = stIDLE ∨ devState s = stWEAVING →
      (∀ k : Fin 4, k = 2 ∨ k = 3 → calBusy k s = true → exec (.calRunStart k g) s = .next s) ∧
      (∀ (k : Fin 4) (i : Nat), k = 2 ∨ (k = 3 ∧ rdB CAL_STAT_REF_BAD 0 s = false ∧ s.anc.phase = .idle) → calBusy k s = false →
        s.cal.queue.find? (fun o => decide (o.1 = k.val)) = some (k.val, i) → ∃ t, exec (.calRunStart k g) s = .next t ∧
        t.cal.pairs = s.cal.pairs ++ [{ kind := k, idx := i, byCmd := (s.cal.queue.take s.cal.cmdN).any (fun x => decide (x = (k.val, i))), since := s.now, tol := calTols s }] ∧
        (k.val, i) ∉ t.cal.queue ∧ s.framed t [.cal] []) ∧
      (∀ j : Nat, rdB CAL_STAT_REF_BAD 0 s = false → s.cal.pairs.any (fun c => decide (c.kind = 0 ∧ convGroup c.idx = g.val)) = false →
        convNext g s = some j →
        (cnvSt j s = cREADY → ∃ t, exec (.calRunStart 0 g) s = .next t ∧ cnvSt j t = cCALIBRATING ∧ (0, j) ∉ t.cal.queue ∧
          t.cal.pairs = s.cal.pairs ++ [{ kind := 0, idx := j, byCmd := (s.cal.queue.take s.cal.cmdN).any (fun x => decide (x = (0, j))), since := s.now, tol := calTols s, before := corrFlds.map (fun f => rdI f j s) }] ∧
          s.framed t [.cal] [CNV_STAT_STATE.key j]) ∧
        (∀ k : Nat, cnvSt j s = cSERVING → slotOfConv j s = some k → swapReason g (k % 16) s = 0 → ∃ t, exec (.calRunStart 0 g) s = .next t ∧
          swapOf g t = some { slot := k % 16, spare := rd CNV_GRP_STAT_SPARE g s, at_ := s.now, byCmd := false } ∧
          s.framed t [.ports] [CNV_STAT_STATE.key (rd CNV_GRP_STAT_SPARE g s), CNV_GRP_STAT_BUSY.key g])) ∧
      (∀ l : Nat, calBusy 1 s = false → s.tsu.spareNext = none → rdB CAL_STAT_CALCLK_BAD 0 s = false →
        (s.cal.line = none → s.cal.queue.find? (fun o => decide (o.1 = 1)) = some (1, l) → rd TSU_STAT_SPARE_FOR 0 s = 31 → ∃ t,
          exec (.calRunStart 1 g) s = .next t ∧ (∃ c ∈ t.cal.pairs, c.kind = 1 ∧ c.idx = 28) ∧ (l ≠ 28 → t.cal.line = some l) ∧
          s.framed t [.cal] []) ∧
        (s.cal.line = none → s.cal.queue.find? (fun o => decide (o.1 = 1)) = some (1, l) → rd TSU_STAT_SPARE_FOR 0 s ≠ 31 → ∃ t,
          exec (.calRunStart 1 g) s = .next t ∧ t.tsu = { s.tsu with spareNext := some 31 } ∧ s.framed t [.tsu] []) ∧
        (s.cal.line = some l → rd TSU_STAT_SPARE_FOR 0 s = l → ∃ t, exec (.calRunStart 1 g) s = .next t ∧
          (∃ c ∈ t.cal.pairs, c.kind = 1 ∧ c.idx = l) ∧ s.framed t [.cal] []))) ∧
    (pairOf kind idx s = none → exec (.calRunEnd kind idx m) s = .next s ∧ exec (.calPairEnd kind idx) s = .next s) ∧
    (∀ c : CalPair, pairOf kind idx s = some c →
      (c.second.isSome = true ∨ runResult c m s = none → exec (.calRunEnd kind idx m) s = .next s) ∧
      (∀ (o : CalOut) (e u : Nat), c.second = none → runResult c m s = some (o, e, u) → kind.val = 2 → c.since + 10000000000 < e →
        exec (.calRunEnd kind idx m) s = .next s) ∧
      (∀ (o : CalOut) (e u : Nat), c.second = none → runResult c m s = some (o, e, u) → kind.val ≠ 2 → refBad kind s = true →
        ∃ t, exec (.calRunEnd kind idx m) s = .next t ∧ t.now = maxN s.now e ∧ pairOf kind idx t = none ∧ (calRec kind idx t).last = 5) ∧
      (c.first ≠ none → c.second ≠ none → refBad kind s = true → ∃ t, exec (.calPairEnd kind idx) s = .next t ∧ pairOf kind idx t = none ∧
        (calRec kind idx t).last = 5) ∧
      (c.first = none ∨ c.second = none → exec (.calPairEnd kind idx) s = .next s) ∧
      (∀ (o : CalOut) (e u : Nat), c.second = none → runResult c m s = some (o, e, u) → (kind.val = 2 → e ≤ c.since + 10000000000) →
        refBad kind s = false → ∃ t, exec (.calRunEnd kind idx m) s = .next t ∧ t.now = maxN s.now e ∧ (kind.val = 1 → o.failed = true → evtSet 221 t = true) ∧
        pairOf kind idx t = some { c with since := e, caps := c.caps.drop u, first := if c.first.isSome then c.first else some o, second := if c.first.isSome then some o else none } ∧
        (kind.val ≠ 1 ∨ o.failed = false → s.framed t [.now, .cal] [])) ∧
      (∀ a b : CalOut, c.first = some a → c.second = some b → (kind.val = 0 → idx.val < 68 ∧ cnvSt idx s = cCALIBRATING) → (kind.val = 1 → idx.val < 29) → refBad kind s = false →
        (a.failed = false → b.failed = false → disagreement c a b = none → ∃ t, exec (.calPairEnd kind idx) s = .next t ∧
          pairOf kind idx t = none ∧ evtSet 240 t = true ∧ rd CAL_CNT_RUNS 0 t = satU CAL_CNT_RUNS.width (rd CAL_CNT_RUNS 0 s + 1) ∧
          (calRec kind idx t).source = 2 ∧ (calRec kind idx t).last = 1 ∧ (calRec kind idx t).streak = 0 ∧
          (kind.val = 0 → cnvSt idx t = cREADY) ∧ (kind.val = 1 → bitOf (rd TSU_STAT_LINE_OK 0 t) idx = true) ∧
          (kind.val = 3 → (calRec kind idx t).vals = meanOf a.vals b.vals) ∧
          (kind.val = 0 → ∀ z : Int, z = (meanOf a.vals b.vals).getD 0 0 → -8192 ≤ z → z ≤ 8192 → rdZ CNV_CORR_OFFSET idx t = z) ∧
          ∀ e : Cmd, s.host.cmds.filter (fun e => decide (e.opcode = 0x28 ∧ e.phase = .running)) = [e] → e.aux = calAux kind idx →
            cplOf e 0 0 1 ∈ t.host.cplWait) ∧
        (a.failed = false → b.failed = false → ∀ (k : Nat) (x y : Int), disagreement c a b = some (k, x, y) → k < 256 → ∃ t,
          exec (.calPairEnd kind idx) s = .next t ∧ pairOf kind idx t = none ∧ evtSet 241 t = true ∧
          rd CAL_CNT_DISAGREE 0 t = satU CAL_CNT_DISAGREE.width (rd CAL_CNT_DISAGREE 0 s + 1) ∧ (calRec kind idx t).last = 2 ∧
          (calRec kind idx t).streak = (calRec kind idx s).streak + 1 ∧
          ((calRec kind idx s).streak < 2 → kind.val ≠ 2 → t.cal.retry.get 0 (calKey kind idx) = s.now + 60000000000) ∧
          (kind.val = 0 → cnvSt idx t = cREADY) ∧
          ∀ e : Cmd, s.host.cmds.filter (fun e => decide (e.opcode = 0x28 ∧ e.phase = .running)) = [e] → e.aux = calAux kind idx →
            cplOf e 0x16 2 (2 + 256 * k) ∈ t.host.cplWait) ∧
        (a.failed = true ∨ b.failed = true → ∃ t, exec (.calPairEnd kind idx) s = .next t ∧ pairOf kind idx t = none ∧ evtSet 242 t = true ∧
          rd CAL_CNT_FAILS 0 t = satU CAL_CNT_FAILS.width (rd CAL_CNT_FAILS 0 s + 1) ∧ (calRec kind idx t).last = 3 ∧
          (kind.val = 0 → c.boot = false → cnvSt idx t = cFAILED ∧ rd CNV_STAT_CAL_FAIL idx t = 1 ∧ rd CNV_GRP_STAT_SPARE (convGroup idx) t = 0xFF) ∧
          ∀ e : Cmd, s.host.cmds.filter (fun e => decide (e.opcode = 0x28 ∧ e.phase = .running)) = [e] → e.aux = calAux kind idx →
            cplOf e 0x16 3 3 ∈ t.host.cplWait))) ∧
    (∀ u : Nat, u = s.cal.retry.get 0 (calKey kind idx) →
      (u = 0 → exec (.disagreeRetry kind idx) s = .next s) ∧
      (u ≠ 0 → ∃ t, exec (.disagreeRetry kind idx) s = .next t ∧ t.now = maxN s.now u ∧ t.cal.retry.get 0 (calKey kind idx) = 0 ∧
        t.cal.queue = (if rdB CAL_CTL_AUTO_RECAL 0 s && !(calHas kind idx s) && decide (s.cal.queue.length < 128) then s.cal.queue ++ [(kind.val, idx.val)] else s.cal.queue) ∧
        s.framed t [.now, .cal] [])) ∧
    (s.cal.pairs.find? (fun c => decide (c.kind = 2) && c.second.isNone) = none → exec .replicaTimeout s = .next s) ∧
    (∀ c : CalPair, s.cal.pairs.find? (fun c => decide (c.kind = 2) && c.second.isNone) = some c → ∃ t, exec .replicaTimeout s = .next t ∧
      t.now = maxN s.now (c.since + 10000000000) ∧ pairOf 2 c.idx t = none ∧ evtSet 242 t = true ∧ (calRec 2 c.idx t).last = 4 ∧
      rd CAL_CNT_FAILS 0 t = satU CAL_CNT_FAILS.width (rd CAL_CNT_FAILS 0 s + 1))

/-- R10, R516, R517, R522, R523, R525, R529, R535: in-place checks of serving converters; the reference is checked, and a changed REFIN
queues what it concerns; the calibration clock; a save begins and ends; a reading of the sensors sets the hottest value, the causes and
warnings. What the spec leaves open in it is the model's choice: log entries 6, 23, 72, 73, 108 and 112. -/
def Obligations.CalibrationUpkeep : Prop :=
  ∀ (s : State) (v : Qword),
    (∀ (j : Fin 68) (sum : Int) (rail : Bool),
      (slotOfConv j s = none ∨ rd CAL_CTL_CHK_S 0 s = 0 ∨ cnvSt j s ≠ cSERVING → exec (.inplaceCheck j sum rail) s = .next s) ∧
      (∀ (k u due : Nat) (far : Bool), slotOfConv j s = some k → due = s.cal.chk.get 0 j + rd CAL_CTL_CHK_S 0 s * 1000000000 → checkRoom (k / 4) due s = some u → rd CAL_CTL_CHK_S 0 s ≠ 0 → cnvSt j s = cSERVING →
        far = (rail || decide (64 * rd CAL_CTL_CHK_LIM 0 s < (sum - 4 * sx 16 (rdI CNV_CORR_OFFSET j s)).natAbs)) → ∃ t,
        exec (.inplaceCheck j sum rail) s = .next t ∧ t.now = maxN s.now u ∧ due + 128 ≤ u ∧
        t.cal.chk.get 0 j = t.now ∧
        (far = false → t.cal.chkFail.get 0 j = 0 ∧ s.framed t [.now, .cal] []) ∧
        (far = true → s.cal.chkFail.get 0 j = 0 → t.cal.chkFail.get 0 j = 1 ∧ s.framed t [.now, .cal] []) ∧
        (far = true → s.cal.chkFail.get 0 j ≠ 0 → cnvSt j t = cFAILED ∧ rd CNV_STAT_CAL_FAIL j t = 1 ∧
          rd PRT_STAT_CONV_FAULT (k / 4) t = 1 ∧ (portSt (k / 4) s = pRUNNING → portSt (k / 4) t = pFAULTED)))) ∧
    (s.sys.inReset = false → CAL_REF_REFIN.ofQ v = rd CAL_REF_REFIN 0 s → ∃ t, exec (.calRefWrite v) s = .next t ∧
      rd CAL_REF_REFIN 0 t = rd CAL_REF_REFIN 0 s ∧ t.cal = { s.cal with recs := t.cal.recs } ∧ (calRec 5 0 t).source = 3 ∧
      (∀ k i : Nat, calKey k i ≠ calKey 5 0 → calRec k i t = calRec k i s) ∧ s.framed t [.cal] [CAL_REF_REFIN.key 0]) ∧
    (s.sys.inReset = false → CAL_REF_REFIN.ofQ v ≠ rd CAL_REF_REFIN 0 s → s.cal.pairs = [] → s.cal.queue = [] → s.anc.phase ≠ .calWait →
      ∃ t, exec (.calRefWrite v) s = .next t ∧ rd CAL_REF_REFIN 0 t = CAL_REF_REFIN.ofQ v ∧
      (rdB CAL_CTL_AUTO_RECAL 0 s = true → (3, 0) ∈ t.cal.queue ∧ ∀ j : Nat, j < 68 → convQueueable j s = true → (0, j) ∈ t.cal.queue) ∧
      (rdB CAL_CTL_AUTO_RECAL 0 s = false → t.cal = { s.cal with recs := t.cal.recs }) ∧ (calRec 5 0 t).source = 3 ∧ s.framed t [.cal] [CAL_REF_REFIN.key 0]) ∧
    (∀ (mv : BitVec 22) (bad : Bool), bad = decide (refinUv s < 100 * ((mv.toNat : Int) - (refinUv s : Int)).natAbs) → s.anc.phase ≠ .calWait → ∃ t,
      exec (.refCheck mv) s = .next t ∧ t.now = (s.now / 100000000 + 1) * 100000000 ∧ rd CAL_REF_MEASURED 0 t = mv.toNat ∧ rdB CAL_STAT_REF_BAD 0 t = bad ∧
      (bad = true → rdB CAL_STAT_REF_BAD 0 s = false → evtSet 247 t = true) ∧
      s.framed t (.now :: evtParts) [CAL_REF_MEASURED.key 0, CAL_STAT_REF_BAD.key 0, evtKey 247]) ∧
    (∃ t, exec .calclkLoss s = .next t ∧ rd CAL_STAT_CALCLK_BAD 0 t = 1 ∧ s.framed t [] [CAL_STAT_CALCLK_BAD.key 0]) ∧
    (∃ t, exec .calclkReturn s = .next t ∧ rd CAL_STAT_CALCLK_BAD 0 t = 0 ∧ s.framed t [] [CAL_STAT_CALCLK_BAD.key 0]) ∧
    (s.cal.save = none → s.sys.inReset = false → ∃ (t : State) (r : CalSaveRun), exec (.calSave v) s = .next t ∧ t.cal.save = some r ∧ r.seq = s.cal.seq + 1 ∧
      r.copy = (if rd CAL_STAT_COPY 0 s = 1 then 2 else 1) ∧ t.out = .flash (if r.copy = 1 then 0x100000 else 0x110000) r.bytes :: s.out ∧
      s.framed t [.cal, .out] (CAL_CTL.fields.map (fun f => f.key 0))) ∧
    (s.cal.save ≠ none → s.sys.inReset = false → ∃ t, exec (.calSave v) s = .next t ∧ t.cal = s.cal ∧ evtSet 20 t = true ∧
      s.framed t recParts (CAL_CTL.fields.map (fun f => f.key 0) ++ logKeys)) ∧
    (s.cal.save = none → ∀ ok : Bool, exec (.calSaveDone ok) s = .next s) ∧
    (∀ r : CalSaveRun, s.cal.save = some r → r.copy < 4 →
      (rdB SYS_STRAP_NOFLASH 0 s = false → ∃ t, exec (.calSaveDone true) s = .next t ∧ t.cal = { s.cal with save := none, seq := r.seq, lastSave := some s.now } ∧
        rd CAL_STAT_COPY 0 t = r.copy ∧ rd CAL_CNT_SAVES 0 t = satU CAL_CNT_SAVES.width (rd CAL_CNT_SAVES 0 s + 1) ∧ evtSet 245 t = true ∧
        s.framed t (.cal :: recParts) (CAL_STAT_COPY.key 0 :: CAL_CNT_SAVES.key 0 :: evtKey 245 :: recKeys)) ∧
      (∃ t, exec (.calSaveDone false) s = .next t ∧ t.cal = { s.cal with save := none } ∧ rd CAL_STAT_FLASH_ERR 0 t = 1 ∧ evtSet 246 t = true ∧
        s.framed t (.cal :: recParts) (CAL_STAT_FLASH_ERR.key 0 :: evtKey 246 :: recKeys))) ∧
    (∀ (t0 t1 t2 t3 v0 v1 v2 v3 v4 : BitVec 16) (low : List (BitVec 16 × Nat)) (at_ : Nat),
      low = [(v0, 700), (v1, 880), (v2, 970), (v3, 1580), (v4, 4400)] → at_ = (s.now / 10000000 + 1) * 10000000 →
      (s.sys.inReset = true → exec (.sensorRead t0 t1 t2 t3 v0 v1 v2 v3 v4) s = .next s) ∧
      (s.sys.inReset = false → (∃ x ∈ low, x.1.toNat < x.2) →
        exec (.sensorRead t0 t1 t2 t3 v0 v1 v2 v3 v4) s = exec .brownOut { s with now := at_ }) ∧
      (s.sys.inReset = false → (∀ x ∈ low, x.2 ≤ x.1.toNat) → devState s = stIDLE → faultActive s = 0 → rdB CAL_CTL_AUTO_RECAL 0 s = false →
        (∀ x ∈ [t0, t1, t2, t3], x.toInt < tempWarn s) → ∃ t, exec (.sensorRead t0 t1 t2 t3 v0 v1 v2 v3 v4) s = .next t ∧
        t.sys.temps = [t0.toInt, t1.toInt, t2.toInt, t3.toInt] ∧ t.sys.supplies = [v0.toNat, v1.toNat, v2.toNat, v3.toNat, v4.toNat] ∧
        t.sys.hotRun = 0 ∧ t.now = at_ ∧ (∀ x ∈ [t0, t1, t2, t3], x.toInt ≤ rdZ SYS_ENV_TEMP_MAX 0 t) ∧
        (∀ i : Nat, i < 5 → bitOf (rd SYS_ENV_SUPPLY_OK 0 t) i = inBand (supplyRange i) (t.sys.supplies.getD i 0)) ∧ devState t = stIDLE) ∧
      (s.sys.inReset = false → (∀ x ∈ low, x.2 ≤ x.1.toNat) → devState s = stIDLE → faultActive s = 0 → s.sys.hotRun = 2 →
        (∃ x ∈ [t0, t1, t2, t3], tempFault s ≤ x.toInt) →
        ∃ t, exec (.sensorRead t0 t1 t2 t3 v0 v1 v2 v3 v4) s = .next t ∧ bitOf (faultActive t) 1 = true ∧ devState t = stFAULT ∧ evtSet 10 t = true))

/-! ### Resets, bring-up, faults and clocks -/

/-- R538 to R544, R561, R571: what each reset keeps and sets; the instructions of the test access port, the last three of which hold the
device in core reset, with its boundary cells low while INTLK_N is low; while a reset is asserted a write is discarded and a read
returns zero over the trained link; bring-up begins when every reset is released. What the spec leaves open in it is the model's
choice: log entries 3, 4, 11, 20, 54 and 114. -/
def Obligations.Resets : Prop :=
  ∀ (s : State),
    (∀ x ∈ ([(.powerOnReset, 0), (.brownOut, 0), (.perstN, 1)] : List (Instr × Nat)), ∃ t, exec x.1 s = .next t ∧ t.sys.inReset = true ∧
      t.sys.sample = true ∧ devState t = stRESET ∧ (∀ i : Nat, i < 5 → rd (causeFlds.getD i SYS_RESET_POR) 0 t = if i = x.2 then 1 else 0) ∧
      (∀ (f : Fld) (i : Nat), f.key i ∉ SYS_STATE_STATE.key 0 :: causeKeys → rd f i t = f.rst i) ∧
      t.pending = s.pending ∧ t.out = (gatesLow s).out ∧ t.src = { intlkLow := s.src.intlkLow } ∧ t.now = 0 ∧ t.queues = [] ∧ t.warp = {} ∧ t.dram = {} ∧
      t.sht = {} ∧ t.host = {} ∧ t.trd = {} ∧ t.bob = [] ∧ t.cal = {} ∧ t.sys.tap = s.sys.tap) ∧
    (∀ x ∈ ([(.rstN, 2, false), (.flr, 3, true), (.coreRst, 4, true)] : List (Instr × Nat × Bool)),
      (x.2.1 = 4 → s.sys.inReset = false) → ∃ t, exec x.1 s = .next t ∧
      t.sys.inReset = true ∧ t.sys.sample = s.sys.sample ∧ devState t = stRESET ∧
      (∀ i : Nat, i < 5 → rd (causeFlds.getD i SYS_RESET_POR) 0 t = if i = x.2.1 then 1 else 0) ∧
      (∀ r ∈ regTable, ∀ f ∈ r.fields, f.ty = .rws → ∀ i : Nat, i < r.count → rd f i t = rd f i s) ∧
      (∀ (f : Fld) (i : Nat), f.key i ≠ SYS_STATE_STATE.key 0 → f.key i ∉ rwsKeys ++ coreKeys x.2.2 s → rd f i t = f.rst i) ∧
      rd DRM_STAT_RANK_OUT 0 t = rd DRM_STAT_RANK_OUT 0 s ∧ rd DRM_STAT_HELD 0 t = rd DRM_STAT_HELD 0 s ∧
      t.warp = { rowMap := s.warp.rowMap, sparesUsed := s.warp.sparesUsed } ∧ t.dram.frames = (if rdB DRM_STAT_HELD 0 s then s.dram.frames else []) ∧
      t.dram.bmap = s.dram.bmap ∧ t.dram.remap = s.dram.remap ∧
      t.out = (gatesLow s).out ∧ t.src = { intlkLow := s.src.intlkLow } ∧ t.pending = s.pending ∧ t.queues = [] ∧ t.sht = {} ∧ t.host = {} ∧ t.trd = {} ∧ t.bob = [] ∧ t.sys.tap = s.sys.tap) ∧
    (∀ cells : BitVec 49,
      (∃ t, exec (.tapInstructionLoad (.bypass, cells)) s = .next t ∧ t.sys = { s.sys with tap := .bypass } ∧ s.framed t [.sys] []) ∧
      (∃ t, exec (.tapInstructionLoad (.sample, cells)) s = .next t ∧ t.sys = { s.sys with tap := .sample, cells := cells } ∧ s.framed t [.sys] []) ∧
      (∃ t, exec (.tapInstructionLoad (.idcode, cells)) s = .next t ∧ t.sys = { s.sys with tap := .idcode } ∧ s.framed t [.sys, .out] [] ∧
        t.out = .idcode (if rd SYS_ID_STEP_MINOR 0 s = 1 then 0x14816C6B#32 else 0x04816C6B#32) :: s.out) ∧
      (∀ i ∈ [TapInstr.extest, .highz, .clamp], ∃ t, exec (.tapInstructionLoad (i, cells)) s = .next t ∧ t.sys.tap = i ∧ t.sys.inReset = true ∧
        devState t = stRESET ∧ t.out.head? = some (.cells (if s.src.intlkLow then some 0 else if i = .highz then none else some s.sys.cells)))) ∧
    (∀ (v : Qword) (b : Fin 2) (l : Fin 32) (p : Fin 16) (x g : Fin 4) (c : Fin 8) (z : Bool) (f : Fin 3) (q : Fin 256) (r : Fin 8192),
      s.sys.inReset = true →
      (∀ i ∈ ([.trdBankCfgWrite b v, .validate b, .hostBeat, .discard, .trdCtlSwap, .trdFlagSetWrite v, .trdDraftDataAccess (some v),
          .wrpFillGo v, .wfqHpush v, .wfqFlush v, .wfqCfgWrite q v, .hstCtlWrite v, .hstCmdTailWrite v, .hstCplHeadWrite v, .mbxGo v,
          .msixUnmask l z, .evtRawWrite x v, .srcCurWrite c v, .srcCurModeWrite c v, .permitWrite v, .srcLineDataAccess (some v),
          .coreRst, .faultClr, .faultForce, .sysProfileWrite v, .prepare v, .redLoadDataAccess (some v), .gzDataAccess p (some v),
          .prtRunStart p v, .prtRunStop p v, .frugalMemberWrite p z, .convSwapRequest g v, .engineRunStart l, .engineRunStop l,
          .imgLoad v, .engineSwapRequest v, .swapCancel, .shtLogDataAccess (some v), .spcLineWrite f v, .spcLoDataAccess (some v),
          .bobStart x, .bobPause x, .bobFinish x, .bobFlush x, .bobAbort x, .calSave v, .calRefWrite v, .discCtlWrite v,
          .tsuGateWrite x v, .tsuMapDataAccess (some v), .ancEnWrite v, .ancTblDataAccess (some v), .drmActRankOut v, .drmActVacate v,
          .drmRplWrite x v, .regionFillGo c v, .registerWrite r v] : List Instr), exec i s = .next s) ∧
      ∀ i ∈ ([.trdDraftDataAccess none, .wfqHpop, .srcLineDataAccess none, .redLoadDataAccess none, .gzDataAccess p none,
          .shtLogDataAccess none, .spcLoDataAccess none, .tsuMapDataAccess none, .ancTblDataAccess none, .sysTimeHiRead, .rcRegisterRead r] : List Instr),
        exec i s = .next (if rd HST_STAT_LINK_WIDTH 0 s = 0 then s else { s with out := .readBytes 8 0 :: s.out })) ∧
    (∀ (pc : Fin 4) (nf : Bool),
      (s.sys.inReset = false ∨ tapHolds s = true → exec (.resetRelease pc nf) s = .next s) ∧
      (s.sys.inReset = true → tapHolds s = false → ∃ t, exec (.resetRelease pc nf) s = .next t ∧ devState t = stBRINGUP ∧
        rd SYS_STATE_PREV 0 t = stRESET ∧ t.sys.inReset = false ∧ t.sys.sample = false ∧ rd SYS_BRINGUP_STEP 0 t = 1 ∧ evtSet 9 t = true ∧
        (s.sys.sample = true → rd SYS_STRAP_PCIE 0 t = pc ∧ rdB SYS_STRAP_NOFLASH 0 t = nf) ∧
        (∀ f ∈ causeFlds, rd f 0 t = rd f 0 s)))

/-- R385, R386, R389, R401, R404, R526, R542 to R544: a bring-up step that is not in progress ends nothing; the step in progress ends in
the next one, in a fault with its cause and step, or, after the last, in IDLE; the PLL has 10 ms to lock. What the spec leaves open in
it is the model's choice: log entries 22, 55, 71, 109 and 111. -/
def Obligations.BringUp : Prop :=
  ∀ (s : State) (cc n : Nat), n = rd SYS_BRINGUP_STEP 0 s →
    (∀ o : BringStep, devState s ≠ stBRINGUP → exec (.bringupStepEnd cc o) s = .next s) ∧
    (devState s = stBRINGUP →
      (n ≠ 1 → exec (.bringupStepEnd cc .lock) s = .next s ∧ exec .pllLockTimeout s = .next s) ∧
      (n ≠ 6 → exec (.bringupStepEnd cc .regions) s = .next s) ∧
      (n = 1 → (∃ t, exec (.bringupStepEnd cc .lock) s = .next t ∧ t.now = s.now + cc ∧
          rd SYS_BRINGUP_STEP 0 t = (if rdB SYS_STRAP_NOFLASH 0 s then 3 else 2) ∧ rd SYS_CLK_STAT_PLL_LOCK 0 t = 1 ∧ rd SYS_CLK_STAT_SREF_OK 0 t = 1 ∧
          rd SYS_ENV_SUPPLY_OK 0 t = 31 ∧
          s.framed t [.now] [SYS_BRINGUP_STEP.key 0, SYS_CLK_STAT_PLL_LOCK.key 0, SYS_CLK_STAT_SREF_OK.key 0, SYS_ENV_SUPPLY_OK.key 0]) ∧
        (bitOf (faultActive s) 0 = false → ∃ t, exec .pllLockTimeout s = .next t ∧ devState t = stFAULT ∧ bitOf (faultActive t) 0 = true ∧
          rd SYS_BRINGUP_FAIL_STEP 0 t = 1 ∧ evtSet 10 t = true ∧ 10000000 ≤ t.now)) ∧
      (n = 2 → ∀ a b : List (BitVec 8), ∃ t, exec (.bringupStepEnd cc (.flash a b)) s = .next t ∧ rd SYS_BRINGUP_STEP 0 t = 3 ∧
        devState t = stBRINGUP) ∧
      (n = 3 → (∃ t, exec (.bringupStepEnd cc (.selfTest true)) s = .next t ∧ rd SYS_BRINGUP_STEP 0 t = 4 ∧ rd WRP_STAT_SELFTEST_OK 0 t = 1 ∧
          s.framed t [.now] [SYS_BRINGUP_STEP.key 0, WRP_STAT_SELFTEST_OK.key 0]) ∧
        (bitOf (faultActive s) 3 = false → ∃ t, exec (.bringupStepEnd cc (.selfTest false)) s = .next t ∧ devState t = stFAULT ∧
          bitOf (faultActive t) 3 = true ∧ rd SYS_BRINGUP_FAIL_STEP 0 t = 3 ∧ evtSet 10 t = true)) ∧
      (n = 4 → rdB WRP_INJ_ADDR_ARM 0 s = false →
        (∃ t, exec (.bringupStepEnd cc (.storeFill [])) s = .next t ∧ rd SYS_BRINGUP_STEP 0 t = 5 ∧
          t.warp = { s.warp with words := [], pool := [], wbs := [] } ∧
          (∀ q : Nat, (queueOf q t).items = (queueOf q s).items.map (fun it => { it with word := bareWord })) ∧ (∀ e : Nat, e < 34 → (engOf e t).loom = [] ∧ (engOf e t).istore = []) ∧
          s.framed t [.now, .warp, .queues, .sht] [SYS_BRINGUP_STEP.key 0]) ∧
        ∀ a : BitVec 25, a.toNat < 0x1800000 → rdB WRP_CTL_AUTO_REPAIR 0 s = true → s.warp.sparesUsed.get 0 (bankOfQuad (a.toNat / 4)) < 8 → ∃ t,
          exec (.bringupStepEnd cc (.storeFill [a])) s = .next t ∧ rd SYS_BRINGUP_STEP 0 t = 5 ∧ evtSet 115 t = true ∧ evtSet 116 t = true ∧
          t.warp.rowMap.get 0 (rowKey (bankOfQuad (a.toNat / 4)) (rowOfQuad (a.toNat / 4))) = s.warp.sparesUsed.get 0 (bankOfQuad (a.toNat / 4)) + 1) ∧
      (n = 5 → (∀ (a b : SpdRead) (e : List (Fin 65)), ∃ t, exec (.bringupStepEnd cc (.memory a b e)) s = .next t ∧
          (rd SYS_BRINGUP_STEP 0 t = 6 ∧ (chState 0 t = chSERVING ∨ chState 1 t = chSERVING) ∨ bitOf (faultActive t) 4 = true)) ∧
        ∃ t, exec (.bringupStepEnd cc (.memory (.present true 2 16 32 295) (.present true 2 16 32 295) [20, 20, 20, 20])) s = .next t ∧
          rd SYS_BRINGUP_STEP 0 t = 6 ∧ chState 0 t = chSERVING ∧ chState 1 t = chSERVING ∧ rd DRM_ORG_RANKS 0 t = 2 ∧
          rd DRM_ORG_RANK_GIB 1 t = 32 ∧ rd DRM_TRAIN_EYE_R 0 t = 20) ∧
      (n = 6 → ∃ t, exec (.bringupStepEnd cc .regions) s = .next t ∧ rd SYS_BRINGUP_STEP 0 t = 7 ∧ t.sys.hold = false ∧
        ∀ o ∈ calObjects, refBad o.1 s = false → ∃ c ∈ t.cal.pairs, c.kind = o.1 ∧ c.idx = o.2 ∧ c.boot = true ∧ c.since = t.now) ∧
      (n = 7 → ∀ (ms : List (CalMeas × CalMeas)) (bs : List (Int × Int)), bringupMeasOk ms s = true → ∃ t,
        exec (.bringupStepEnd cc (.calibration ms bs)) s = .next t ∧ devState t = stIDLE ∧ rd SYS_BRINGUP_STEP 0 t = 8 ∧ evtSet 11 t = true ∧
        rd SYS_BRINGUP_TIME_US 0 t = satU 24 (t.now / 1000)))

/-- R9, R10, R546 to R550: a clock loss is shown, and while weaving it is a fault that abandons the launched picks and holds the SDRAM; a
fault is forced and cleared; a supply leaves and regains its range; a supply's warning is reported once; a profile is written while
every unit is stopped. What the spec leaves open in it is the model's choice: log entries 21, 23 and 108. -/
def Obligations.FaultsAndClocks : Prop :=
  ∀ (s : State) (v : Qword) (k : Fin 5) (mv : BitVec 16) (brown : Nat), brown = [700, 880, 970, 1580, 4400].getD k 0 →
    (∀ x ∈ ([(.srefLoss, SYS_CLK_STAT_SREF_OK, SYS_CLK_STAT_SREF_LOST, 1), (.pllUnlock, SYS_CLK_STAT_PLL_LOCK, SYS_CLK_STAT_PLL_UNLOCKED, 0)] : List (Instr × Fld × Fld × Nat)),
      (s.sys.inReset = true → exec x.1 s = .next s) ∧
      (s.sys.inReset = false → weaving s = false → ∃ t, exec x.1 s = .next t ∧ rd x.2.1 0 t = 0 ∧ rd x.2.2.1 0 t = 1 ∧ evtSet x.2.2.2 t = true ∧
        s.framed t evtParts [x.2.1.key 0, x.2.2.1.key 0, evtKey x.2.2.2]) ∧
      (s.sys.inReset = false → weaving s = true → bitOf (faultActive s) 0 = false → ∃ t, exec x.1 s = .next t ∧ rd x.2.1 0 t = 0 ∧
        rd x.2.2.1 0 t = 1 ∧ evtSet x.2.2.2 t = true ∧ devState t = stFAULT ∧ bitOf (faultActive t) 0 = true ∧ rd DRM_STAT_HELD 0 t = 1 ∧
        t.trd.picks = [] ∧ t.trd.weaving = false ∧ rd SRC_CTL_PERMIT 0 t = 0 ∧ evtSet 10 t = true)) ∧
    (∃ t, exec .srefReturn s = .next t ∧ rd SYS_CLK_STAT_SREF_OK 0 t = 1 ∧ s.framed t [] [SYS_CLK_STAT_SREF_OK.key 0]) ∧
    (∃ t, exec .pllRelock s = .next t ∧ rd SYS_CLK_STAT_PLL_LOCK 0 t = 1 ∧ s.framed t [] [SYS_CLK_STAT_PLL_LOCK.key 0]) ∧
    (devState s = stIDLE ∨ devState s = stWEAVING → bitOf (faultActive s) 5 = false → s.sys.inReset = false → ∃ t, exec .faultForce s = .next t ∧
      devState t = stFAULT ∧ bitOf (faultActive t) 5 = true ∧ bitOf (rd SYS_FAULT_LATCHED 0 t) 5 = true ∧ evtSet 10 t = true ∧
      rd SRC_CTL_PERMIT 0 t = 0 ∧ t.trd.weaving = (s.trd.weaving && decide (devState s = stIDLE)) ∧ t.cal.pairs = []) ∧
    (devState s = stFAULT →
      (setBitTo (faultActive s) 5 false % 256 = 0 → s.sys.inReset = false → ∃ t, exec .faultClr s = .next t ∧ devState t = stIDLE ∧ rd SYS_STATE_PREV 0 t = stFAULT ∧
        faultActive t = 0 ∧ evtSet 14 t = true ∧ evtSet 9 t = true) ∧
      (setBitTo (faultActive s) 5 false % 256 ≠ 0 → s.sys.inReset = false → ∃ t, exec .faultClr s = .next t ∧ devState t = stFAULT ∧ bitOf (faultActive t) 5 = false ∧
        evtSet 20 t = true ∧ s.framed t recParts (SYS_FAULT_ACTIVE.key 0 :: logKeys))) ∧
    (devState s ≠ stFAULT → s.sys.inReset = false →
      (setBitTo (faultActive s) 5 false % 256 = 0 → ∃ t, exec .faultClr s = .next t ∧ faultActive t = 0 ∧ s.framed t [] [SYS_FAULT_ACTIVE.key 0]) ∧
      (setBitTo (faultActive s) 5 false % 256 ≠ 0 → ∃ t, exec .faultClr s = .next t ∧ bitOf (faultActive t) 5 = false ∧ devState t = devState s ∧
        evtSet 20 t = true ∧ s.framed t recParts (SYS_FAULT_ACTIVE.key 0 :: logKeys))) ∧
    (s.sys.inReset = true → exec (.supplyFault (k, mv)) s = .next s ∧ exec .supplyRecover s = .next s ∧ exec (.supplyWarn k mv) s = .next s) ∧
    (s.sys.inReset = false →
      (mv.toNat < brown → exec (.supplyFault (k, mv)) s = exec .brownOut s ∧ exec (.supplyWarn k mv) s = exec .brownOut s) ∧
      (brown ≤ mv.toNat → inBand (supplyRange k) mv.toNat = true → exec (.supplyFault (k, mv)) s = .next s) ∧
      (brown ≤ mv.toNat → inBand (supplyRange k) mv.toNat = false → devState s = stIDLE → bitOf (faultActive s) 2 = false →
        ∃ t, exec (.supplyFault (k, mv)) s = .next t ∧ devState t = stFAULT ∧
        bitOf (faultActive t) 2 = true ∧ bitOf (rd SYS_ENV_SUPPLY_OK 0 t) k = false ∧ bitOf t.sys.supplyOut k = true ∧ evtSet 10 t = true) ∧
      (brown ≤ mv.toNat → inBand (supplyRange k) mv.toNat = false → devState s = stHOLD → ∃ t, exec (.supplyFault (k, mv)) s = .next t ∧ devState t = stHOLD ∧ bitOf (rd SYS_FAULT_LATCHED 0 t) 2 = true ∧
        bitOf (faultActive t) 2 = true) ∧
      (∃ t, exec .supplyRecover s = .next t ∧ bitOf (faultActive t) 2 = false ∧ rd SYS_ENV_SUPPLY_OK 0 t = 31 ∧
        t.sys = { s.sys with supplyOut := 0 } ∧ s.framed t [.sys] [SYS_FAULT_ACTIVE.key 0, SYS_ENV_SUPPLY_OK.key 0]) ∧
      (brown ≤ mv.toNat → inBand (supplyWarnBand k) mv.toNat = true → ∃ t, exec (.supplyWarn k mv) s = .next t ∧ bitOf t.sys.supplyWarn k = false ∧
        s.framed t [.sys] []) ∧
      (brown ≤ mv.toNat → inBand (supplyWarnBand k) mv.toNat = false → bitOf s.sys.supplyWarn k = true → exec (.supplyWarn k mv) s = .next s) ∧
      (brown ≤ mv.toNat → inBand (supplyWarnBand k) mv.toNat = false → bitOf s.sys.supplyWarn k = false → ∃ t, exec (.supplyWarn k mv) s = .next t ∧
        bitOf t.sys.supplyWarn k = true ∧ evtSet 13 t = true ∧ s.framed t (.sys :: recParts) (evtKey 13 :: recKeys))) ∧
    (∀ m : Nat, m = SYS_PROFILE_PROFILE.ofQ v →
      (profileFree s = false → m = rd SYS_PROFILE_PROFILE 0 s → s.sys.inReset = false → exec (.sysProfileWrite v) s = .next s) ∧
      (profileFree s = false → m ≠ rd SYS_PROFILE_PROFILE 0 s → s.sys.inReset = false → ∃ t, exec (.sysProfileWrite v) s = .next t ∧ evtSet 20 t = true ∧
        s.framed t recParts logKeys) ∧
      ((∀ p : Nat, p < 16 → portSt p s = pSTOPPED) → (∀ l : Nat, l < 32 → engSt (physOf l s) s = eSTOPPED) →
        (m < 3 → s.sys.inReset = false → ∃ t, exec (.sysProfileWrite v) s = .next t ∧ rd SYS_PROFILE_PROFILE 0 t = m ∧ s.framed t [] [SYS_PROFILE_PROFILE.key 0]) ∧
        (m = 3 → s.sys.inReset = false → ∃ t, exec (.sysProfileWrite v) s = .next t ∧ rd SYS_PROFILE_PROFILE 0 t = 3 ∧
          (∀ p : Nat, p < 16 → portSt p t = if rdB PRT_CTL_FRUGAL_MEMBER p s then pSTOPPED else pGATED) ∧
          ∀ l : Nat, l < 8 → engSt (physOf l s) t = eSTOPPED ∨ ∃ j : Nat, 8 ≤ j ∧ j < 32 ∧ physOf j s = physOf l s)))

/-! ### The whole machine -/

/-- The state after reset is the one RESET_RELEASE leaves after a power-on reset: bring-up has begun, nothing waits, and the stores are in
their canonical form (R3, R539, R542, R558). The configuration space names the device (R6, R331). What the spec leaves open in it is
the model's choice: log entries 3 and 4. -/
def Obligations.ResetState : Prop :=
  State.reset.canon = true ∧ State.reset.pending = [] ∧ devState State.reset = stBRINGUP ∧ rd SYS_BRINGUP_STEP 0 State.reset = 1 ∧
    rd SYS_RESET_POR 0 State.reset = 1 ∧ evtSet 9 State.reset = true ∧ qCount 56 State.reset = 6 ∧ State.reset.now = 0 ∧
    (pciConfig State.reset).vendor = 0x1F3B ∧ (pciConfig State.reset).device = 0x4816 ∧ (∀ s : State, (pciConfig s).revision = rd SYS_ID_STEP_MAJOR 0 s * 16 + rd SYS_ID_STEP_MINOR 0 s) ∧
    ∀ r ∈ regTable, ∀ f ∈ r.fields, ∀ i : Nat, i < r.count → f.key i ≠ evtKey 9 → rd f i State.reset = f.rst i

/-- No command faults or is refused by the model, whatever the state: a step always answers a next state. What the spec leaves open in it
is the model's choice: log entry 7. -/
def Obligations.EveryStepAnswers : Prop := ∀ s : State, stepsOn s

/-- Every step keeps the stores of the register fields, the queues and the Warp store in their canonical form. -/
def Obligations.CanonKept : Prop := ∀ s t : State, s.canon = true → step s = .next t → t.canon = true

/-! ### Two rules as they stand -/

/-- R342: CSR_READ, CSR_WRITE and CSR_RMW complete with BAD_ADDRESS when the offset is 0x6000 or above. PROFILE_SET completes with
BAD_STATE unless every port is STOPPED or GATED and every engine is STOPPED or GATED. (IDLE is the one state R341 lists for PROFILE_SET.) -/
def Obligations.RegisterCommandRefusals : Prop :=
  ∀ (s : State) (tag : Byte) (c : Cmd),
    (∀ x ∈ ([(.csrRead tag, 0x02), (.csrWrite tag, 0x03), (.csrRmw tag, 0x04)] : List (Instr × Nat)), s.starts x.2 tag c → 0x6000 ≤ c.op 0 →
      ∃ t, exec x.1 s = .next t ∧ s.answered t c 0x14 0 0 ∧ s.framed t [.host] []) ∧
    (s.starts 0x0A tag c → devState s = stIDLE →
      ((∃ p : Nat, p < 16 ∧ portSt p s ≠ pSTOPPED ∧ portSt p s ≠ pGATED) ∨
        (∃ l : Nat, l < 32 ∧ engSt (physOf l s) s ≠ eSTOPPED ∧ engSt (physOf l s) s ≠ eGATED) →
        ∃ t, exec (.profileSet tag) s = .next t ∧ s.answered t c 0x12 1 0 ∧ s.framed t [.host] []) ∧
      ((∀ p : Nat, p < 16 → portSt p s = pSTOPPED ∨ portSt p s = pGATED) →
        (∀ l : Nat, l < 32 → engSt (physOf l s) s = eSTOPPED ∨ engSt (physOf l s) s = eGATED) →
        ∃ t, exec (.profileSet tag) s = .next t ∧ cplOf c 0 0 0 ∈ t.host.cplWait ∧ rd SYS_PROFILE_PROFILE 0 t = c.op 0 % 4))

/-- R39: 1.5 s of raw time without an accepted edge while PPS_EN is 1 sets HOLDOVER, sets SLEW to zero, keeps FREQ and raises the holdover
event; the next accepted edge clears HOLDOVER and is treated in the ordinary way, so that an offset larger than STEP_THR steps the
time. What the spec leaves open in it is the model's choice: log entries 6 and 82. -/
def Obligations.HoldoverOfTheTime : Prop :=
  ∀ s : State, rdB SYS_DISC_CTL_PPS_EN 0 s = true →
    (rdB SYS_DISC_STAT_HOLDOVER 0 s = false → ∃ t, exec .ppsHoldover s = .next t ∧ s.tod.lastAccept + 1500000000 ≤ t.now ∧
      rd SYS_DISC_STAT_HOLDOVER 0 t = 1 ∧ t.tod.slew = 0 ∧ rd SYS_DISC_FREQ_FREQ 0 t = rd SYS_DISC_FREQ_FREQ 0 s ∧ evtSet 8 t = true) ∧
    (∀ (k raw u : Nat) (e : Int) (tap : Fin 320), raw = (edgeRaw 16 (maxN s.now k) tap s).toNat → u = ((raw : Int) - rdZ TSU_IN_DELAY 16 s).toNat →
      e = taiOf u s - nearSecond (taiOf u s) → onCalclk 16 (advanceTo k s) = false → s.tsu.last.get 0 16 = 0 ∨ s.tsu.last.get 0 16 + 640 ≤ raw + 1 →
      ppsAccept u s.tod.prevPps s = true → ∃ t, exec (.ppsEdge k tap) s = .next t ∧ rd SYS_DISC_STAT_HOLDOVER 0 t = 0 ∧
        t.tod.lastAccept = (u + 255) / 256 ∧ (s.tod.armed = none → rdZ SYS_DISC_STAT_PHASE_ERR 0 t = satS 32 e) ∧
        (s.tod.armed = none → maxN 100 (rd SYS_DISC_CTL_STEP_THR 0 s) * 256 < e.natAbs → rd SYS_DISC_STAT_STEPPED 0 t = 1 ∧ evtSet 5 t = true ∧
          t.tod.tU = (nearSecond (taiOf u s) : Rat) ∧ t.tod.rawU = u ∧ t.tod.slew = 0))
end

