-- ==== Sys2Proof/Laws/Bits.lean ====
section
/-!
SUPPORT. What setting a bit of a number, cutting one to a width and reading two's complement leave.
-/

set_option autoImplicit false

namespace Sys2Proof.Machine

theorem half_pow {b j : Nat} (h : b < j) (m : Nat) : m / 2 ^ j = m / 2 ^ b / 2 / 2 ^ (j - b - 1) := by
  obtain ⟨k, rfl⟩ := Nat.exists_eq_add_of_lt h
  have : b + k + 1 - b - 1 = k := by omega
  rw [this, show b + k + 1 = b + 1 + k by omega, Nat.pow_add, Nat.pow_succ, ← Nat.div_div_eq_div_mul, ← Nat.div_div_eq_div_mul]

theorem div_add_pow {b j : Nat} (h : j < b) (m : Nat) : (m + 2 ^ b) / 2 ^ j % 2 = m / 2 ^ j % 2 := by
  obtain ⟨k, rfl⟩ := Nat.exists_eq_add_of_lt h
  rw [show 2 ^ (j + k + 1) = 2 ^ j * (2 * 2 ^ k) by rw [Nat.pow_succ, Nat.pow_add]; ring,
    Nat.add_mul_div_left _ _ (Nat.two_pow_pos j)]
  omega

/-- Every bit after one bit is set or cleared. -/
theorem bitOf_setBitTo (n b j : Nat) (v : Bool) : bitOf (setBitTo n b v) j = if j = b then v else bitOf n j := by
  have hp : 0 < 2 ^ b := Nat.two_pow_pos b
  by_cases hb : n / 2 ^ b % 2 = 1
  · have hle : 2 ^ b ≤ n := by
      rcases Nat.lt_or_ge n (2 ^ b) with h | h
      · rw [Nat.div_eq_of_lt h] at hb; omega
      · exact h
    obtain ⟨m, rfl⟩ := Nat.exists_eq_add_of_le' hle
    have hm : m / 2 ^ b % 2 = 0 := by
      rw [Nat.add_div_right _ hp] at hb; omega
    cases v
    · simp only [setBitTo, bitOf, hb, decide_true, if_true, Bool.false_eq_true, if_false, Nat.add_sub_cancel]
      split
      · next h => subst h; simp [hm]
      · next h =>
        rcases Nat.lt_or_gt_of_ne h with h | h
        · rw [div_add_pow h]
        · rw [half_pow h, half_pow h (m + 2 ^ b), Nat.add_div_right _ hp]
          congr 4; omega
    · simp only [setBitTo, bitOf, hb, decide_true, if_true]
      split
      · next h => subst h; simp [Nat.add_div_right _ hp]; omega
      · rfl
  · have hb0 : n / 2 ^ b % 2 = 0 := by omega
    cases v
    · simp only [setBitTo, bitOf, hb0, decide_false, Bool.false_eq_true, if_false, Nat.zero_ne_one]
      split
      · next h => subst h; simp [hb0]
      · rfl
    · simp only [setBitTo, bitOf, hb0, decide_false, Bool.false_eq_true, if_false, if_true, Nat.zero_ne_one]
      split
      · next h => subst h; rw [Nat.add_div_right _ hp]; simp; omega
      · next h =>
        rcases Nat.lt_or_gt_of_ne h with h | h
        · rw [div_add_pow h]
        · rw [half_pow h, half_pow h n, Nat.add_div_right _ hp]
          congr 4; omega

theorem ux_lt (w : Nat) (z : Int) : ux w z < 2 ^ w := by
  have hp : (0 : Int) < 2 ^ w := by positivity
  have h1 := Int.emod_nonneg z (ne_of_gt hp)
  have h2 := Int.emod_lt_of_pos z hp
  simp only [ux]
  have : ((z % 2 ^ w).toNat : Int) < ((2 ^ w : Nat) : Int) := by push_cast; omega
  exact_mod_cast this

@[simp] theorem ux_mod (w : Nat) (z : Int) : ux w z % 2 ^ w = ux w z := Nat.mod_eq_of_lt (ux_lt w z)

/-- Cutting a two's-complement number back gives the number cut. -/
theorem ux_sx {w : Nat} (n : Nat) : ux w (sx w n) = n % 2 ^ w := by
  have hp : (0 : Int) < 2 ^ w := by positivity
  have h0 : n % 2 ^ w < 2 ^ w := Nat.mod_lt _ (Nat.two_pow_pos w)
  have h1 : (((n % 2 ^ w : Nat) : Int)) < 2 ^ w := by exact_mod_cast h0
  simp only [ux, sx]
  split
  · rw [Int.emod_eq_of_lt (by omega) h1]; exact Int.toNat_natCast _
  · rw [Int.sub_emod_right, Int.emod_eq_of_lt (by omega) h1]; exact Int.toNat_natCast _

/-- Saturation as a minimum and a maximum. -/
theorem satS_eq {w : Nat} (z : Int) : satS w z = max (-(2 ^ (w - 1) : Int)) (min ((2 ^ (w - 1) : Int) - 1) z) := by
  have hp : (0 : Int) < 2 ^ (w - 1) := by positivity
  simp only [satS]
  split
  · omega
  · split <;> omega

end Sys2Proof.Machine
end

