-- ==== Sys2Proof/Laws/Smap.lean ====
section
/-!
SUPPORT. Sparse storage: a read after a write, and that every write keeps the canonical form.
-/

set_option autoImplicit false

namespace Sys2Proof.Machine

variable {α : Type}

theorem Smap.find?_erase_same (m : Smap α) (k : Nat) : Smap.find? (Smap.erase m k) k = none := by
  induction m with
  | nil => rfl
  | cons e t ih =>
    obtain ⟨k', v⟩ := e
    by_cases h : k' = k <;> simp [Smap.erase, Smap.find?, h, ih]

theorem Smap.find?_erase_other (m : Smap α) {k j : Nat} (h : j ≠ k) : Smap.find? (Smap.erase m k) j = Smap.find? m j := by
  induction m with
  | nil => rfl
  | cons e t ih =>
    obtain ⟨k', v⟩ := e
    by_cases h1 : k' = k
    · subst h1
      have : k' ≠ j := fun e => h e.symm
      simp [Smap.erase, Smap.find?, ih, this]
    · simp [Smap.erase, Smap.find?, h1, ih]

theorem Smap.find?_insert_same (m : Smap α) (k : Nat) (v : α) (h : Smap.find? m k = none) :
    Smap.find? (Smap.insert m k v) k = some v := by
  induction m with
  | nil => simp [Smap.insert, Smap.find?]
  | cons e t ih =>
    obtain ⟨k', v'⟩ := e
    have h1 : k' ≠ k := by
      intro e
      simp [Smap.find?, e] at h
    have h2 : Smap.find? t k = none := by simpa [Smap.find?, h1] using h
    by_cases h3 : k < k'
    · simp [Smap.insert, Smap.find?, h3]
    · simp [Smap.insert, Smap.find?, h3, h1, ih h2]

theorem Smap.find?_insert_other (m : Smap α) {k j : Nat} (v : α) (h : j ≠ k) :
    Smap.find? (Smap.insert m k v) j = Smap.find? m j := by
  have hk : k ≠ j := fun e => h e.symm
  induction m with
  | nil => simp [Smap.insert, Smap.find?, hk]
  | cons e t ih =>
    obtain ⟨k', v'⟩ := e
    by_cases h3 : k < k'
    · simp [Smap.insert, Smap.find?, h3, hk]
    · simp [Smap.insert, Smap.find?, h3, ih]

variable [DecidableEq α]

/-- A read of the key that was written gives the value written. -/
@[simp] theorem Smap.get_put_same (d : α) (m : Smap α) (k : Nat) (v : α) : Smap.get d (Smap.put d m k v) k = v := by
  by_cases h : v = d
  · simp [Smap.get, Smap.put, h, Smap.find?_erase_same]
  · simp [Smap.get, Smap.put, h, Smap.find?_insert_same _ _ _ (Smap.find?_erase_same m k)]

/-- A read of any other key, whatever it reads as unlisted, gives what it gave before. -/
theorem Smap.get_put_other (d d' : α) (m : Smap α) {k j : Nat} (v : α) (h : j ≠ k) :
    Smap.get d' (Smap.put d m k v) j = Smap.get d' m j := by
  by_cases h1 : v = d
  · simp [Smap.get, Smap.put, h1, Smap.find?_erase_other _ h]
  · simp [Smap.get, Smap.put, h1, Smap.find?_insert_other _ _ h, Smap.find?_erase_other _ h]

/-! ### The canonical form -/

omit [DecidableEq α] in
theorem Smap.rising_weaken {b c : Nat} (m : Smap α) (h : b ≤ c) (hr : Smap.rising (some c) m = true) :
    Smap.rising (some b) m = true := by
  cases m with
  | nil => rfl
  | cons e t =>
    obtain ⟨k, v⟩ := e
    simp only [Smap.rising, Bool.and_eq_true, decide_eq_true_eq] at hr ⊢
    exact ⟨by omega, hr.2⟩

omit [DecidableEq α] in
theorem Smap.rising_tail {o : Option Nat} {k : Nat} {v : α} (t : Smap α) (h : Smap.rising o ((k, v) :: t) = true) :
    Smap.rising (some k) t = true := by
  cases o with
  | none => simpa [Smap.rising] using h
  | some b => simp only [Smap.rising, Bool.and_eq_true] at h; exact h.2

omit [DecidableEq α] in
theorem Smap.rising_bound {b k : Nat} {v : α} (t : Smap α) (h : Smap.rising (some b) ((k, v) :: t) = true) : b < k := by
  simp only [Smap.rising, Bool.and_eq_true, decide_eq_true_eq] at h; exact h.1

omit [DecidableEq α] in
theorem Smap.rising_erase (m : Smap α) (k : Nat) (o : Option Nat) (h : Smap.rising o m = true) :
    Smap.rising o (Smap.erase m k) = true := by
  induction m generalizing o with
  | nil => exact h
  | cons e t ih =>
    obtain ⟨k', v⟩ := e
    have ht := ih (some k') (Smap.rising_tail t h)
    by_cases h1 : k' = k
    · simp only [Smap.erase, h1, if_true]
      cases o with
      | none =>
        have hw := ih none (by
          have := Smap.rising_tail t h
          cases t with
          | nil => rfl
          | cons e2 t2 => obtain ⟨k2, v2⟩ := e2; exact Smap.rising_tail t2 this)
        exact hw
      | some b =>
        have := Smap.rising_bound t h
        rw [h1] at ht this
        exact Smap.rising_weaken _ (by omega) ht
    · simp only [Smap.erase, h1, if_false]
      cases o with
      | none => simpa [Smap.rising] using ht
      | some b =>
        simp only [Smap.rising, Bool.and_eq_true, decide_eq_true_eq]
        exact ⟨Smap.rising_bound t h, ht⟩

omit [DecidableEq α] in
theorem Smap.rising_insert (m : Smap α) (k : Nat) (v : α) (o : Option Nat) (h : Smap.rising o m = true)
    (hf : Smap.find? m k = none) (ho : ∀ b, o = some b → b < k) : Smap.rising o (Smap.insert m k v) = true := by
  induction m generalizing o with
  | nil => cases o with
    | none => rfl
    | some b => simp [Smap.insert, Smap.rising, ho b rfl]
  | cons e t ih =>
    obtain ⟨k', v'⟩ := e
    have h1 : k' ≠ k := by
      intro e
      simp [Smap.find?, e] at hf
    have h2 : Smap.find? t k = none := by simpa [Smap.find?, h1] using hf
    by_cases h3 : k < k'
    · simp only [Smap.insert, h3, if_true]
      have ht := Smap.rising_tail t h
      cases o with
      | none => simp [Smap.rising, h3, ht]
      | some b => simp [Smap.rising, h3, ht, ho b rfl]
    · simp only [Smap.insert, h3, if_false]
      have hlt : k' < k := by omega
      have ht := ih (some k') (Smap.rising_tail t h) h2 (by intro b hb; cases hb; exact hlt)
      cases o with
      | none => simpa [Smap.rising] using ht
      | some b => simp [Smap.rising, Smap.rising_bound t h, ht]

/-- A write keeps the keys rising. -/
theorem Smap.rising_put (d : α) (m : Smap α) (k : Nat) (v : α) (h : Smap.rising none m = true) :
    Smap.rising none (Smap.put d m k v) = true := by
  unfold Smap.put
  split
  · exact Smap.rising_erase m k none h
  · exact Smap.rising_insert _ k v none (Smap.rising_erase m k none h) (Smap.find?_erase_same m k) (by intro b hb; cases hb)

omit [DecidableEq α] in
theorem Smap.all_erase (p : Nat × α → Bool) (m : Smap α) (k : Nat) (h : m.all p = true) : (Smap.erase m k).all p = true := by
  induction m with
  | nil => rfl
  | cons e t ih =>
    obtain ⟨k', v⟩ := e
    simp only [List.all_cons, Bool.and_eq_true] at h
    by_cases h1 : k' = k <;> simp [Smap.erase, h1, ih h.2, h.1]

omit [DecidableEq α] in
theorem Smap.all_insert (p : Nat × α → Bool) (m : Smap α) (k : Nat) (v : α) (h : m.all p = true) (hv : p (k, v) = true) :
    (Smap.insert m k v).all p = true := by
  induction m with
  | nil => simp [Smap.insert, hv]
  | cons e t ih =>
    obtain ⟨k', v'⟩ := e
    simp only [List.all_cons, Bool.and_eq_true] at h
    by_cases h3 : k < k'
    · simp only [Smap.insert, h3, if_true, List.all_cons, Bool.and_eq_true]
      exact ⟨hv, h.1, h.2⟩
    · simp only [Smap.insert, h3, if_false, List.all_cons, Bool.and_eq_true]
      exact ⟨h.1, ih h.2⟩

/-- A write keeps the canonical form. -/
theorem Smap.wf_put (d : α) (m : Smap α) (k : Nat) (v : α) (h : Smap.wf d m = true) : Smap.wf d (Smap.put d m k v) = true := by
  simp only [Smap.wf, Bool.and_eq_true] at h ⊢
  refine ⟨Smap.rising_put d m k v h.1, ?_⟩
  unfold Smap.put
  split
  · exact Smap.all_erase _ m k h.2
  · next hv => exact Smap.all_insert _ _ k v (Smap.all_erase _ m k h.2) (by simpa using hv)

end Sys2Proof.Machine
end

