-- ==== Sys2Proof/Laws/State.lean ====
section
/-!
SUPPORT. What each named update of State leaves as it is: one lemma per field and update, each true by unfolding.
-/

set_option autoImplicit false

namespace Sys2Proof.Machine

variable (s : State)

@[simp] theorem wr_pending (f : Fld) (i v : Nat) : (wr f i v s).pending = s.pending := rfl
@[simp] theorem wr_now (f : Fld) (i v : Nat) : (wr f i v s).now = s.now := rfl
@[simp] theorem wr_free (f : Fld) (i v : Nat) : (wr f i v s).free = s.free := rfl
@[simp] theorem wr_inf (f : Fld) (i v : Nat) : (wr f i v s).inf = s.inf := rfl
@[simp] theorem wr_out (f : Fld) (i v : Nat) : (wr f i v s).out = s.out := rfl
@[simp] theorem wr_tod (f : Fld) (i v : Nat) : (wr f i v s).tod = s.tod := rfl
@[simp] theorem wr_ports (f : Fld) (i v : Nat) : (wr f i v s).ports = s.ports := rfl
@[simp] theorem wr_reed (f : Fld) (i v : Nat) : (wr f i v s).reed = s.reed := rfl
@[simp] theorem wr_gauge (f : Fld) (i v : Nat) : (wr f i v s).gauge = s.gauge := rfl
@[simp] theorem wr_heddle (f : Fld) (i v : Nat) : (wr f i v s).heddle = s.heddle := rfl
@[simp] theorem wr_spc (f : Fld) (i v : Nat) : (wr f i v s).spc = s.spc := rfl
@[simp] theorem wr_trd (f : Fld) (i v : Nat) : (wr f i v s).trd = s.trd := rfl
@[simp] theorem wr_src (f : Fld) (i v : Nat) : (wr f i v s).src = s.src := rfl
@[simp] theorem wr_cal (f : Fld) (i v : Nat) : (wr f i v s).cal = s.cal := rfl
@[simp] theorem wr_warp (f : Fld) (i v : Nat) : (wr f i v s).warp = s.warp := rfl
@[simp] theorem wr_queues (f : Fld) (i v : Nat) : (wr f i v s).queues = s.queues := rfl
@[simp] theorem wr_host (f : Fld) (i v : Nat) : (wr f i v s).host = s.host := rfl
@[simp] theorem wr_rings (f : Fld) (i v : Nat) : (wr f i v s).rings = s.rings := rfl
@[simp] theorem wr_sht (f : Fld) (i v : Nat) : (wr f i v s).sht = s.sht := rfl
@[simp] theorem wr_dram (f : Fld) (i v : Nat) : (wr f i v s).dram = s.dram := rfl
@[simp] theorem wr_tsu (f : Fld) (i v : Nat) : (wr f i v s).tsu = s.tsu := rfl
@[simp] theorem wr_anc (f : Fld) (i v : Nat) : (wr f i v s).anc = s.anc := rfl
@[simp] theorem wr_bob (f : Fld) (i v : Nat) : (wr f i v s).bob = s.bob := rfl
@[simp] theorem wr_sys (f : Fld) (i v : Nat) : (wr f i v s).sys = s.sys := rfl

@[simp] theorem wrB_pending (f : Fld) (i : Nat) (b : Bool) : (wrB f i b s).pending = s.pending := rfl
@[simp] theorem wrB_now (f : Fld) (i : Nat) (b : Bool) : (wrB f i b s).now = s.now := rfl
@[simp] theorem wrB_free (f : Fld) (i : Nat) (b : Bool) : (wrB f i b s).free = s.free := rfl
@[simp] theorem wrB_inf (f : Fld) (i : Nat) (b : Bool) : (wrB f i b s).inf = s.inf := rfl
@[simp] theorem wrB_out (f : Fld) (i : Nat) (b : Bool) : (wrB f i b s).out = s.out := rfl
@[simp] theorem wrB_tod (f : Fld) (i : Nat) (b : Bool) : (wrB f i b s).tod = s.tod := rfl
@[simp] theorem wrB_ports (f : Fld) (i : Nat) (b : Bool) : (wrB f i b s).ports = s.ports := rfl
@[simp] theorem wrB_reed (f : Fld) (i : Nat) (b : Bool) : (wrB f i b s).reed = s.reed := rfl
@[simp] theorem wrB_gauge (f : Fld) (i : Nat) (b : Bool) : (wrB f i b s).gauge = s.gauge := rfl
@[simp] theorem wrB_heddle (f : Fld) (i : Nat) (b : Bool) : (wrB f i b s).heddle = s.heddle := rfl
@[simp] theorem wrB_spc (f : Fld) (i : Nat) (b : Bool) : (wrB f i b s).spc = s.spc := rfl
@[simp] theorem wrB_trd (f : Fld) (i : Nat) (b : Bool) : (wrB f i b s).trd = s.trd := rfl
@[simp] theorem wrB_src (f : Fld) (i : Nat) (b : Bool) : (wrB f i b s).src = s.src := rfl
@[simp] theorem wrB_cal (f : Fld) (i : Nat) (b : Bool) : (wrB f i b s).cal = s.cal := rfl
@[simp] theorem wrB_warp (f : Fld) (i : Nat) (b : Bool) : (wrB f i b s).warp = s.warp := rfl
@[simp] theorem wrB_queues (f : Fld) (i : Nat) (b : Bool) : (wrB f i b s).queues = s.queues := rfl
@[simp] theorem wrB_host (f : Fld) (i : Nat) (b : Bool) : (wrB f i b s).host = s.host := rfl
@[simp] theorem wrB_rings (f : Fld) (i : Nat) (b : Bool) : (wrB f i b s).rings = s.rings := rfl
@[simp] theorem wrB_sht (f : Fld) (i : Nat) (b : Bool) : (wrB f i b s).sht = s.sht := rfl
@[simp] theorem wrB_dram (f : Fld) (i : Nat) (b : Bool) : (wrB f i b s).dram = s.dram := rfl
@[simp] theorem wrB_tsu (f : Fld) (i : Nat) (b : Bool) : (wrB f i b s).tsu = s.tsu := rfl
@[simp] theorem wrB_anc (f : Fld) (i : Nat) (b : Bool) : (wrB f i b s).anc = s.anc := rfl
@[simp] theorem wrB_bob (f : Fld) (i : Nat) (b : Bool) : (wrB f i b s).bob = s.bob := rfl
@[simp] theorem wrB_sys (f : Fld) (i : Nat) (b : Bool) : (wrB f i b s).sys = s.sys := rfl

@[simp] theorem wrZ_pending (f : Fld) (i : Nat) (z : Int) : (wrZ f i z s).pending = s.pending := rfl
@[simp] theorem wrZ_now (f : Fld) (i : Nat) (z : Int) : (wrZ f i z s).now = s.now := rfl
@[simp] theorem wrZ_free (f : Fld) (i : Nat) (z : Int) : (wrZ f i z s).free = s.free := rfl
@[simp] theorem wrZ_inf (f : Fld) (i : Nat) (z : Int) : (wrZ f i z s).inf = s.inf := rfl
@[simp] theorem wrZ_out (f : Fld) (i : Nat) (z : Int) : (wrZ f i z s).out = s.out := rfl
@[simp] theorem wrZ_tod (f : Fld) (i : Nat) (z : Int) : (wrZ f i z s).tod = s.tod := rfl
@[simp] theorem wrZ_ports (f : Fld) (i : Nat) (z : Int) : (wrZ f i z s).ports = s.ports := rfl
@[simp] theorem wrZ_reed (f : Fld) (i : Nat) (z : Int) : (wrZ f i z s).reed = s.reed := rfl
@[simp] theorem wrZ_gauge (f : Fld) (i : Nat) (z : Int) : (wrZ f i z s).gauge = s.gauge := rfl
@[simp] theorem wrZ_heddle (f : Fld) (i : Nat) (z : Int) : (wrZ f i z s).heddle = s.heddle := rfl
@[simp] theorem wrZ_spc (f : Fld) (i : Nat) (z : Int) : (wrZ f i z s).spc = s.spc := rfl
@[simp] theorem wrZ_trd (f : Fld) (i : Nat) (z : Int) : (wrZ f i z s).trd = s.trd := rfl
@[simp] theorem wrZ_src (f : Fld) (i : Nat) (z : Int) : (wrZ f i z s).src = s.src := rfl
@[simp] theorem wrZ_cal (f : Fld) (i : Nat) (z : Int) : (wrZ f i z s).cal = s.cal := rfl
@[simp] theorem wrZ_warp (f : Fld) (i : Nat) (z : Int) : (wrZ f i z s).warp = s.warp := rfl
@[simp] theorem wrZ_queues (f : Fld) (i : Nat) (z : Int) : (wrZ f i z s).queues = s.queues := rfl
@[simp] theorem wrZ_host (f : Fld) (i : Nat) (z : Int) : (wrZ f i z s).host = s.host := rfl
@[simp] theorem wrZ_rings (f : Fld) (i : Nat) (z : Int) : (wrZ f i z s).rings = s.rings := rfl
@[simp] theorem wrZ_sht (f : Fld) (i : Nat) (z : Int) : (wrZ f i z s).sht = s.sht := rfl
@[simp] theorem wrZ_dram (f : Fld) (i : Nat) (z : Int) : (wrZ f i z s).dram = s.dram := rfl
@[simp] theorem wrZ_tsu (f : Fld) (i : Nat) (z : Int) : (wrZ f i z s).tsu = s.tsu := rfl
@[simp] theorem wrZ_anc (f : Fld) (i : Nat) (z : Int) : (wrZ f i z s).anc = s.anc := rfl
@[simp] theorem wrZ_bob (f : Fld) (i : Nat) (z : Int) : (wrZ f i z s).bob = s.bob := rfl
@[simp] theorem wrZ_sys (f : Fld) (i : Nat) (z : Int) : (wrZ f i z s).sys = s.sys := rfl

@[simp] theorem wrI_pending (f : Fld) (i v : Nat) : (wrI f i v s).pending = s.pending := rfl
@[simp] theorem wrI_now (f : Fld) (i v : Nat) : (wrI f i v s).now = s.now := rfl
@[simp] theorem wrI_free (f : Fld) (i v : Nat) : (wrI f i v s).free = s.free := rfl
@[simp] theorem wrI_csr (f : Fld) (i v : Nat) : (wrI f i v s).csr = s.csr := rfl
@[simp] theorem wrI_out (f : Fld) (i v : Nat) : (wrI f i v s).out = s.out := rfl
@[simp] theorem wrI_tod (f : Fld) (i v : Nat) : (wrI f i v s).tod = s.tod := rfl
@[simp] theorem wrI_ports (f : Fld) (i v : Nat) : (wrI f i v s).ports = s.ports := rfl
@[simp] theorem wrI_reed (f : Fld) (i v : Nat) : (wrI f i v s).reed = s.reed := rfl
@[simp] theorem wrI_gauge (f : Fld) (i v : Nat) : (wrI f i v s).gauge = s.gauge := rfl
@[simp] theorem wrI_heddle (f : Fld) (i v : Nat) : (wrI f i v s).heddle = s.heddle := rfl
@[simp] theorem wrI_spc (f : Fld) (i v : Nat) : (wrI f i v s).spc = s.spc := rfl
@[simp] theorem wrI_trd (f : Fld) (i v : Nat) : (wrI f i v s).trd = s.trd := rfl
@[simp] theorem wrI_src (f : Fld) (i v : Nat) : (wrI f i v s).src = s.src := rfl
@[simp] theorem wrI_cal (f : Fld) (i v : Nat) : (wrI f i v s).cal = s.cal := rfl
@[simp] theorem wrI_warp (f : Fld) (i v : Nat) : (wrI f i v s).warp = s.warp := rfl
@[simp] theorem wrI_queues (f : Fld) (i v : Nat) : (wrI f i v s).queues = s.queues := rfl
@[simp] theorem wrI_host (f : Fld) (i v : Nat) : (wrI f i v s).host = s.host := rfl
@[simp] theorem wrI_rings (f : Fld) (i v : Nat) : (wrI f i v s).rings = s.rings := rfl
@[simp] theorem wrI_sht (f : Fld) (i v : Nat) : (wrI f i v s).sht = s.sht := rfl
@[simp] theorem wrI_dram (f : Fld) (i v : Nat) : (wrI f i v s).dram = s.dram := rfl
@[simp] theorem wrI_tsu (f : Fld) (i v : Nat) : (wrI f i v s).tsu = s.tsu := rfl
@[simp] theorem wrI_anc (f : Fld) (i v : Nat) : (wrI f i v s).anc = s.anc := rfl
@[simp] theorem wrI_bob (f : Fld) (i v : Nat) : (wrI f i v s).bob = s.bob := rfl
@[simp] theorem wrI_sys (f : Fld) (i v : Nat) : (wrI f i v s).sys = s.sys := rfl

@[simp] theorem enforce_pending (f : Fld) (i : Nat) : (enforce f i s).pending = s.pending := rfl
@[simp] theorem enforce_now (f : Fld) (i : Nat) : (enforce f i s).now = s.now := rfl
@[simp] theorem enforce_free (f : Fld) (i : Nat) : (enforce f i s).free = s.free := rfl
@[simp] theorem enforce_csr (f : Fld) (i : Nat) : (enforce f i s).csr = s.csr := rfl
@[simp] theorem enforce_out (f : Fld) (i : Nat) : (enforce f i s).out = s.out := rfl
@[simp] theorem enforce_tod (f : Fld) (i : Nat) : (enforce f i s).tod = s.tod := rfl
@[simp] theorem enforce_ports (f : Fld) (i : Nat) : (enforce f i s).ports = s.ports := rfl
@[simp] theorem enforce_reed (f : Fld) (i : Nat) : (enforce f i s).reed = s.reed := rfl
@[simp] theorem enforce_gauge (f : Fld) (i : Nat) : (enforce f i s).gauge = s.gauge := rfl
@[simp] theorem enforce_heddle (f : Fld) (i : Nat) : (enforce f i s).heddle = s.heddle := rfl
@[simp] theorem enforce_spc (f : Fld) (i : Nat) : (enforce f i s).spc = s.spc := rfl
@[simp] theorem enforce_trd (f : Fld) (i : Nat) : (enforce f i s).trd = s.trd := rfl
@[simp] theorem enforce_src (f : Fld) (i : Nat) : (enforce f i s).src = s.src := rfl
@[simp] theorem enforce_cal (f : Fld) (i : Nat) : (enforce f i s).cal = s.cal := rfl
@[simp] theorem enforce_warp (f : Fld) (i : Nat) : (enforce f i s).warp = s.warp := rfl
@[simp] theorem enforce_queues (f : Fld) (i : Nat) : (enforce f i s).queues = s.queues := rfl
@[simp] theorem enforce_host (f : Fld) (i : Nat) : (enforce f i s).host = s.host := rfl
@[simp] theorem enforce_rings (f : Fld) (i : Nat) : (enforce f i s).rings = s.rings := rfl
@[simp] theorem enforce_sht (f : Fld) (i : Nat) : (enforce f i s).sht = s.sht := rfl
@[simp] theorem enforce_dram (f : Fld) (i : Nat) : (enforce f i s).dram = s.dram := rfl
@[simp] theorem enforce_tsu (f : Fld) (i : Nat) : (enforce f i s).tsu = s.tsu := rfl
@[simp] theorem enforce_anc (f : Fld) (i : Nat) : (enforce f i s).anc = s.anc := rfl
@[simp] theorem enforce_bob (f : Fld) (i : Nat) : (enforce f i s).bob = s.bob := rfl
@[simp] theorem enforce_sys (f : Fld) (i : Nat) : (enforce f i s).sys = s.sys := rfl

@[simp] theorem advanceTo_pending (t : Nat) : (advanceTo t s).pending = s.pending := rfl
@[simp] theorem advanceTo_free (t : Nat) : (advanceTo t s).free = s.free := rfl
@[simp] theorem advanceTo_csr (t : Nat) : (advanceTo t s).csr = s.csr := rfl
@[simp] theorem advanceTo_inf (t : Nat) : (advanceTo t s).inf = s.inf := rfl
@[simp] theorem advanceTo_out (t : Nat) : (advanceTo t s).out = s.out := rfl
@[simp] theorem advanceTo_tod (t : Nat) : (advanceTo t s).tod = s.tod := rfl
@[simp] theorem advanceTo_ports (t : Nat) : (advanceTo t s).ports = s.ports := rfl
@[simp] theorem advanceTo_reed (t : Nat) : (advanceTo t s).reed = s.reed := rfl
@[simp] theorem advanceTo_gauge (t : Nat) : (advanceTo t s).gauge = s.gauge := rfl
@[simp] theorem advanceTo_heddle (t : Nat) : (advanceTo t s).heddle = s.heddle := rfl
@[simp] theorem advanceTo_spc (t : Nat) : (advanceTo t s).spc = s.spc := rfl
@[simp] theorem advanceTo_trd (t : Nat) : (advanceTo t s).trd = s.trd := rfl
@[simp] theorem advanceTo_src (t : Nat) : (advanceTo t s).src = s.src := rfl
@[simp] theorem advanceTo_cal (t : Nat) : (advanceTo t s).cal = s.cal := rfl
@[simp] theorem advanceTo_warp (t : Nat) : (advanceTo t s).warp = s.warp := rfl
@[simp] theorem advanceTo_queues (t : Nat) : (advanceTo t s).queues = s.queues := rfl
@[simp] theorem advanceTo_host (t : Nat) : (advanceTo t s).host = s.host := rfl
@[simp] theorem advanceTo_rings (t : Nat) : (advanceTo t s).rings = s.rings := rfl
@[simp] theorem advanceTo_sht (t : Nat) : (advanceTo t s).sht = s.sht := rfl
@[simp] theorem advanceTo_dram (t : Nat) : (advanceTo t s).dram = s.dram := rfl
@[simp] theorem advanceTo_tsu (t : Nat) : (advanceTo t s).tsu = s.tsu := rfl
@[simp] theorem advanceTo_anc (t : Nat) : (advanceTo t s).anc = s.anc := rfl
@[simp] theorem advanceTo_bob (t : Nat) : (advanceTo t s).bob = s.bob := rfl
@[simp] theorem advanceTo_sys (t : Nat) : (advanceTo t s).sys = s.sys := rfl

@[simp] theorem idle_pending  : (idle s).pending = s.pending := rfl
@[simp] theorem idle_free  : (idle s).free = s.free := rfl
@[simp] theorem idle_csr  : (idle s).csr = s.csr := rfl
@[simp] theorem idle_inf  : (idle s).inf = s.inf := rfl
@[simp] theorem idle_out  : (idle s).out = s.out := rfl
@[simp] theorem idle_tod  : (idle s).tod = s.tod := rfl
@[simp] theorem idle_ports  : (idle s).ports = s.ports := rfl
@[simp] theorem idle_reed  : (idle s).reed = s.reed := rfl
@[simp] theorem idle_gauge  : (idle s).gauge = s.gauge := rfl
@[simp] theorem idle_heddle  : (idle s).heddle = s.heddle := rfl
@[simp] theorem idle_spc  : (idle s).spc = s.spc := rfl
@[simp] theorem idle_trd  : (idle s).trd = s.trd := rfl
@[simp] theorem idle_src  : (idle s).src = s.src := rfl
@[simp] theorem idle_cal  : (idle s).cal = s.cal := rfl
@[simp] theorem idle_warp  : (idle s).warp = s.warp := rfl
@[simp] theorem idle_queues  : (idle s).queues = s.queues := rfl
@[simp] theorem idle_host  : (idle s).host = s.host := rfl
@[simp] theorem idle_rings  : (idle s).rings = s.rings := rfl
@[simp] theorem idle_sht  : (idle s).sht = s.sht := rfl
@[simp] theorem idle_dram  : (idle s).dram = s.dram := rfl
@[simp] theorem idle_tsu  : (idle s).tsu = s.tsu := rfl
@[simp] theorem idle_anc  : (idle s).anc = s.anc := rfl
@[simp] theorem idle_bob  : (idle s).bob = s.bob := rfl
@[simp] theorem idle_sys  : (idle s).sys = s.sys := rfl

@[simp] theorem emit_pending (o : Output) : (emit o s).pending = s.pending := rfl
@[simp] theorem emit_now (o : Output) : (emit o s).now = s.now := rfl
@[simp] theorem emit_free (o : Output) : (emit o s).free = s.free := rfl
@[simp] theorem emit_csr (o : Output) : (emit o s).csr = s.csr := rfl
@[simp] theorem emit_inf (o : Output) : (emit o s).inf = s.inf := rfl
@[simp] theorem emit_tod (o : Output) : (emit o s).tod = s.tod := rfl
@[simp] theorem emit_ports (o : Output) : (emit o s).ports = s.ports := rfl
@[simp] theorem emit_reed (o : Output) : (emit o s).reed = s.reed := rfl
@[simp] theorem emit_gauge (o : Output) : (emit o s).gauge = s.gauge := rfl
@[simp] theorem emit_heddle (o : Output) : (emit o s).heddle = s.heddle := rfl
@[simp] theorem emit_spc (o : Output) : (emit o s).spc = s.spc := rfl
@[simp] theorem emit_trd (o : Output) : (emit o s).trd = s.trd := rfl
@[simp] theorem emit_src (o : Output) : (emit o s).src = s.src := rfl
@[simp] theorem emit_cal (o : Output) : (emit o s).cal = s.cal := rfl
@[simp] theorem emit_warp (o : Output) : (emit o s).warp = s.warp := rfl
@[simp] theorem emit_queues (o : Output) : (emit o s).queues = s.queues := rfl
@[simp] theorem emit_host (o : Output) : (emit o s).host = s.host := rfl
@[simp] theorem emit_rings (o : Output) : (emit o s).rings = s.rings := rfl
@[simp] theorem emit_sht (o : Output) : (emit o s).sht = s.sht := rfl
@[simp] theorem emit_dram (o : Output) : (emit o s).dram = s.dram := rfl
@[simp] theorem emit_tsu (o : Output) : (emit o s).tsu = s.tsu := rfl
@[simp] theorem emit_anc (o : Output) : (emit o s).anc = s.anc := rfl
@[simp] theorem emit_bob (o : Output) : (emit o s).bob = s.bob := rfl
@[simp] theorem emit_sys (o : Output) : (emit o s).sys = s.sys := rfl

@[simp] theorem setMsix_pending (v : Nat) (m : MsixVec) : (setMsix v m s).pending = s.pending := rfl
@[simp] theorem setMsix_now (v : Nat) (m : MsixVec) : (setMsix v m s).now = s.now := rfl
@[simp] theorem setMsix_free (v : Nat) (m : MsixVec) : (setMsix v m s).free = s.free := rfl
@[simp] theorem setMsix_csr (v : Nat) (m : MsixVec) : (setMsix v m s).csr = s.csr := rfl
@[simp] theorem setMsix_inf (v : Nat) (m : MsixVec) : (setMsix v m s).inf = s.inf := rfl
@[simp] theorem setMsix_out (v : Nat) (m : MsixVec) : (setMsix v m s).out = s.out := rfl
@[simp] theorem setMsix_tod (v : Nat) (m : MsixVec) : (setMsix v m s).tod = s.tod := rfl
@[simp] theorem setMsix_ports (v : Nat) (m : MsixVec) : (setMsix v m s).ports = s.ports := rfl
@[simp] theorem setMsix_reed (v : Nat) (m : MsixVec) : (setMsix v m s).reed = s.reed := rfl
@[simp] theorem setMsix_gauge (v : Nat) (m : MsixVec) : (setMsix v m s).gauge = s.gauge := rfl
@[simp] theorem setMsix_heddle (v : Nat) (m : MsixVec) : (setMsix v m s).heddle = s.heddle := rfl
@[simp] theorem setMsix_spc (v : Nat) (m : MsixVec) : (setMsix v m s).spc = s.spc := rfl
@[simp] theorem setMsix_trd (v : Nat) (m : MsixVec) : (setMsix v m s).trd = s.trd := rfl
@[simp] theorem setMsix_src (v : Nat) (m : MsixVec) : (setMsix v m s).src = s.src := rfl
@[simp] theorem setMsix_cal (v : Nat) (m : MsixVec) : (setMsix v m s).cal = s.cal := rfl
@[simp] theorem setMsix_warp (v : Nat) (m : MsixVec) : (setMsix v m s).warp = s.warp := rfl
@[simp] theorem setMsix_queues (v : Nat) (m : MsixVec) : (setMsix v m s).queues = s.queues := rfl
@[simp] theorem setMsix_rings (v : Nat) (m : MsixVec) : (setMsix v m s).rings = s.rings := rfl
@[simp] theorem setMsix_sht (v : Nat) (m : MsixVec) : (setMsix v m s).sht = s.sht := rfl
@[simp] theorem setMsix_dram (v : Nat) (m : MsixVec) : (setMsix v m s).dram = s.dram := rfl
@[simp] theorem setMsix_tsu (v : Nat) (m : MsixVec) : (setMsix v m s).tsu = s.tsu := rfl
@[simp] theorem setMsix_anc (v : Nat) (m : MsixVec) : (setMsix v m s).anc = s.anc := rfl
@[simp] theorem setMsix_bob (v : Nat) (m : MsixVec) : (setMsix v m s).bob = s.bob := rfl
@[simp] theorem setMsix_sys (v : Nat) (m : MsixVec) : (setMsix v m s).sys = s.sys := rfl

@[simp] theorem setQueue_pending (q : Nat) (w : WQueue) : (setQueue q w s).pending = s.pending := rfl
@[simp] theorem setQueue_now (q : Nat) (w : WQueue) : (setQueue q w s).now = s.now := rfl
@[simp] theorem setQueue_free (q : Nat) (w : WQueue) : (setQueue q w s).free = s.free := rfl
@[simp] theorem setQueue_csr (q : Nat) (w : WQueue) : (setQueue q w s).csr = s.csr := rfl
@[simp] theorem setQueue_inf (q : Nat) (w : WQueue) : (setQueue q w s).inf = s.inf := rfl
@[simp] theorem setQueue_out (q : Nat) (w : WQueue) : (setQueue q w s).out = s.out := rfl
@[simp] theorem setQueue_tod (q : Nat) (w : WQueue) : (setQueue q w s).tod = s.tod := rfl
@[simp] theorem setQueue_ports (q : Nat) (w : WQueue) : (setQueue q w s).ports = s.ports := rfl
@[simp] theorem setQueue_reed (q : Nat) (w : WQueue) : (setQueue q w s).reed = s.reed := rfl
@[simp] theorem setQueue_gauge (q : Nat) (w : WQueue) : (setQueue q w s).gauge = s.gauge := rfl
@[simp] theorem setQueue_heddle (q : Nat) (w : WQueue) : (setQueue q w s).heddle = s.heddle := rfl
@[simp] theorem setQueue_spc (q : Nat) (w : WQueue) : (setQueue q w s).spc = s.spc := rfl
@[simp] theorem setQueue_trd (q : Nat) (w : WQueue) : (setQueue q w s).trd = s.trd := rfl
@[simp] theorem setQueue_src (q : Nat) (w : WQueue) : (setQueue q w s).src = s.src := rfl
@[simp] theorem setQueue_cal (q : Nat) (w : WQueue) : (setQueue q w s).cal = s.cal := rfl
@[simp] theorem setQueue_warp (q : Nat) (w : WQueue) : (setQueue q w s).warp = s.warp := rfl
@[simp] theorem setQueue_host (q : Nat) (w : WQueue) : (setQueue q w s).host = s.host := rfl
@[simp] theorem setQueue_rings (q : Nat) (w : WQueue) : (setQueue q w s).rings = s.rings := rfl
@[simp] theorem setQueue_sht (q : Nat) (w : WQueue) : (setQueue q w s).sht = s.sht := rfl
@[simp] theorem setQueue_dram (q : Nat) (w : WQueue) : (setQueue q w s).dram = s.dram := rfl
@[simp] theorem setQueue_tsu (q : Nat) (w : WQueue) : (setQueue q w s).tsu = s.tsu := rfl
@[simp] theorem setQueue_anc (q : Nat) (w : WQueue) : (setQueue q w s).anc = s.anc := rfl
@[simp] theorem setQueue_bob (q : Nat) (w : WQueue) : (setQueue q w s).bob = s.bob := rfl
@[simp] theorem setQueue_sys (q : Nat) (w : WQueue) : (setQueue q w s).sys = s.sys := rfl

@[simp] theorem mapCmds_pending (f : Cmd → Cmd) : (mapCmds f s).pending = s.pending := rfl
@[simp] theorem mapCmds_now (f : Cmd → Cmd) : (mapCmds f s).now = s.now := rfl
@[simp] theorem mapCmds_free (f : Cmd → Cmd) : (mapCmds f s).free = s.free := rfl
@[simp] theorem mapCmds_csr (f : Cmd → Cmd) : (mapCmds f s).csr = s.csr := rfl
@[simp] theorem mapCmds_inf (f : Cmd → Cmd) : (mapCmds f s).inf = s.inf := rfl
@[simp] theorem mapCmds_out (f : Cmd → Cmd) : (mapCmds f s).out = s.out := rfl
@[simp] theorem mapCmds_tod (f : Cmd → Cmd) : (mapCmds f s).tod = s.tod := rfl
@[simp] theorem mapCmds_ports (f : Cmd → Cmd) : (mapCmds f s).ports = s.ports := rfl
@[simp] theorem mapCmds_reed (f : Cmd → Cmd) : (mapCmds f s).reed = s.reed := rfl
@[simp] theorem mapCmds_gauge (f : Cmd → Cmd) : (mapCmds f s).gauge = s.gauge := rfl
@[simp] theorem mapCmds_heddle (f : Cmd → Cmd) : (mapCmds f s).heddle = s.heddle := rfl
@[simp] theorem mapCmds_spc (f : Cmd → Cmd) : (mapCmds f s).spc = s.spc := rfl
@[simp] theorem mapCmds_trd (f : Cmd → Cmd) : (mapCmds f s).trd = s.trd := rfl
@[simp] theorem mapCmds_src (f : Cmd → Cmd) : (mapCmds f s).src = s.src := rfl
@[simp] theorem mapCmds_cal (f : Cmd → Cmd) : (mapCmds f s).cal = s.cal := rfl
@[simp] theorem mapCmds_warp (f : Cmd → Cmd) : (mapCmds f s).warp = s.warp := rfl
@[simp] theorem mapCmds_queues (f : Cmd → Cmd) : (mapCmds f s).queues = s.queues := rfl
@[simp] theorem mapCmds_rings (f : Cmd → Cmd) : (mapCmds f s).rings = s.rings := rfl
@[simp] theorem mapCmds_sht (f : Cmd → Cmd) : (mapCmds f s).sht = s.sht := rfl
@[simp] theorem mapCmds_dram (f : Cmd → Cmd) : (mapCmds f s).dram = s.dram := rfl
@[simp] theorem mapCmds_tsu (f : Cmd → Cmd) : (mapCmds f s).tsu = s.tsu := rfl
@[simp] theorem mapCmds_anc (f : Cmd → Cmd) : (mapCmds f s).anc = s.anc := rfl
@[simp] theorem mapCmds_bob (f : Cmd → Cmd) : (mapCmds f s).bob = s.bob := rfl
@[simp] theorem mapCmds_sys (f : Cmd → Cmd) : (mapCmds f s).sys = s.sys := rfl

@[simp] theorem mapPicks_pending (f : PickCtx → PickCtx) : (mapPicks f s).pending = s.pending := rfl
@[simp] theorem mapPicks_now (f : PickCtx → PickCtx) : (mapPicks f s).now = s.now := rfl
@[simp] theorem mapPicks_free (f : PickCtx → PickCtx) : (mapPicks f s).free = s.free := rfl
@[simp] theorem mapPicks_csr (f : PickCtx → PickCtx) : (mapPicks f s).csr = s.csr := rfl
@[simp] theorem mapPicks_inf (f : PickCtx → PickCtx) : (mapPicks f s).inf = s.inf := rfl
@[simp] theorem mapPicks_out (f : PickCtx → PickCtx) : (mapPicks f s).out = s.out := rfl
@[simp] theorem mapPicks_tod (f : PickCtx → PickCtx) : (mapPicks f s).tod = s.tod := rfl
@[simp] theorem mapPicks_ports (f : PickCtx → PickCtx) : (mapPicks f s).ports = s.ports := rfl
@[simp] theorem mapPicks_reed (f : PickCtx → PickCtx) : (mapPicks f s).reed = s.reed := rfl
@[simp] theorem mapPicks_gauge (f : PickCtx → PickCtx) : (mapPicks f s).gauge = s.gauge := rfl
@[simp] theorem mapPicks_heddle (f : PickCtx → PickCtx) : (mapPicks f s).heddle = s.heddle := rfl
@[simp] theorem mapPicks_spc (f : PickCtx → PickCtx) : (mapPicks f s).spc = s.spc := rfl
@[simp] theorem mapPicks_src (f : PickCtx → PickCtx) : (mapPicks f s).src = s.src := rfl
@[simp] theorem mapPicks_cal (f : PickCtx → PickCtx) : (mapPicks f s).cal = s.cal := rfl
@[simp] theorem mapPicks_warp (f : PickCtx → PickCtx) : (mapPicks f s).warp = s.warp := rfl
@[simp] theorem mapPicks_queues (f : PickCtx → PickCtx) : (mapPicks f s).queues = s.queues := rfl
@[simp] theorem mapPicks_host (f : PickCtx → PickCtx) : (mapPicks f s).host = s.host := rfl
@[simp] theorem mapPicks_rings (f : PickCtx → PickCtx) : (mapPicks f s).rings = s.rings := rfl
@[simp] theorem mapPicks_sht (f : PickCtx → PickCtx) : (mapPicks f s).sht = s.sht := rfl
@[simp] theorem mapPicks_dram (f : PickCtx → PickCtx) : (mapPicks f s).dram = s.dram := rfl
@[simp] theorem mapPicks_tsu (f : PickCtx → PickCtx) : (mapPicks f s).tsu = s.tsu := rfl
@[simp] theorem mapPicks_anc (f : PickCtx → PickCtx) : (mapPicks f s).anc = s.anc := rfl
@[simp] theorem mapPicks_bob (f : PickCtx → PickCtx) : (mapPicks f s).bob = s.bob := rfl
@[simp] theorem mapPicks_sys (f : PickCtx → PickCtx) : (mapPicks f s).sys = s.sys := rfl

@[simp] theorem onTrd_pending (f : Treadle → Treadle) : (onTrd f s).pending = s.pending := rfl
@[simp] theorem onTrd_now (f : Treadle → Treadle) : (onTrd f s).now = s.now := rfl
@[simp] theorem onTrd_free (f : Treadle → Treadle) : (onTrd f s).free = s.free := rfl
@[simp] theorem onTrd_csr (f : Treadle → Treadle) : (onTrd f s).csr = s.csr := rfl
@[simp] theorem onTrd_inf (f : Treadle → Treadle) : (onTrd f s).inf = s.inf := rfl
@[simp] theorem onTrd_out (f : Treadle → Treadle) : (onTrd f s).out = s.out := rfl
@[simp] theorem onTrd_tod (f : Treadle → Treadle) : (onTrd f s).tod = s.tod := rfl
@[simp] theorem onTrd_ports (f : Treadle → Treadle) : (onTrd f s).ports = s.ports := rfl
@[simp] theorem onTrd_reed (f : Treadle → Treadle) : (onTrd f s).reed = s.reed := rfl
@[simp] theorem onTrd_gauge (f : Treadle → Treadle) : (onTrd f s).gauge = s.gauge := rfl
@[simp] theorem onTrd_heddle (f : Treadle → Treadle) : (onTrd f s).heddle = s.heddle := rfl
@[simp] theorem onTrd_spc (f : Treadle → Treadle) : (onTrd f s).spc = s.spc := rfl
@[simp] theorem onTrd_src (f : Treadle → Treadle) : (onTrd f s).src = s.src := rfl
@[simp] theorem onTrd_cal (f : Treadle → Treadle) : (onTrd f s).cal = s.cal := rfl
@[simp] theorem onTrd_warp (f : Treadle → Treadle) : (onTrd f s).warp = s.warp := rfl
@[simp] theorem onTrd_queues (f : Treadle → Treadle) : (onTrd f s).queues = s.queues := rfl
@[simp] theorem onTrd_host (f : Treadle → Treadle) : (onTrd f s).host = s.host := rfl
@[simp] theorem onTrd_rings (f : Treadle → Treadle) : (onTrd f s).rings = s.rings := rfl
@[simp] theorem onTrd_sht (f : Treadle → Treadle) : (onTrd f s).sht = s.sht := rfl
@[simp] theorem onTrd_dram (f : Treadle → Treadle) : (onTrd f s).dram = s.dram := rfl
@[simp] theorem onTrd_tsu (f : Treadle → Treadle) : (onTrd f s).tsu = s.tsu := rfl
@[simp] theorem onTrd_anc (f : Treadle → Treadle) : (onTrd f s).anc = s.anc := rfl
@[simp] theorem onTrd_bob (f : Treadle → Treadle) : (onTrd f s).bob = s.bob := rfl
@[simp] theorem onTrd_sys (f : Treadle → Treadle) : (onTrd f s).sys = s.sys := rfl

@[simp] theorem setEng_pending (e : Nat) (x : Eng) : (setEng e x s).pending = s.pending := rfl
@[simp] theorem setEng_now (e : Nat) (x : Eng) : (setEng e x s).now = s.now := rfl
@[simp] theorem setEng_free (e : Nat) (x : Eng) : (setEng e x s).free = s.free := rfl
@[simp] theorem setEng_csr (e : Nat) (x : Eng) : (setEng e x s).csr = s.csr := rfl
@[simp] theorem setEng_inf (e : Nat) (x : Eng) : (setEng e x s).inf = s.inf := rfl
@[simp] theorem setEng_out (e : Nat) (x : Eng) : (setEng e x s).out = s.out := rfl
@[simp] theorem setEng_tod (e : Nat) (x : Eng) : (setEng e x s).tod = s.tod := rfl
@[simp] theorem setEng_ports (e : Nat) (x : Eng) : (setEng e x s).ports = s.ports := rfl
@[simp] theorem setEng_reed (e : Nat) (x : Eng) : (setEng e x s).reed = s.reed := rfl
@[simp] theorem setEng_gauge (e : Nat) (x : Eng) : (setEng e x s).gauge = s.gauge := rfl
@[simp] theorem setEng_heddle (e : Nat) (x : Eng) : (setEng e x s).heddle = s.heddle := rfl
@[simp] theorem setEng_spc (e : Nat) (x : Eng) : (setEng e x s).spc = s.spc := rfl
@[simp] theorem setEng_trd (e : Nat) (x : Eng) : (setEng e x s).trd = s.trd := rfl
@[simp] theorem setEng_src (e : Nat) (x : Eng) : (setEng e x s).src = s.src := rfl
@[simp] theorem setEng_cal (e : Nat) (x : Eng) : (setEng e x s).cal = s.cal := rfl
@[simp] theorem setEng_warp (e : Nat) (x : Eng) : (setEng e x s).warp = s.warp := rfl
@[simp] theorem setEng_queues (e : Nat) (x : Eng) : (setEng e x s).queues = s.queues := rfl
@[simp] theorem setEng_host (e : Nat) (x : Eng) : (setEng e x s).host = s.host := rfl
@[simp] theorem setEng_rings (e : Nat) (x : Eng) : (setEng e x s).rings = s.rings := rfl
@[simp] theorem setEng_dram (e : Nat) (x : Eng) : (setEng e x s).dram = s.dram := rfl
@[simp] theorem setEng_tsu (e : Nat) (x : Eng) : (setEng e x s).tsu = s.tsu := rfl
@[simp] theorem setEng_anc (e : Nat) (x : Eng) : (setEng e x s).anc = s.anc := rfl
@[simp] theorem setEng_bob (e : Nat) (x : Eng) : (setEng e x s).bob = s.bob := rfl
@[simp] theorem setEng_sys (e : Nat) (x : Eng) : (setEng e x s).sys = s.sys := rfl

@[simp] theorem onEng_pending (e : Nat) (f : Eng → Eng) : (onEng e f s).pending = s.pending := rfl
@[simp] theorem onEng_now (e : Nat) (f : Eng → Eng) : (onEng e f s).now = s.now := rfl
@[simp] theorem onEng_free (e : Nat) (f : Eng → Eng) : (onEng e f s).free = s.free := rfl
@[simp] theorem onEng_csr (e : Nat) (f : Eng → Eng) : (onEng e f s).csr = s.csr := rfl
@[simp] theorem onEng_inf (e : Nat) (f : Eng → Eng) : (onEng e f s).inf = s.inf := rfl
@[simp] theorem onEng_out (e : Nat) (f : Eng → Eng) : (onEng e f s).out = s.out := rfl
@[simp] theorem onEng_tod (e : Nat) (f : Eng → Eng) : (onEng e f s).tod = s.tod := rfl
@[simp] theorem onEng_ports (e : Nat) (f : Eng → Eng) : (onEng e f s).ports = s.ports := rfl
@[simp] theorem onEng_reed (e : Nat) (f : Eng → Eng) : (onEng e f s).reed = s.reed := rfl
@[simp] theorem onEng_gauge (e : Nat) (f : Eng → Eng) : (onEng e f s).gauge = s.gauge := rfl
@[simp] theorem onEng_heddle (e : Nat) (f : Eng → Eng) : (onEng e f s).heddle = s.heddle := rfl
@[simp] theorem onEng_spc (e : Nat) (f : Eng → Eng) : (onEng e f s).spc = s.spc := rfl
@[simp] theorem onEng_trd (e : Nat) (f : Eng → Eng) : (onEng e f s).trd = s.trd := rfl
@[simp] theorem onEng_src (e : Nat) (f : Eng → Eng) : (onEng e f s).src = s.src := rfl
@[simp] theorem onEng_cal (e : Nat) (f : Eng → Eng) : (onEng e f s).cal = s.cal := rfl
@[simp] theorem onEng_warp (e : Nat) (f : Eng → Eng) : (onEng e f s).warp = s.warp := rfl
@[simp] theorem onEng_queues (e : Nat) (f : Eng → Eng) : (onEng e f s).queues = s.queues := rfl
@[simp] theorem onEng_host (e : Nat) (f : Eng → Eng) : (onEng e f s).host = s.host := rfl
@[simp] theorem onEng_rings (e : Nat) (f : Eng → Eng) : (onEng e f s).rings = s.rings := rfl
@[simp] theorem onEng_dram (e : Nat) (f : Eng → Eng) : (onEng e f s).dram = s.dram := rfl
@[simp] theorem onEng_tsu (e : Nat) (f : Eng → Eng) : (onEng e f s).tsu = s.tsu := rfl
@[simp] theorem onEng_anc (e : Nat) (f : Eng → Eng) : (onEng e f s).anc = s.anc := rfl
@[simp] theorem onEng_bob (e : Nat) (f : Eng → Eng) : (onEng e f s).bob = s.bob := rfl
@[simp] theorem onEng_sys (e : Nat) (f : Eng → Eng) : (onEng e f s).sys = s.sys := rfl

@[simp] theorem finishWhere_pending (p : Cmd → Bool) (a b c : Nat) : (finishWhere p a b c s).pending = s.pending := rfl
@[simp] theorem finishWhere_now (p : Cmd → Bool) (a b c : Nat) : (finishWhere p a b c s).now = s.now := rfl
@[simp] theorem finishWhere_free (p : Cmd → Bool) (a b c : Nat) : (finishWhere p a b c s).free = s.free := rfl
@[simp] theorem finishWhere_csr (p : Cmd → Bool) (a b c : Nat) : (finishWhere p a b c s).csr = s.csr := rfl
@[simp] theorem finishWhere_inf (p : Cmd → Bool) (a b c : Nat) : (finishWhere p a b c s).inf = s.inf := rfl
@[simp] theorem finishWhere_out (p : Cmd → Bool) (a b c : Nat) : (finishWhere p a b c s).out = s.out := rfl
@[simp] theorem finishWhere_tod (p : Cmd → Bool) (a b c : Nat) : (finishWhere p a b c s).tod = s.tod := rfl
@[simp] theorem finishWhere_ports (p : Cmd → Bool) (a b c : Nat) : (finishWhere p a b c s).ports = s.ports := rfl
@[simp] theorem finishWhere_reed (p : Cmd → Bool) (a b c : Nat) : (finishWhere p a b c s).reed = s.reed := rfl
@[simp] theorem finishWhere_gauge (p : Cmd → Bool) (a b c : Nat) : (finishWhere p a b c s).gauge = s.gauge := rfl
@[simp] theorem finishWhere_heddle (p : Cmd → Bool) (a b c : Nat) : (finishWhere p a b c s).heddle = s.heddle := rfl
@[simp] theorem finishWhere_spc (p : Cmd → Bool) (a b c : Nat) : (finishWhere p a b c s).spc = s.spc := rfl
@[simp] theorem finishWhere_trd (p : Cmd → Bool) (a b c : Nat) : (finishWhere p a b c s).trd = s.trd := rfl
@[simp] theorem finishWhere_src (p : Cmd → Bool) (a b c : Nat) : (finishWhere p a b c s).src = s.src := rfl
@[simp] theorem finishWhere_cal (p : Cmd → Bool) (a b c : Nat) : (finishWhere p a b c s).cal = s.cal := rfl
@[simp] theorem finishWhere_warp (p : Cmd → Bool) (a b c : Nat) : (finishWhere p a b c s).warp = s.warp := rfl
@[simp] theorem finishWhere_queues (p : Cmd → Bool) (a b c : Nat) : (finishWhere p a b c s).queues = s.queues := rfl
@[simp] theorem finishWhere_rings (p : Cmd → Bool) (a b c : Nat) : (finishWhere p a b c s).rings = s.rings := rfl
@[simp] theorem finishWhere_sht (p : Cmd → Bool) (a b c : Nat) : (finishWhere p a b c s).sht = s.sht := rfl
@[simp] theorem finishWhere_dram (p : Cmd → Bool) (a b c : Nat) : (finishWhere p a b c s).dram = s.dram := rfl
@[simp] theorem finishWhere_tsu (p : Cmd → Bool) (a b c : Nat) : (finishWhere p a b c s).tsu = s.tsu := rfl
@[simp] theorem finishWhere_anc (p : Cmd → Bool) (a b c : Nat) : (finishWhere p a b c s).anc = s.anc := rfl
@[simp] theorem finishWhere_bob (p : Cmd → Bool) (a b c : Nat) : (finishWhere p a b c s).bob = s.bob := rfl
@[simp] theorem finishWhere_sys (p : Cmd → Bool) (a b c : Nat) : (finishWhere p a b c s).sys = s.sys := rfl

@[simp] theorem maskFinish_pending  : (maskFinish s).pending = s.pending := rfl
@[simp] theorem maskFinish_now  : (maskFinish s).now = s.now := rfl
@[simp] theorem maskFinish_free  : (maskFinish s).free = s.free := rfl
@[simp] theorem maskFinish_csr  : (maskFinish s).csr = s.csr := rfl
@[simp] theorem maskFinish_inf  : (maskFinish s).inf = s.inf := rfl
@[simp] theorem maskFinish_out  : (maskFinish s).out = s.out := rfl
@[simp] theorem maskFinish_tod  : (maskFinish s).tod = s.tod := rfl
@[simp] theorem maskFinish_ports  : (maskFinish s).ports = s.ports := rfl
@[simp] theorem maskFinish_reed  : (maskFinish s).reed = s.reed := rfl
@[simp] theorem maskFinish_gauge  : (maskFinish s).gauge = s.gauge := rfl
@[simp] theorem maskFinish_heddle  : (maskFinish s).heddle = s.heddle := rfl
@[simp] theorem maskFinish_spc  : (maskFinish s).spc = s.spc := rfl
@[simp] theorem maskFinish_trd  : (maskFinish s).trd = s.trd := rfl
@[simp] theorem maskFinish_src  : (maskFinish s).src = s.src := rfl
@[simp] theorem maskFinish_cal  : (maskFinish s).cal = s.cal := rfl
@[simp] theorem maskFinish_warp  : (maskFinish s).warp = s.warp := rfl
@[simp] theorem maskFinish_queues  : (maskFinish s).queues = s.queues := rfl
@[simp] theorem maskFinish_rings  : (maskFinish s).rings = s.rings := rfl
@[simp] theorem maskFinish_sht  : (maskFinish s).sht = s.sht := rfl
@[simp] theorem maskFinish_dram  : (maskFinish s).dram = s.dram := rfl
@[simp] theorem maskFinish_tsu  : (maskFinish s).tsu = s.tsu := rfl
@[simp] theorem maskFinish_anc  : (maskFinish s).anc = s.anc := rfl
@[simp] theorem maskFinish_bob  : (maskFinish s).bob = s.bob := rfl
@[simp] theorem maskFinish_sys  : (maskFinish s).sys = s.sys := rfl

@[simp] theorem noteUnit_pending (o i : Nat) (f : Cmd → Cmd) : (noteUnit o i f s).pending = s.pending := rfl
@[simp] theorem noteUnit_now (o i : Nat) (f : Cmd → Cmd) : (noteUnit o i f s).now = s.now := rfl
@[simp] theorem noteUnit_free (o i : Nat) (f : Cmd → Cmd) : (noteUnit o i f s).free = s.free := rfl
@[simp] theorem noteUnit_csr (o i : Nat) (f : Cmd → Cmd) : (noteUnit o i f s).csr = s.csr := rfl
@[simp] theorem noteUnit_inf (o i : Nat) (f : Cmd → Cmd) : (noteUnit o i f s).inf = s.inf := rfl
@[simp] theorem noteUnit_out (o i : Nat) (f : Cmd → Cmd) : (noteUnit o i f s).out = s.out := rfl
@[simp] theorem noteUnit_tod (o i : Nat) (f : Cmd → Cmd) : (noteUnit o i f s).tod = s.tod := rfl
@[simp] theorem noteUnit_ports (o i : Nat) (f : Cmd → Cmd) : (noteUnit o i f s).ports = s.ports := rfl
@[simp] theorem noteUnit_reed (o i : Nat) (f : Cmd → Cmd) : (noteUnit o i f s).reed = s.reed := rfl
@[simp] theorem noteUnit_gauge (o i : Nat) (f : Cmd → Cmd) : (noteUnit o i f s).gauge = s.gauge := rfl
@[simp] theorem noteUnit_heddle (o i : Nat) (f : Cmd → Cmd) : (noteUnit o i f s).heddle = s.heddle := rfl
@[simp] theorem noteUnit_spc (o i : Nat) (f : Cmd → Cmd) : (noteUnit o i f s).spc = s.spc := rfl
@[simp] theorem noteUnit_trd (o i : Nat) (f : Cmd → Cmd) : (noteUnit o i f s).trd = s.trd := rfl
@[simp] theorem noteUnit_src (o i : Nat) (f : Cmd → Cmd) : (noteUnit o i f s).src = s.src := rfl
@[simp] theorem noteUnit_cal (o i : Nat) (f : Cmd → Cmd) : (noteUnit o i f s).cal = s.cal := rfl
@[simp] theorem noteUnit_warp (o i : Nat) (f : Cmd → Cmd) : (noteUnit o i f s).warp = s.warp := rfl
@[simp] theorem noteUnit_queues (o i : Nat) (f : Cmd → Cmd) : (noteUnit o i f s).queues = s.queues := rfl
@[simp] theorem noteUnit_rings (o i : Nat) (f : Cmd → Cmd) : (noteUnit o i f s).rings = s.rings := rfl
@[simp] theorem noteUnit_sht (o i : Nat) (f : Cmd → Cmd) : (noteUnit o i f s).sht = s.sht := rfl
@[simp] theorem noteUnit_dram (o i : Nat) (f : Cmd → Cmd) : (noteUnit o i f s).dram = s.dram := rfl
@[simp] theorem noteUnit_tsu (o i : Nat) (f : Cmd → Cmd) : (noteUnit o i f s).tsu = s.tsu := rfl
@[simp] theorem noteUnit_anc (o i : Nat) (f : Cmd → Cmd) : (noteUnit o i f s).anc = s.anc := rfl
@[simp] theorem noteUnit_bob (o i : Nat) (f : Cmd → Cmd) : (noteUnit o i f s).bob = s.bob := rfl
@[simp] theorem noteUnit_sys (o i : Nat) (f : Cmd → Cmd) : (noteUnit o i f s).sys = s.sys := rfl

end Sys2Proof.Machine
end

