-- ==== Sys2Proof/Laws/Ops.lean ====
section
/-!
SUPPORT. The shared operations: what a read of a register field gives after each of them, and all that they can change.
-/

set_option autoImplicit false

namespace Sys2Proof.Machine

/-! ### Register fields -/

/-- A field reads what was written to it, cut to its width. -/
@[simp] theorem rd_wr_same (f : Fld) (i v : Nat) (s : State) : rd f i (wr f i v s) = v % 2 ^ f.width := by
  simp [rd, wr]

/-- Every field at another place reads as before. -/
theorem rd_wr_other (f g : Fld) (i j v : Nat) (s : State) (h : f.key i ≠ g.key j) : rd f i (wr g j v s) = rd f i s := by
  simp only [rd, wr]
  exact Smap.get_put_other _ _ _ _ h

/-- The value in force is not touched by a write of the register. -/
@[simp] theorem rdI_wr (f g : Fld) (i j v : Nat) (s : State) : rdI f i (wr g j v s) = rdI f i s := rfl

@[simp] theorem rd_wrI (f g : Fld) (i j v : Nat) (s : State) : rd f i (wrI g j v s) = rd f i s := rfl

/-- A value in force reads what came into force. -/
@[simp] theorem rdI_wrI_same (f : Fld) (i v : Nat) (s : State) : rdI f i (wrI f i v s) = v % 2 ^ f.width := by
  simp [rdI, wrI]

theorem rdI_wrI_other (f g : Fld) (i j v : Nat) (s : State) (h : f.key i ≠ g.key j) : rdI f i (wrI g j v s) = rdI f i s := by
  simp only [rdI, wrI]
  exact Smap.get_put_other _ _ _ _ h

/-- A read of a field looks at the register store alone. -/
theorem rd_congr (f : Fld) (i : Nat) {s t : State} (h : t.csr = s.csr) : rd f i t = rd f i s := by simp [rd, h]

theorem rdI_congr (f : Fld) (i : Nat) {s t : State} (h : t.inf = s.inf) : rdI f i t = rdI f i s := by simp [rdI, h]

@[simp] theorem rd_emit (f : Fld) (i : Nat) (o : Output) (s : State) : rd f i (emit o s) = rd f i s := rfl
@[simp] theorem rd_advanceTo (f : Fld) (i t : Nat) (s : State) : rd f i (advanceTo t s) = rd f i s := rfl
@[simp] theorem rd_setQueue (f : Fld) (i q : Nat) (w : WQueue) (s : State) : rd f i (setQueue q w s) = rd f i s := rfl
@[simp] theorem rd_setMsix (f : Fld) (i v : Nat) (m : MsixVec) (s : State) : rd f i (setMsix v m s) = rd f i s := rfl
@[simp] theorem rd_onTrd (f : Fld) (i : Nat) (g : Treadle → Treadle) (s : State) : rd f i (onTrd g s) = rd f i s := rfl
@[simp] theorem rd_setEng (f : Fld) (i e : Nat) (x : Eng) (s : State) : rd f i (setEng e x s) = rd f i s := rfl
@[simp] theorem rd_mapCmds (f : Fld) (i : Nat) (g : Cmd → Cmd) (s : State) : rd f i (mapCmds g s) = rd f i s := rfl
@[simp] theorem rd_mapPicks (f : Fld) (i : Nat) (g : PickCtx → PickCtx) (s : State) : rd f i (mapPicks g s) = rd f i s := rfl
@[simp] theorem rd_finishWhere (f : Fld) (i : Nat) (p : Cmd → Bool) (a b c : Nat) (s : State) :
    rd f i (finishWhere p a b c s) = rd f i s := rfl

/-- Nothing is counted by a count of nothing. -/
@[simp] theorem bumpBy_zero (f : Fld) (i : Nat) (s : State) : bumpBy f i 0 s = s := rfl

/-! ### Queues -/

@[simp] theorem queueOf_setQueue_same (q : Nat) (w : WQueue) (s : State) : queueOf q (setQueue q w s) = w := by
  simp [queueOf, setQueue]

theorem queueOf_setQueue_other {q r : Nat} (w : WQueue) (s : State) (h : r ≠ q) : queueOf r (setQueue q w s) = queueOf r s := by
  simp only [queueOf, setQueue]
  exact Smap.get_put_other _ _ _ _ h

@[simp] theorem queueOf_wr (q : Nat) (f : Fld) (i v : Nat) (s : State) : queueOf q (wr f i v s) = queueOf q s := rfl
@[simp] theorem queueOf_emit (q : Nat) (o : Output) (s : State) : queueOf q (emit o s) = queueOf q s := rfl

end Sys2Proof.Machine
end

