-- ==== Sys2Proof/Laws/Eng.lean ====
section
/-!
SUPPORT. An engine's registers and status bits after each of its updates, the next instruction's address, and what an instruction
that issues answers.
-/

set_option autoImplicit false

namespace Sys2Proof.Machine

/-! ### Scalar registers -/

theorem bv_toNat_ne {n : Nat} {a b : BitVec n} (h : a ≠ b) : a.toNat ≠ b.toNat := fun e => h (BitVec.eq_of_toNat_eq e)

@[simp] theorem reg_put_same (x : Eng) (r : BitVec 5) (d : Nat) : (x.put r d).reg r = d % 2 ^ 48 := by
  simp [Eng.put, Eng.setW, Eng.reg]

theorem reg_put_other (x : Eng) {r q : BitVec 5} (d : Nat) (h : q ≠ r) : (x.put r d).reg q = x.reg q := by
  simp only [Eng.put, Eng.setW, Eng.reg]
  exact Smap.get_put_other _ _ _ _ (bv_toNat_ne h)

@[simp] theorem put_bit (x : Eng) (r : BitVec 5) (d b : Nat) : (x.put r d).bit b = x.bit b := rfl
@[simp] theorem put_st (x : Eng) (r : BitVec 5) (d : Nat) : (x.put r d).st = x.st := rfl

/-! ### Status bits -/

@[simp] theorem bit_flag (x : Eng) (b j : Nat) (v : Bool) : (x.flag b v).bit j = if j = b then v else x.bit j := by
  simp [Eng.flag, Eng.bit, bitOf_setBitTo]

@[simp] theorem reg_flag (x : Eng) (b : Nat) (v : Bool) (r : BitVec 5) : (x.flag b v).reg r = x.reg r := rfl
@[simp] theorem reg_zn (x : Eng) (d : Nat) (r : BitVec 5) : (x.zn d).reg r = x.reg r := rfl
@[simp] theorem reg_cv (x : Eng) (c v : Bool) (r : BitVec 5) : (x.cv c v).reg r = x.reg r := rfl
@[simp] theorem reg_sat (x : Eng) (b : Bool) (r : BitVec 5) : (x.sat b).reg r = x.reg r := by cases b <;> rfl

@[simp] theorem bit_zn (x : Eng) (d j : Nat) :
    (x.zn d).bit j = if j = 1 then bitOf d 47 else if j = 0 then decide (d = 0) else x.bit j := by
  simp [Eng.zn]

@[simp] theorem bit_cv (x : Eng) (c v : Bool) (j : Nat) :
    (x.cv c v).bit j = if j = 3 then v else if j = 2 then c else x.bit j := by
  simp [Eng.cv]

@[simp] theorem bit_sat (x : Eng) (b : Bool) (j : Nat) : (x.sat b).bit j = if j = 4 ∧ b = true then true else x.bit j := by
  cases b <;> simp [Eng.sat]

/-! ### Lanes and accumulators -/

theorem four_mul_add_ne {n i j : Nat} {a b : BitVec n} (hi : i < 4) (hj : j < 4) (h : a ≠ b ∨ i ≠ j) :
    4 * a.toNat + i ≠ 4 * b.toNat + j := by
  rcases h with h | h
  · have := bv_toNat_ne h
    omega
  · omega

@[simp] theorem lane_putLane_same (x : Eng) (v : BitVec 4) (i d : Nat) : (x.putLane v i d).lane v i = d % 2 ^ 48 := by
  simp [Eng.putLane, Eng.lane]

theorem lane_putLane_other (x : Eng) {u v : BitVec 4} {i j : Nat} (d : Nat) (hi : i < 4) (hj : j < 4) (h : u ≠ v ∨ j ≠ i) :
    (x.putLane v i d).lane u j = x.lane u j := by
  simp only [Eng.putLane, Eng.lane]
  exact Smap.get_put_other _ _ _ _ (four_mul_add_ne hj hi h)

/-- The lanes of a register that took four values. -/
theorem lane_putLanes_same (x : Eng) (v : BitVec 4) (l : List Nat) {i : Nat} (hi : i < 4) :
    (x.putLanes v l).lane v i = l.getD i 0 % 2 ^ 48 := by
  simp only [Eng.putLanes, List.foldl_cons, List.foldl_nil]
  have h : i = 0 ∨ i = 1 ∨ i = 2 ∨ i = 3 := by omega
  rcases h with rfl | rfl | rfl | rfl
  · rw [lane_putLane_other _ _ (by omega) (by omega) (.inr (by omega)), lane_putLane_other _ _ (by omega) (by omega) (.inr (by omega)),
      lane_putLane_other _ _ (by omega) (by omega) (.inr (by omega)), lane_putLane_same]
  · rw [lane_putLane_other _ _ (by omega) (by omega) (.inr (by omega)), lane_putLane_other _ _ (by omega) (by omega) (.inr (by omega)),
      lane_putLane_same]
  · rw [lane_putLane_other _ _ (by omega) (by omega) (.inr (by omega)), lane_putLane_same]
  · rw [lane_putLane_same]

theorem lane_putLanes_other (x : Eng) {u v : BitVec 4} (l : List Nat) {i : Nat} (hi : i < 4) (h : u ≠ v) :
    (x.putLanes v l).lane u i = x.lane u i := by
  simp only [Eng.putLanes, List.foldl_cons, List.foldl_nil]
  rw [lane_putLane_other _ _ (by omega) hi (.inl h), lane_putLane_other _ _ (by omega) hi (.inl h),
    lane_putLane_other _ _ (by omega) hi (.inl h), lane_putLane_other _ _ (by omega) hi (.inl h)]

@[simp] theorem acc1_putAcc_same (x : Eng) (a : BitVec 2) (i d : Nat) : (x.putAcc a i d).acc1 a i = d % 2 ^ 112 := by
  simp [Eng.putAcc, Eng.acc1]

theorem acc1_putAcc_other (x : Eng) {a b : BitVec 2} {i j : Nat} (d : Nat) (hi : i < 4) (hj : j < 4) (h : b ≠ a ∨ j ≠ i) :
    (x.putAcc a i d).acc1 b j = x.acc1 b j := by
  simp only [Eng.putAcc, Eng.acc1]
  exact Smap.get_put_other _ _ _ _ (four_mul_add_ne hj hi h)

/-! ### The next address -/

theorem repEnd_upd (a : Nat) (x y : Eng) (l : List (Nat × Nat)) (h : y.lc = x.lc) :
    repEnd a y l = { y with lc := (repEnd a x l).lc, reps := (repEnd a x l).reps, pc := (repEnd a x l).pc } := by
  induction l generalizing x y with
  | nil => simp [repEnd, h]
  | cons p t ih =>
    obtain ⟨first, last⟩ := p
    by_cases hl : last = a
    · by_cases hc : 0 < (x.lc.get 0 t.length + 2 ^ 17 - 1) % 2 ^ 17
      · simp only [repEnd, h, if_pos hl, if_pos hc]
      · simp only [repEnd, h, if_pos hl, if_neg hc]
        exact ih _ _ rfl
    · simp only [repEnd, if_neg hl, h]

/-- The next address, the open repeats and their counts depend on nothing else of the engine. -/
theorem advance_upd (x y : Eng) (hp : y.pc = x.pc) (hr : y.reps = x.reps) (hl : y.lc = x.lc) :
    y.advance = { y with lc := x.advance.lc, reps := x.advance.reps, pc := x.advance.pc } := by
  simp only [Eng.advance, hp, hr]
  exact repEnd_upd _ _ _ _ hl

/-- Outside a block repeat the next address follows. -/
theorem advance_plain (x : Eng) (h : x.reps = []) : x.advance = { x with pc := x.pc + 1 } := by
  simp [Eng.advance, h, repEnd]

/-- The scalar registers and the status are all that an engine `y` has other than an engine `x`. -/
def SameButScalar (x y : Eng) : Prop := ∃ w st, y = { x with w := w, st := st }

/-- The lane registers and the status are all that an engine `y` has other than an engine `x`. -/
def SameButLanes (x y : Eng) : Prop := ∃ v st, y = { x with v := v, st := st }

/-- The accumulators and the status are all that an engine `y` has other than an engine `x`. -/
def SameButAcc (x y : Eng) : Prop := ∃ ac st, y = { x with ac := ac, st := st }

theorem sameButScalar_refl (x : Eng) : SameButScalar x x := ⟨_, _, rfl⟩
theorem sameButLanes_refl (x : Eng) : SameButLanes x x := ⟨_, _, rfl⟩
theorem sameButAcc_refl (x : Eng) : SameButAcc x x := ⟨_, _, rfl⟩

theorem sameButScalar_put {x y : Eng} (r : BitVec 5) (d : Nat) (h : SameButScalar x y) : SameButScalar x (y.put r d) := by
  obtain ⟨w, st, rfl⟩ := h; exact ⟨_, _, rfl⟩
theorem sameButScalar_flag {x y : Eng} (b : Nat) (v : Bool) (h : SameButScalar x y) : SameButScalar x (y.flag b v) := by
  obtain ⟨w, st, rfl⟩ := h; exact ⟨_, _, rfl⟩
theorem sameButScalar_zn {x y : Eng} (d : Nat) (h : SameButScalar x y) : SameButScalar x (y.zn d) :=
  sameButScalar_flag _ _ (sameButScalar_flag _ _ h)
theorem sameButScalar_cv {x y : Eng} (c v : Bool) (h : SameButScalar x y) : SameButScalar x (y.cv c v) :=
  sameButScalar_flag _ _ (sameButScalar_flag _ _ h)
theorem sameButScalar_sat {x y : Eng} (b : Bool) (h : SameButScalar x y) : SameButScalar x (y.sat b) := by
  cases b
  · exact h
  · exact sameButScalar_flag _ _ h
theorem sameButLanes_putLane {x y : Eng} (v : BitVec 4) (i d : Nat) (h : SameButLanes x y) : SameButLanes x (y.putLane v i d) := by
  obtain ⟨w, st, rfl⟩ := h; exact ⟨_, _, rfl⟩
theorem sameButLanes_putLanes {x y : Eng} (v : BitVec 4) (l : List Nat) (h : SameButLanes x y) : SameButLanes x (y.putLanes v l) :=
  sameButLanes_putLane _ _ _ (sameButLanes_putLane _ _ _ (sameButLanes_putLane _ _ _ (sameButLanes_putLane _ _ _ h)))
theorem sameButLanes_flag {x y : Eng} (b : Nat) (v : Bool) (h : SameButLanes x y) : SameButLanes x (y.flag b v) := by
  obtain ⟨w, st, rfl⟩ := h; exact ⟨_, _, rfl⟩
theorem sameButLanes_sat {x y : Eng} (b : Bool) (h : SameButLanes x y) : SameButLanes x (y.sat b) := by
  cases b
  · exact h
  · exact sameButLanes_flag _ _ h
theorem sameButAcc_putAcc {x y : Eng} (a : BitVec 2) (i d : Nat) (h : SameButAcc x y) : SameButAcc x (y.putAcc a i d) := by
  obtain ⟨w, st, rfl⟩ := h; exact ⟨_, _, rfl⟩
theorem sameButAcc_sat {x y : Eng} (b : Bool) (h : SameButAcc x y) : SameButAcc x (y.sat b) := by
  cases b
  · exact h
  · obtain ⟨w, st, rfl⟩ := h; exact ⟨_, _, rfl⟩

/-- The next address after an update of scalar registers and status. -/
theorem advance_scalar {x y : Eng} (h : SameButScalar x y) : y.advance = { x.advance with w := y.w, st := y.st } := by
  obtain ⟨w, st, rfl⟩ := h
  rw [advance_upd x { x with w := w, st := st } rfl rfl rfl]
  conv_rhs => rw [advance_upd x x rfl rfl rfl]

theorem advance_lanes {x y : Eng} (h : SameButLanes x y) : y.advance = { x.advance with v := y.v, st := y.st } := by
  obtain ⟨w, st, rfl⟩ := h
  rw [advance_upd x { x with v := w, st := st } rfl rfl rfl]
  conv_rhs => rw [advance_upd x x rfl rfl rfl]

theorem advance_acc {x y : Eng} (h : SameButAcc x y) : y.advance = { x.advance with ac := y.ac, st := y.st } := by
  obtain ⟨w, st, rfl⟩ := h
  rw [advance_upd x { x with ac := w, st := st } rfl rfl rfl]
  conv_rhs => rw [advance_upd x x rfl rfl rfl]

@[simp] theorem advance_reg (x : Eng) (r : BitVec 5) : x.advance.reg r = x.reg r := by
  rw [advance_upd x x rfl rfl rfl]; rfl
@[simp] theorem advance_bit (x : Eng) (b : Nat) : x.advance.bit b = x.bit b := by
  rw [advance_upd x x rfl rfl rfl]; rfl
@[simp] theorem advance_st (x : Eng) : x.advance.st = x.st := by
  rw [advance_upd x x rfl rfl rfl]
@[simp] theorem advance_lane (x : Eng) (v : BitVec 4) (i : Nat) : x.advance.lane v i = x.lane v i := by
  rw [advance_upd x x rfl rfl rfl]; rfl
@[simp] theorem advance_acc1 (x : Eng) (a : BitVec 2) (i : Nat) : x.advance.acc1 a i = x.acc1 a i := by
  rw [advance_upd x x rfl rfl rfl]; rfl
@[simp] theorem advance_w (x : Eng) : x.advance.w = x.w := by rw [advance_upd x x rfl rfl rfl]
@[simp] theorem advance_v (x : Eng) : x.advance.v = x.v := by rw [advance_upd x x rfl rfl rfl]
@[simp] theorem advance_p (x : Eng) : x.advance.p = x.p := by rw [advance_upd x x rfl rfl rfl]
@[simp] theorem advance_m (x : Eng) : x.advance.m = x.m := by rw [advance_upd x x rfl rfl rfl]
@[simp] theorem advance_loom (x : Eng) : x.advance.loom = x.loom := by rw [advance_upd x x rfl rfl rfl]
@[simp] theorem advance_accList (x : Eng) : x.advance.acc = x.acc := by rw [advance_upd x x rfl rfl rfl]
@[simp] theorem advance_acs (x : Eng) : x.advance.ac = x.ac := by rw [advance_upd x x rfl rfl rfl]

/-- The frame of a scalar instruction, from its registers and status bits. -/
theorem scalarOnly_of {x y : Eng} {ws : List (BitVec 5)} {bs : List Nat} (h : SameButScalar x y)
    (hr : ∀ r : BitVec 5, r ∉ ws → y.reg r = x.reg r) (hb : ∀ b : Nat, b ∉ bs → y.bit b = x.bit b) : x.scalarOnly y.advance ws bs :=
  ⟨by rw [advance_scalar h], fun r hh => by simpa using hr r hh, fun b hh => by simpa using hb b hh⟩

theorem laneOnly_of {x y : Eng} {vs : List (BitVec 4)} {bs : List Nat} (h : SameButLanes x y)
    (hr : ∀ (u : BitVec 4) (i : Nat), i < 4 → u ∉ vs → y.lane u i = x.lane u i) (hb : ∀ b : Nat, b ∉ bs → y.bit b = x.bit b) :
    x.laneOnly y.advance vs bs :=
  ⟨by rw [advance_lanes h], fun r i hi hh => by simpa using hr r i hi hh, fun b hh => by simpa using hb b hh⟩

theorem accOnly_of {x y : Eng} {a : BitVec 2} {bs : List Nat} (h : SameButAcc x y)
    (hr : ∀ (c : BitVec 2) (i : Nat), i < 4 → c ≠ a → y.acc1 c i = x.acc1 c i) (hb : ∀ b : Nat, b ∉ bs → y.bit b = x.bit b) :
    x.accOnly y.advance a bs :=
  ⟨by rw [advance_acc h], fun r i hi hh => by simpa using hr r i hi hh, fun b hh => by simpa using hb b hh⟩

/-! ### Issue -/

/-- What an instruction that issues without a fault and without waiting answers. -/
theorem chRun_ok {e w : Nat} {body : Eng → Got (Eng × Nat)} {s : State} {y : Eng} {n : Nat} (hi : issues e w s = true)
    (hb : body (engOf e s) = .ok (y, n)) : chRun e w body s = .next (bumpBy WRP_CNT_BARE_READS 0 n (setEng e y s)) := by
  simp [chRun, hi, hb]

theorem chPlain_ok {e w : Nat} {f : Eng → Eng} {s : State} (hi : issues e w s = true) :
    chPlain e w f s = .next (setEng e (f (engOf e s)).advance s) := by
  simp [chPlain, chRun, hi]

/-- A command whose instruction the engine does not stand at changes nothing. -/
theorem chRun_not {e w : Nat} {body : Eng → Got (Eng × Nat)} {s : State} (hi : issues e w s = false) :
    chRun e w body s = .next s := by
  simp [chRun, hi]

end Sys2Proof.Machine
end

