-- ==== Sys2Proof/Laws/Exec.lean ====
section
/-!
SUPPORT. What `exec` answers for each command, one equation a constructor, so that no proof unfolds `exec`.
-/

set_option autoImplicit false

namespace Sys2Proof.Machine

@[simp] theorem exec_pickTick (s : State) : exec (.pickTick) s = execPickTick s := rfl
@[simp] theorem exec_pickDrop (s : State) : exec (.pickDrop) s = execPickDrop s := rfl
@[simp] theorem exec_pickDone (s : State) : exec (.pickDone) s = execPickDone s := rfl
@[simp] theorem exec_srefLoss (s : State) : exec (.srefLoss) s = execSrefLoss s := rfl
@[simp] theorem exec_pllUnlock (s : State) : exec (.pllUnlock) s = execPllUnlock s := rfl
@[simp] theorem exec_ppsEdge (k : Nat) (tap : Fin 320) (s : State) : exec (.ppsEdge k tap) s = execPpsEdge k tap s := rfl
@[simp] theorem exec_ppsHoldover (s : State) : exec (.ppsHoldover) s = execPpsHoldover s := rfl
@[simp] theorem exec_todArm (sec : BitVec 40) (s : State) : exec (.todArm sec) s = execTodArm sec s := rfl
@[simp] theorem exec_todSetImm (sec : BitVec 40) (s : State) : exec (.todSetImm sec) s = execTodSetImm sec s := rfl
@[simp] theorem exec_sysTimeHiRead (s : State) : exec (.sysTimeHiRead) s = execSysTimeHiRead s := rfl
@[simp] theorem exec_discCtlWrite (v : BitVec 64) (s : State) : exec (.discCtlWrite v) s = execDiscCtlWrite v s := rfl
@[simp] theorem exec_convSwapRequest (g : Fin 4) (v : Qword) (s : State) : exec (.convSwapRequest g v) s = execConvSwapRequest g v s := rfl
@[simp] theorem exec_swapSwitch (g : Fin 4) (s : State) : exec (.swapSwitch g) s = execSwapSwitch g s := rfl
@[simp] theorem exec_convStuck (j : Fin 68) (s : State) : exec (.convStuck j) s = execConvStuck j s := rfl
@[simp] theorem exec_autoSwapRequest (g : Fin 4) (s : State) : exec (.autoSwapRequest g) s = execAutoSwapRequest g s := rfl
@[simp] theorem exec_prtRunStart (p : Fin 16) (v : Qword) (s : State) : exec (.prtRunStart p v) s = execPrtRunStart p v s := rfl
@[simp] theorem exec_prtRunStop (p : Fin 16) (v : Qword) (s : State) : exec (.prtRunStop p v) s = execPrtRunStop p v s := rfl
@[simp] theorem exec_portCloseDone (p : Fin 16) (s : State) : exec (.portCloseDone p) s = execPortCloseDone p s := rfl
@[simp] theorem exec_frugalMemberWrite (p : Fin 16) (member : Bool) (s : State) : exec (.frugalMemberWrite p member) s = execFrugalMemberWrite p member s := rfl
@[simp] theorem exec_corrApply (p : Fin 16) (s : State) : exec (.corrApply p) s = execCorrApply p s := rfl
@[simp] theorem exec_gzDataAccess (p : Fin 16) (w : Option Qword) (s : State) : exec (.gzDataAccess p w) s = execGzDataAccess p w s := rfl
@[simp] theorem exec_redLoadDataAccess (w : Option Qword) (s : State) : exec (.redLoadDataAccess w) s = execRedLoadDataAccess w s := rfl
@[simp] theorem exec_prepare (v : Qword) (s : State) : exec (.prepare v) s = execPrepare v s := rfl
@[simp] theorem exec_prepareDeferredStart (s : State) : exec (.prepareDeferredStart) s = execPrepareDeferredStart s := rfl
@[simp] theorem exec_prepareEnd (s : State) : exec (.prepareEnd) s = execPrepareEnd s := rfl
@[simp] theorem exec_gaugeCellResult (p : Fin 16) (first : Nat) (codes : List (BitVec 56)) (s : State) : exec (.gaugeCellResult p first codes) s = execGaugeCellResult p first codes s := rfl
@[simp] theorem exec_breakDecision (p : Fin 16) (s : State) : exec (.breakDecision p) s = execBreakDecision p s := rfl
@[simp] theorem exec_envReset (v : Qword) (s : State) : exec (.envReset v) s = execEnvReset v s := rfl
@[simp] theorem exec_heddleUpdate (p : Fin 16) (stalled : Bool) (s : State) : exec (.heddleUpdate p stalled) s = execHeddleUpdate p stalled s := rfl
@[simp] theorem exec_heddleUpdateResume (p : Fin 16) (stalled : Bool) (s : State) : exec (.heddleUpdateResume p stalled) s = execHeddleUpdateResume p stalled s := rfl
@[simp] theorem exec_pickMarkerPush (p : Fin 16) (s : State) : exec (.pickMarkerPush p) s = execPickMarkerPush p s := rfl
@[simp] theorem exec_spectralCellStage (p : Fin 16) (first : Nat) (codes : List (BitVec 56)) (s : State) : exec (.spectralCellStage p first codes) s = execSpectralCellStage p first codes s := rfl
@[simp] theorem exec_fitDoneItem (s : State) : exec (.fitDoneItem) s = execFitDoneItem s := rfl
@[simp] theorem exec_fitTimeout (p : Fin 16) (s : State) : exec (.fitTimeout p) s = execFitTimeout p s := rfl
@[simp] theorem exec_stripeFlushStart (s : State) : exec (.stripeFlushStart) s = execStripeFlushStart s := rfl
@[simp] theorem exec_stripeFramePushed (s : State) : exec (.stripeFramePushed) s = execStripeFramePushed s := rfl
@[simp] theorem exec_spcLoDataAccess (w : Option (BitVec 64)) (s : State) : exec (.spcLoDataAccess w) s = execSpcLoDataAccess w s := rfl
@[simp] theorem exec_spcLineWrite (r : Fin 3) (v : BitVec 64) (s : State) : exec (.spcLineWrite r v) s = execSpcLineWrite r v s := rfl
@[simp] theorem exec_programStart (s : State) : exec (.programStart) s = execProgramStart s := rfl
@[simp] theorem exec_trdNop (s : State) : exec (.trdNop) s = execTrdNop s := rfl
@[simp] theorem exec_draftWrap (s : State) : exec (.draftWrap) s = execDraftWrap s := rfl
@[simp] theorem exec_pick (s : State) : exec (.pick) s = execPick s := rfl
@[simp] theorem exec_kind (k : BitVec 2) (mask : BitVec 16) (s : State) : exec (.kind k mask) s = execKind k mask s := rfl
@[simp] theorem exec_slot (k : BitVec 6) (mask : BitVec 16) (s : State) : exec (.slot k mask) s = execSlot k mask s := rfl
@[simp] theorem exec_gzt (t : BitVec 2) (mask : BitVec 16) (s : State) : exec (.gzt t mask) s = execGzt t mask s := rfl
@[simp] theorem exec_line (inc : Bool) (l : BitVec 3) (mask : BitVec 16) (s : State) : exec (.line inc l mask) s = execLine inc l mask s := rfl
@[simp] theorem exec_lo (e : BitVec 6) (s : State) : exec (.lo e) s = execLo e s := rfl
@[simp] theorem exec_stripe (line : BitVec 7) (stripe : BitVec 12) (s : State) : exec (.stripe line stripe) s = execStripe line stripe s := rfl
@[simp] theorem exec_loop (count : BitVec 16) (s : State) : exec (.loop count) s = execLoop count s := rfl
@[simp] theorem exec_endl (s : State) : exec (.endl) s = execEndl s := rfl
@[simp] theorem exec_jump (target : BitVec 12) (s : State) : exec (.jump target) s = execJump target s := rfl
@[simp] theorem exec_jflg (flag : BitVec 4) (target : BitVec 12) (s : State) : exec (.jflg flag target) s = execJflg flag target s := rfl
@[simp] theorem exec_note (q : BitVec 2) (pri : BitVec 4) (code : BitVec 16) (s : State) : exec (.note q pri code) s = execNote q pri code s := rfl
@[simp] theorem exec_ppsa (ofs : BitVec 29) (s : State) : exec (.ppsa ofs) s = execPpsa ofs s := rfl
@[simp] theorem exec_ppsaTimeout (s : State) : exec (.ppsaTimeout) s = execPpsaTimeout s := rfl
@[simp] theorem exec_beat (s : State) : exec (.beat) s = execBeat s := rfl
@[simp] theorem exec_swap (s : State) : exec (.swap) s = execSwap s := rfl
@[simp] theorem exec_trdDraftDataAccess (w : Option Qword) (s : State) : exec (.trdDraftDataAccess w) s = execTrdDraftDataAccess w s := rfl
@[simp] theorem exec_trdBankCfgWrite (b : Fin 2) (v : Qword) (s : State) : exec (.trdBankCfgWrite b v) s = execTrdBankCfgWrite b v s := rfl
@[simp] theorem exec_validate (b : Fin 2) (s : State) : exec (.validate b) s = execValidate b s := rfl
@[simp] theorem exec_scanEnd (b : Fin 2) (s : State) : exec (.scanEnd b) s = execScanEnd b s := rfl
@[simp] theorem exec_hostBeat (s : State) : exec (.hostBeat) s = execHostBeat s := rfl
@[simp] theorem exec_discard (s : State) : exec (.discard) s = execDiscard s := rfl
@[simp] theorem exec_trdCtlSwap (s : State) : exec (.trdCtlSwap) s = execTrdCtlSwap s := rfl
@[simp] theorem exec_trdFlagSetWrite (v : Qword) (s : State) : exec (.trdFlagSetWrite v) s = execTrdFlagSetWrite v s := rfl
@[simp] theorem exec_handlerDispatch (e : Fin 34) (s : State) : exec (.handlerDispatch e) s = execHandlerDispatch e s := rfl
@[simp] theorem exec_tickHandlerPending (s : State) : exec (.tickHandlerPending) s = execTickHandlerPending s := rfl
@[simp] theorem exec_pbudgetExpiry (l : Fin 32) (s : State) : exec (.pbudgetExpiry l) s = execPbudgetExpiry l s := rfl
@[simp] theorem exec_engineRunStart (l : Fin 32) (s : State) : exec (.engineRunStart l) s = execEngineRunStart l s := rfl
@[simp] theorem exec_engineRunStop (l : Fin 32) (s : State) : exec (.engineRunStop l) s = execEngineRunStop l s := rfl
@[simp] theorem exec_imgLoad (v : Qword) (s : State) : exec (.imgLoad v) s = execImgLoad v s := rfl
@[simp] theorem exec_imgLoadEnd (s : State) : exec (.imgLoadEnd) s = execImgLoadEnd s := rfl
@[simp] theorem exec_engineSwapRequest (v : Qword) (s : State) : exec (.engineSwapRequest v) s = execEngineSwapRequest v s := rfl
@[simp] theorem exec_swapCancel (s : State) : exec (.swapCancel) s = execSwapCancel s := rfl
@[simp] theorem exec_swapBoundary (s : State) : exec (.swapBoundary) s = execSwapBoundary s := rfl
@[simp] theorem exec_swapTakeover (s : State) : exec (.swapTakeover) s = execSwapTakeover s := rfl
@[simp] theorem exec_shtLogDataAccess (w : Option Qword) (s : State) : exec (.shtLogDataAccess w) s = execShtLogDataAccess w s := rfl
@[simp] theorem exec_ldqComplete (e : Fin 34) (k : Fin 16) (s : State) : exec (.ldqComplete e k) s = execLdqComplete e k s := rfl
@[simp] theorem exec_stqComplete (e : Fin 34) (k : Fin 16) (s : State) : exec (.stqComplete e k) s = execStqComplete e k s := rfl
@[simp] theorem exec_wfenceRelease (e : Fin 34) (s : State) : exec (.wfenceRelease e) s = execWfenceRelease e s := rfl
@[simp] theorem exec_doneRetire (e : Fin 34) (s : State) : exec (.doneRetire e) s = execDoneRetire e s := rfl
@[simp] theorem exec_pushResume (e : Fin 34) (s : State) : exec (.pushResume e) s = execPushResume e s := rfl
@[simp] theorem exec_popResume (e : Fin 34) (s : State) : exec (.popResume e) s = execPopResume e s := rfl
@[simp] theorem exec_illegalInstruction (e : Fin 34) (s : State) : exec (.illegalInstruction e) s = execIllegalInstruction e s := rfl
@[simp] theorem exec_nop (e : Fin 34) (s : State) : exec (.nop e) s = execNop e s := rfl
@[simp] theorem exec_add (e : Fin 34) (wd wa : BitVec 5) (b : OpB) (s : State) : exec (.add e wd wa b) s = execAdd e wd wa b s := rfl
@[simp] theorem exec_sub (e : Fin 34) (wd wa : BitVec 5) (b : OpB) (s : State) : exec (.sub e wd wa b) s = execSub e wd wa b s := rfl
@[simp] theorem exec_adds (e : Fin 34) (wd wa : BitVec 5) (b : OpB) (s : State) : exec (.adds e wd wa b) s = execAdds e wd wa b s := rfl
@[simp] theorem exec_subs (e : Fin 34) (wd wa : BitVec 5) (b : OpB) (s : State) : exec (.subs e wd wa b) s = execSubs e wd wa b s := rfl
@[simp] theorem exec_and (e : Fin 34) (wd wa : BitVec 5) (b : OpB) (s : State) : exec (.and e wd wa b) s = execAnd e wd wa b s := rfl
@[simp] theorem exec_or (e : Fin 34) (wd wa : BitVec 5) (b : OpB) (s : State) : exec (.or e wd wa b) s = execOr e wd wa b s := rfl
@[simp] theorem exec_xor (e : Fin 34) (wd wa : BitVec 5) (b : OpB) (s : State) : exec (.xor e wd wa b) s = execXor e wd wa b s := rfl
@[simp] theorem exec_shl (e : Fin 34) (wd wa : BitVec 5) (b : OpB) (s : State) : exec (.shl e wd wa b) s = execShl e wd wa b s := rfl
@[simp] theorem exec_shr (e : Fin 34) (wd wa : BitVec 5) (b : OpB) (s : State) : exec (.shr e wd wa b) s = execShr e wd wa b s := rfl
@[simp] theorem exec_sar (e : Fin 34) (wd wa : BitVec 5) (b : OpB) (s : State) : exec (.sar e wd wa b) s = execSar e wd wa b s := rfl
@[simp] theorem exec_cmp (e : Fin 34) (wa : BitVec 5) (b : OpB) (s : State) : exec (.cmp e wa b) s = execCmp e wa b s := rfl
@[simp] theorem exec_min (e : Fin 34) (wd wa : BitVec 5) (b : OpB) (s : State) : exec (.min e wd wa b) s = execMin e wd wa b s := rfl
@[simp] theorem exec_max (e : Fin 34) (wd wa : BitVec 5) (b : OpB) (s : State) : exec (.max e wd wa b) s = execMax e wd wa b s := rfl
@[simp] theorem exec_abs (e : Fin 34) (wd wa : BitVec 5) (s : State) : exec (.abs e wd wa) s = execAbs e wd wa s := rfl
@[simp] theorem exec_nrm (e : Fin 34) (wd wa : BitVec 5) (s : State) : exec (.nrm e wd wa) s = execNrm e wd wa s := rfl
@[simp] theorem exec_mul (e : Fin 34) (wd wa : BitVec 5) (b : OpB) (s : State) : exec (.mul e wd wa b) s = execMul e wd wa b s := rfl
@[simp] theorem exec_mulh (e : Fin 34) (wd wa : BitVec 5) (b : OpB) (s : State) : exec (.mulh e wd wa b) s = execMulh e wd wa b s := rfl
@[simp] theorem exec_div (e : Fin 34) (wd wa : BitVec 5) (b : OpB) (s : State) : exec (.div e wd wa b) s = execDiv e wd wa b s := rfl
@[simp] theorem exec_movi (e : Fin 34) (wd : BitVec 5) (imm : BitVec 24) (s : State) : exec (.movi e wd imm) s = execMovi e wd imm s := rfl
@[simp] theorem exec_movh (e : Fin 34) (wd : BitVec 5) (imm : BitVec 24) (s : State) : exec (.movh e wd imm) s = execMovh e wd imm s := rfl
@[simp] theorem exec_mfs (e : Fin 34) (wd : BitVec 5) (spr : BitVec 6) (s : State) : exec (.mfs e wd spr) s = execMfs e wd spr s := rfl
@[simp] theorem exec_mts (e : Fin 34) (wa : BitVec 5) (spr : BitVec 6) (s : State) : exec (.mts e wa spr) s = execMts e wa spr s := rfl
@[simp] theorem exec_vget (e : Fin 34) (wd : BitVec 5) (va : BitVec 4) (lane : BitVec 2) (s : State) : exec (.vget e wd va lane) s = execVget e wd va lane s := rfl
@[simp] theorem exec_vset (e : Fin 34) (wa : BitVec 5) (vd : BitVec 4) (lane : BitVec 2) (s : State) : exec (.vset e wa vd lane) s = execVset e wa vd lane s := rfl
@[simp] theorem exec_vbc (e : Fin 34) (wa : BitVec 5) (vd : BitVec 4) (s : State) : exec (.vbc e wa vd) s = execVbc e wa vd s := rfl
@[simp] theorem exec_lw (e : Fin 34) (wd : BitVec 5) (lo : LoomOp) (s : State) : exec (.lw e wd lo) s = execLw e wd lo s := rfl
@[simp] theorem exec_sw (e : Fin 34) (wa : BitVec 5) (lo : LoomOp) (s : State) : exec (.sw e wa lo) s = execSw e wa lo s := rfl
@[simp] theorem exec_lwA (e : Fin 34) (wd : BitVec 5) (a : BitVec 16) (s : State) : exec (.lwA e wd a) s = execLwA e wd a s := rfl
@[simp] theorem exec_swA (e : Fin 34) (wa : BitVec 5) (a : BitVec 16) (s : State) : exec (.swA e wa a) s = execSwA e wa a s := rfl
@[simp] theorem exec_lv (e : Fin 34) (vd : BitVec 4) (lo : LoomOp) (s : State) : exec (.lv e vd lo) s = execLv e vd lo s := rfl
@[simp] theorem exec_sv (e : Fin 34) (va : BitVec 4) (lo : LoomOp) (s : State) : exec (.sv e va lo) s = execSv e va lo s := rfl
@[simp] theorem exec_pset (e : Fin 34) (p : BitVec 3) (a : BitVec 16) (s : State) : exec (.pset e p a) s = execPset e p a s := rfl
@[simp] theorem exec_pmod (e : Fin 34) (p m : BitVec 3) (s : State) : exec (.pmod e p m) s = execPmod e p m s := rfl
@[simp] theorem exec_vadd (e : Fin 34) (vd : BitVec 4) (s1 s2 : VSrc) (s : State) : exec (.vadd e vd s1 s2) s = execVadd e vd s1 s2 s := rfl
@[simp] theorem exec_vsub (e : Fin 34) (vd : BitVec 4) (s1 s2 : VSrc) (s : State) : exec (.vsub e vd s1 s2) s = execVsub e vd s1 s2 s := rfl
@[simp] theorem exec_vadds (e : Fin 34) (vd : BitVec 4) (s1 s2 : VSrc) (s : State) : exec (.vadds e vd s1 s2) s = execVadds e vd s1 s2 s := rfl
@[simp] theorem exec_vsubs (e : Fin 34) (vd : BitVec 4) (s1 s2 : VSrc) (s : State) : exec (.vsubs e vd s1 s2) s = execVsubs e vd s1 s2 s := rfl
@[simp] theorem exec_vaddh (e : Fin 34) (vd : BitVec 4) (s1 s2 : VSrc) (s : State) : exec (.vaddh e vd s1 s2) s = execVaddh e vd s1 s2 s := rfl
@[simp] theorem exec_vsubh (e : Fin 34) (vd : BitVec 4) (s1 s2 : VSrc) (s : State) : exec (.vsubh e vd s1 s2) s = execVsubh e vd s1 s2 s := rfl
@[simp] theorem exec_vand (e : Fin 34) (vd : BitVec 4) (s1 s2 : VSrc) (s : State) : exec (.vand e vd s1 s2) s = execVand e vd s1 s2 s := rfl
@[simp] theorem exec_vor (e : Fin 34) (vd : BitVec 4) (s1 s2 : VSrc) (s : State) : exec (.vor e vd s1 s2) s = execVor e vd s1 s2 s := rfl
@[simp] theorem exec_vxor (e : Fin 34) (vd : BitVec 4) (s1 s2 : VSrc) (s : State) : exec (.vxor e vd s1 s2) s = execVxor e vd s1 s2 s := rfl
@[simp] theorem exec_vshl (e : Fin 34) (vd : BitVec 4) (s1 : VSrc) (n : BitVec 6) (s : State) : exec (.vshl e vd s1 n) s = execVshl e vd s1 n s := rfl
@[simp] theorem exec_vsar (e : Fin 34) (vd : BitVec 4) (s1 : VSrc) (n : BitVec 6) (s : State) : exec (.vsar e vd s1 n) s = execVsar e vd s1 n s := rfl
@[simp] theorem exec_vmin (e : Fin 34) (vd : BitVec 4) (s1 s2 : VSrc) (s : State) : exec (.vmin e vd s1 s2) s = execVmin e vd s1 s2 s := rfl
@[simp] theorem exec_vmax (e : Fin 34) (vd : BitVec 4) (s1 s2 : VSrc) (s : State) : exec (.vmax e vd s1 s2) s = execVmax e vd s1 s2 s := rfl
@[simp] theorem exec_vabs (e : Fin 34) (vd : BitVec 4) (s1 : VSrc) (s : State) : exec (.vabs e vd s1) s = execVabs e vd s1 s := rfl
@[simp] theorem exec_vconj (e : Fin 34) (vd : BitVec 4) (s1 : VSrc) (s : State) : exec (.vconj e vd s1) s = execVconj e vd s1 s := rfl
@[simp] theorem exec_vcmp (e : Fin 34) (cc : BitVec 3) (s1 s2 : VSrc) (s : State) : exec (.vcmp e cc s1 s2) s = execVcmp e cc s1 s2 s := rfl
@[simp] theorem exec_vsel (e : Fin 34) (vd : BitVec 4) (s1 s2 : VSrc) (s : State) : exec (.vsel e vd s1 s2) s = execVsel e vd s1 s2 s := rfl
@[simp] theorem exec_vsum (e : Fin 34) (wd : BitVec 5) (s1 : VSrc) (s : State) : exec (.vsum e wd s1) s = execVsum e wd s1 s := rfl
@[simp] theorem exec_vshr (e : Fin 34) (vd : BitVec 4) (s1 : VSrc) (n : BitVec 6) (s : State) : exec (.vshr e vd s1 n) s = execVshr e vd s1 n s := rfl
@[simp] theorem exec_macC (e : Fin 34) (ac : BitVec 2) (s1 s2 : VSrc) (cj ng clr : Bool) (s : State) : exec (.macC e ac s1 s2 cj ng clr) s = execMacC e ac s1 s2 cj ng clr s := rfl
@[simp] theorem exec_macR (e : Fin 34) (ac : BitVec 2) (s1 s2 : VSrc) (ng clr : Bool) (s : State) : exec (.macR e ac s1 s2 ng clr) s = execMacR e ac s1 s2 ng clr s := rfl
@[simp] theorem exec_macP (e : Fin 34) (ac : BitVec 2) (s1 : VSrc) (ng clr : Bool) (s : State) : exec (.macP e ac s1 ng clr) s = execMacP e ac s1 ng clr s := rfl
@[simp] theorem exec_clrac (e : Fin 34) (ac : BitVec 2) (s : State) : exec (.clrac e ac) s = execClrac e ac s := rfl
@[simp] theorem exec_rndC (e : Fin 34) (vd : BitVec 4) (ac : BitVec 2) (sh : BitVec 6) (s : State) : exec (.rndC e vd ac sh) s = execRndC e vd ac sh s := rfl
@[simp] theorem exec_rndR (e : Fin 34) (vd : BitVec 4) (ac : BitVec 2) (sh : BitVec 6) (s : State) : exec (.rndR e vd ac sh) s = execRndR e vd ac sh s := rfl
@[simp] theorem exec_acredR (e : Fin 34) (wd : BitVec 5) (ac : BitVec 2) (sh : BitVec 6) (s : State) : exec (.acredR e wd ac sh) s = execAcredR e wd ac sh s := rfl
@[simp] theorem exec_acredC (e : Fin 34) (wd : BitVec 5) (ac : BitVec 2) (sh : BitVec 6) (s : State) : exec (.acredC e wd ac sh) s = execAcredC e wd ac sh s := rfl
@[simp] theorem exec_ldacR (e : Fin 34) (ac : BitVec 2) (va : BitVec 4) (sh : BitVec 6) (s : State) : exec (.ldacR e ac va sh) s = execLdacR e ac va sh s := rfl
@[simp] theorem exec_ldacC (e : Fin 34) (ac : BitVec 2) (va : BitVec 4) (sh : BitVec 6) (s : State) : exec (.ldacC e ac va sh) s = execLdacC e ac va sh s := rfl
@[simp] theorem exec_ldq (e : Fin 34) (wa : BitVec 5) (lo : LoomOp) (s : State) : exec (.ldq e wa lo) s = execLdq e wa lo s := rfl
@[simp] theorem exec_stq (e : Fin 34) (wa : BitVec 5) (lo : LoomOp) (s : State) : exec (.stq e wa lo) s = execStq e wa lo s := rfl
@[simp] theorem exec_wfence (e : Fin 34) (s : State) : exec (.wfence e) s = execWfence e s := rfl
@[simp] theorem exec_push (e : Fin 34) (wa : BitVec 5) (q : QOp) (s : State) : exec (.push e wa q) s = execPush e wa q s := rfl
@[simp] theorem exec_pop (e : Fin 34) (wd : BitVec 5) (q : QOp) (s : State) : exec (.pop e wd q) s = execPop e wd q s := rfl
@[simp] theorem exec_qcnt (e : Fin 34) (wd : BitVec 5) (q : QOp) (s : State) : exec (.qcnt e wd q) s = execQcnt e wd q s := rfl
@[simp] theorem exec_bCond (e : Fin 34) (cond : BitVec 4) (target : BitVec 14) (s : State) : exec (.bCond e cond target) s = execBCond e cond target s := rfl
@[simp] theorem exec_call (e : Fin 34) (target : BitVec 14) (s : State) : exec (.call e target) s = execCall e target s := rfl
@[simp] theorem exec_jr (e : Fin 34) (wa : BitVec 5) (s : State) : exec (.jr e wa) s = execJr e wa s := rfl
@[simp] theorem exec_rep (e : Fin 34) (count : RepCount) (last : BitVec 14) (s : State) : exec (.rep e count last) s = execRep e count last s := rfl
@[simp] theorem exec_rexit (e : Fin 34) (s : State) : exec (.rexit e) s = execRexit e s := rfl
@[simp] theorem exec_done (e : Fin 34) (s : State) : exec (.done e) s = execDone e s := rfl
@[simp] theorem exec_clst (e : Fin 34) (mask : BitVec 3) (s : State) : exec (.clst e mask) s = execClst e mask s := rfl
@[simp] theorem exec_warpWriteBack (s : State) : exec (.warpWriteBack) s = execWarpWriteBack s := rfl
@[simp] theorem exec_scrubRead (s : State) : exec (.scrubRead) s = execScrubRead s := rfl
@[simp] theorem exec_rowRepairStart (s : State) : exec (.rowRepairStart) s = execRowRepairStart s := rfl
@[simp] theorem exec_rowRepairDone (s : State) : exec (.rowRepairDone) s = execRowRepairDone s := rfl
@[simp] theorem exec_wrpFillGo (v : Qword) (s : State) : exec (.wrpFillGo v) s = execWrpFillGo v s := rfl
@[simp] theorem exec_wrpFillDone (s : State) : exec (.wrpFillDone) s = execWrpFillDone s := rfl
@[simp] theorem exec_wfqHpush (v : BitVec 64) (s : State) : exec (.wfqHpush v) s = execWfqHpush v s := rfl
@[simp] theorem exec_wfqHpop (s : State) : exec (.wfqHpop) s = execWfqHpop s := rfl
@[simp] theorem exec_wfqFlush (v : BitVec 64) (s : State) : exec (.wfqFlush v) s = execWfqFlush v s := rfl
@[simp] theorem exec_wfqCfgWrite (q : Fin 256) (v : BitVec 64) (s : State) : exec (.wfqCfgWrite q v) s = execWfqCfgWrite q v s := rfl
@[simp] theorem exec_queueStale (q : Fin 256) (s : State) : exec (.queueStale q) s = execQueueStale q s := rfl
@[simp] theorem exec_hstCmdTailWrite (v : BitVec 64) (s : State) : exec (.hstCmdTailWrite v) s = execHstCmdTailWrite v s := rfl
@[simp] theorem exec_commandFetch (q0 q1 q2 q3 q4 q5 q6 q7 : BitVec 64) (s : State) : exec (.commandFetch q0 q1 q2 q3 q4 q5 q6 q7) s = execCommandFetch q0 q1 q2 q3 q4 q5 q6 q7 s := rfl
@[simp] theorem exec_completionWrite (s : State) : exec (.completionWrite) s = execCompletionWrite s := rfl
@[simp] theorem exec_hstCplHeadWrite (v : BitVec 64) (s : State) : exec (.hstCplHeadWrite v) s = execHstCplHeadWrite v s := rfl
@[simp] theorem exec_hstCtlWrite (v : BitVec 64) (s : State) : exec (.hstCtlWrite v) s = execHstCtlWrite v s := rfl
@[simp] theorem exec_dmaError (what : Option (Fin 256) × Fin 4) (s : State) : exec (.dmaError what) s = execDmaError what s := rfl
@[simp] theorem exec_bar0NarrowAccess (off : BitVec 16) (len : BitVec 13) (w : Option (BitVec 64)) (s : State) : exec (.bar0NarrowAccess off len w) s = execBar0NarrowAccess off len w s := rfl
@[simp] theorem exec_bar2Access (off : BitVec 28) (len : BitVec 13) (w : Option (List Qword)) (s : State) : exec (.bar2Access off len w) s = execBar2Access off len w s := rfl
@[simp] theorem exec_evtRawWrite (ix : Fin 4) (v : BitVec 64) (s : State) : exec (.evtRawWrite ix v) s = execEvtRawWrite ix v s := rfl
@[simp] theorem exec_holdoffExpiry (v : Fin 32) (s : State) : exec (.holdoffExpiry v) s = execHoldoffExpiry v s := rfl
@[simp] theorem exec_msixUnmask (v : Fin 32) (fm : Bool) (s : State) : exec (.msixUnmask v fm) s = execMsixUnmask v fm s := rfl
@[simp] theorem exec_mspiFrame (op : BitVec 8) (off : BitVec 16) (v : BitVec 64) (early : Option (Fin 12)) (s : State) : exec (.mspiFrame op off v early) s = execMspiFrame op off v early s := rfl
@[simp] theorem exec_mbxGo (v : BitVec 64) (s : State) : exec (.mbxGo v) s = execMbxGo v s := rfl
@[simp] theorem exec_hstLink (speed : Fin 5) (width : Fin 4) (down : Bool) (s : State) : exec (.hstLink speed width down) s = execHstLink speed width down s := rfl
@[simp] theorem exec_busMasterChange (enable d3hot : Bool) (s : State) : exec (.busMasterChange enable d3hot) s = execBusMasterChange enable d3hot s := rfl
@[simp] theorem exec_cmdNop (tag : BitVec 8) (s : State) : exec (.cmdNop tag) s = execCmdNop tag s := rfl
@[simp] theorem exec_identify (tag : BitVec 8) (s : State) : exec (.identify tag) s = execIdentify tag s := rfl
@[simp] theorem exec_csrRead (tag : BitVec 8) (s : State) : exec (.csrRead tag) s = execCsrRead tag s := rfl
@[simp] theorem exec_csrWrite (tag : BitVec 8) (s : State) : exec (.csrWrite tag) s = execCsrWrite tag s := rfl
@[simp] theorem exec_csrRmw (tag : BitVec 8) (s : State) : exec (.csrRmw tag) s = execCsrRmw tag s := rfl
@[simp] theorem exec_weaveStart (tag : BitVec 8) (s : State) : exec (.weaveStart tag) s = execWeaveStart tag s := rfl
@[simp] theorem exec_weaveStop (tag : BitVec 8) (s : State) : exec (.weaveStop tag) s = execWeaveStop tag s := rfl
@[simp] theorem exec_weaveStopComplete (s : State) : exec (.weaveStopComplete) s = execWeaveStopComplete s := rfl
@[simp] theorem exec_profileSet (tag : BitVec 8) (s : State) : exec (.profileSet tag) s = execProfileSet tag s := rfl
@[simp] theorem exec_holdEnter (tag : BitVec 8) (s : State) : exec (.holdEnter tag) s = execHoldEnter tag s := rfl
@[simp] theorem exec_holdEnterComplete (s : State) : exec (.holdEnterComplete) s = execHoldEnterComplete s := rfl
@[simp] theorem exec_holdExit (tag : BitVec 8) (drift : List Int) (s : State) : exec (.holdExit tag drift) s = execHoldExit tag drift s := rfl
@[simp] theorem exec_portStart (tag : BitVec 8) (s : State) : exec (.portStart tag) s = execPortStart tag s := rfl
@[simp] theorem exec_portStop (tag : BitVec 8) (s : State) : exec (.portStop tag) s = execPortStop tag s := rfl
@[simp] theorem exec_engineStart (tag : BitVec 8) (s : State) : exec (.engineStart tag) s = execEngineStart tag s := rfl
@[simp] theorem exec_engineStop (tag : BitVec 8) (s : State) : exec (.engineStop tag) s = execEngineStop tag s := rfl
@[simp] theorem exec_cmdBeat (tag : BitVec 8) (s : State) : exec (.cmdBeat tag) s = execCmdBeat tag s := rfl
@[simp] theorem exec_timeSet (tag : BitVec 8) (s : State) : exec (.timeSet tag) s = execTimeSet tag s := rfl
@[simp] theorem exec_codePrepare (tag : BitVec 8) (s : State) : exec (.codePrepare tag) s = execCodePrepare tag s := rfl
@[simp] theorem exec_imageLoad (tag : BitVec 8) (s : State) : exec (.imageLoad tag) s = execImageLoad tag s := rfl
@[simp] theorem exec_engineSwap (tag : BitVec 8) (s : State) : exec (.engineSwap tag) s = execEngineSwap tag s := rfl
@[simp] theorem exec_convSwap (tag : BitVec 8) (s : State) : exec (.convSwap tag) s = execConvSwap tag s := rfl
@[simp] theorem exec_warpFill (tag : BitVec 8) (s : State) : exec (.warpFill tag) s = execWarpFill tag s := rfl
@[simp] theorem exec_ringBind (tag : BitVec 8) (s : State) : exec (.ringBind tag) s = execRingBind tag s := rfl
@[simp] theorem exec_ringUnbind (tag : BitVec 8) (s : State) : exec (.ringUnbind tag) s = execRingUnbind tag s := rfl
@[simp] theorem exec_calRun (tag : BitVec 8) (s : State) : exec (.calRun tag) s = execCalRun tag s := rfl
@[simp] theorem exec_memVacate (tag : BitVec 8) (s : State) : exec (.memVacate tag) s = execMemVacate tag s := rfl
@[simp] theorem exec_memRestore (tag : BitVec 8) (present known : Bool) (ranks : Fin 8) (density : Fin 64) (gib : Fin 256) (trfc : Fin 65536) (s : State) : exec (.memRestore tag present known ranks density gib trfc) s = execMemRestore tag present known ranks density gib trfc s := rfl
@[simp] theorem exec_ringDeliver (q : Fin 256) (s : State) : exec (.ringDeliver q) s = execRingDeliver q s := rfl
@[simp] theorem exec_ringBatchEnd (q : Fin 256) (s : State) : exec (.ringBatchEnd q) s = execRingBatchEnd q s := rfl
@[simp] theorem exec_consPoll (q : Fin 256) (s : State) : exec (.consPoll q) s = execConsPoll q s := rfl
@[simp] theorem exec_consReadDone (q : Fin 256) (v : BitVec 64) (s : State) : exec (.consReadDone q v) s = execConsReadDone q v s := rfl
@[simp] theorem exec_refreshDue (k : Fin 8) (stalled : Bool) (drift : BitVec 16) (s : State) : exec (.refreshDue k stalled drift) s = execRefreshDue k stalled drift s := rfl
@[simp] theorem exec_mr4Poll (hot : BitVec 8) (s : State) : exec (.mr4Poll hot) s = execMr4Poll hot s := rfl
@[simp] theorem exec_dramWriteBack (s : State) : exec (.dramWriteBack) s = execDramWriteBack s := rfl
@[simp] theorem exec_parityAlert (k : Fin 8) (again : Bool) (s : State) : exec (.parityAlert k again) s = execParityAlert k again s := rfl
@[simp] theorem exec_patrolScrubRead (upset flip : BitVec 640) (s : State) : exec (.patrolScrubRead upset flip) s = execPatrolScrubRead upset flip s := rfl
@[simp] theorem exec_pageRetireDone (s : State) : exec (.pageRetireDone) s = execPageRetireDone s := rfl
@[simp] theorem exec_drmActRankOut (v : Qword) (s : State) : exec (.drmActRankOut v) s = execDrmActRankOut v s := rfl
@[simp] theorem exec_rankMigrateDone (s : State) : exec (.rankMigrateDone) s = execRankMigrateDone s := rfl
@[simp] theorem exec_drmActVacate (v : Qword) (s : State) : exec (.drmActVacate v) s = execDrmActVacate v s := rfl
@[simp] theorem exec_vacateDone (s : State) : exec (.vacateDone) s = execVacateDone s := rfl
@[simp] theorem exec_drmActRestore (v : Qword) (present known : Bool) (ranks : Fin 8) (density : Fin 64) (gib : Fin 256) (trfc : Fin 65536) (s : State) : exec (.drmActRestore v present known ranks density gib trfc) s = execDrmActRestore v present known ranks density gib trfc s := rfl
@[simp] theorem exec_restoreDone (eyeR eyeW : Fin 65) (s : State) : exec (.restoreDone eyeR eyeW) s = execRestoreDone eyeR eyeW s := rfl
@[simp] theorem exec_regionFillGo (r : Fin 8) (v : Qword) (s : State) : exec (.regionFillGo r v) s = execRegionFillGo r v s := rfl
@[simp] theorem exec_regionFillDone (s : State) : exec (.regionFillDone) s = execRegionFillDone s := rfl
@[simp] theorem exec_moveRequest (s : State) : exec (.moveRequest) s = execMoveRequest s := rfl
@[simp] theorem exec_moveDone (s : State) : exec (.moveDone) s = execMoveDone s := rfl
@[simp] theorem exec_drmRplWrite (w : Fin 4) (v : Qword) (s : State) : exec (.drmRplWrite w v) s = execDrmRplWrite w v s := rfl
@[simp] theorem exec_srcCurWrite (c : Fin 8) (v : Qword) (s : State) : exec (.srcCurWrite c v) s = execSrcCurWrite c v s := rfl
@[simp] theorem exec_srcCurModeWrite (c : Fin 8) (v : Qword) (s : State) : exec (.srcCurModeWrite c v) s = execSrcCurModeWrite c v s := rfl
@[simp] theorem exec_fadeStep (c : Fin 8) (s : State) : exec (.fadeStep c) s = execFadeStep c s := rfl
@[simp] theorem exec_busFrameDone (miso : List Byte) (s : State) : exec (.busFrameDone miso) s = execBusFrameDone miso s := rfl
@[simp] theorem exec_blankEnd (p : Fin 16) (s : State) : exec (.blankEnd p) s = execBlankEnd p s := rfl
@[simp] theorem exec_launchWindowEnd (p : Fin 16) (s : State) : exec (.launchWindowEnd p) s = execLaunchWindowEnd p s := rfl
@[simp] theorem exec_currentMeasure (c : Fin 8) (vcomp current : Fin 65536) (s : State) : exec (.currentMeasure c vcomp current) s = execCurrentMeasure c vcomp current s := rfl
@[simp] theorem exec_proofPulse (c : Fin 8) (vcomp current : Fin 65536) (s : State) : exec (.proofPulse c vcomp current) s = execProofPulse c vcomp current s := rfl
@[simp] theorem exec_intlkNLow (s : State) : exec (.intlkNLow) s = execIntlkNLow s := rfl
@[simp] theorem exec_permitWrite (v : Qword) (s : State) : exec (.permitWrite v) s = execPermitWrite v s := rfl
@[simp] theorem exec_hbeatToggle (s : State) : exec (.hbeatToggle) s = execHbeatToggle s := rfl
@[simp] theorem exec_srcLineDataAccess (w : Option Qword) (s : State) : exec (.srcLineDataAccess w) s = execSrcLineDataAccess w s := rfl
@[simp] theorem exec_stampEdge (ix : Fin 24) (k : Nat) (tap : Fin 320) (fall : Bool) (s : State) : exec (.stampEdge ix k tap fall) s = execStampEdge ix k tap fall s := rfl
@[simp] theorem exec_stampDeliver (s : State) : exec (.stampDeliver) s = execStampDeliver s := rfl
@[simp] theorem exec_stampLoss (s : State) : exec (.stampLoss) s = execStampLoss s := rfl
@[simp] theorem exec_gateOpen (g : Fin 4) (k : Nat) (tap : Fin 320) (s : State) : exec (.gateOpen g k tap) s = execGateOpen g k tap s := rfl
@[simp] theorem exec_gateClose (g : Fin 4) (k : Nat) (tap : Fin 320) (s : State) : exec (.gateClose g k tap) s = execGateClose g k tap s := rfl
@[simp] theorem exec_gateMaxLen (g : Fin 4) (s : State) : exec (.gateMaxLen g) s = execGateMaxLen g s := rfl
@[simp] theorem exec_tsuGateWrite (g : Fin 4) (v : BitVec 64) (s : State) : exec (.tsuGateWrite g v) s = execTsuGateWrite g v s := rfl
@[simp] theorem exec_spareLineChange (s : State) : exec (.spareLineChange) s = execSpareLineChange s := rfl
@[simp] theorem exec_tsuMapDataAccess (w : Option (BitVec 64)) (s : State) : exec (.tsuMapDataAccess w) s = execTsuMapDataAccess w s := rfl
@[simp] theorem exec_ancEnWrite (v : BitVec 64) (s : State) : exec (.ancEnWrite v) s = execAncEnWrite v s := rfl
@[simp] theorem exec_entryDelayEnd (s : State) : exec (.entryDelayEnd) s = execEntryDelayEnd s := rfl
@[simp] theorem exec_conversionEnd (v : Int × Int) (vexc : Int) (clip : Bool) (s : State) : exec (.conversionEnd v vexc clip) s = execConversionEnd v vexc clip s := rfl
@[simp] theorem exec_impedanceCheckEnd (z : Nat) (s : State) : exec (.impedanceCheckEnd z) s = execImpedanceCheckEnd z s := rfl
@[simp] theorem exec_excitationTrip (ch : Fin 16) (current : Nat) (s : State) : exec (.excitationTrip ch current) s = execExcitationTrip ch current s := rfl
@[simp] theorem exec_ancStale (ch : Fin 26) (s : State) : exec (.ancStale ch) s = execAncStale ch s := rfl
@[simp] theorem exec_ancTblDataAccess (w : Option (BitVec 64)) (s : State) : exec (.ancTblDataAccess w) s = execAncTblDataAccess w s := rfl
@[simp] theorem exec_bobStart (x : Fin 4) (s : State) : exec (.bobStart x) s = execBobStart x s := rfl
@[simp] theorem exec_bobPause (x : Fin 4) (s : State) : exec (.bobPause x) s = execBobPause x s := rfl
@[simp] theorem exec_bobFinish (x : Fin 4) (s : State) : exec (.bobFinish x) s = execBobFinish x s := rfl
@[simp] theorem exec_bobFlush (x : Fin 4) (s : State) : exec (.bobFlush x) s = execBobFlush x s := rfl
@[simp] theorem exec_bobAbort (x : Fin 4) (s : State) : exec (.bobAbort x) s = execBobAbort x s := rfl
@[simp] theorem exec_bobSave (x : Fin 4) (slot : Fin 16) (s : State) : exec (.bobSave x slot) s = execBobSave x slot s := rfl
@[simp] theorem exec_bobRestore (x : Fin 4) (slot : Fin 16) (s : State) : exec (.bobRestore x slot) s = execBobRestore x slot s := rfl
@[simp] theorem exec_bobItemRead (x : Fin 4) (s : State) : exec (.bobItemRead x) s = execBobItemRead x s := rfl
@[simp] theorem exec_bobOutputDrain (x : Fin 4) (s : State) : exec (.bobOutputDrain x) s = execBobOutputDrain x s := rfl
@[simp] theorem exec_bobIdleFlush (x : Fin 4) (s : State) : exec (.bobIdleFlush x) s = execBobIdleFlush x s := rfl
@[simp] theorem exec_bobSaveDone (x : Fin 4) (s : State) : exec (.bobSaveDone x) s = execBobSaveDone x s := rfl
@[simp] theorem exec_bobRestoreDone (x : Fin 4) (s : State) : exec (.bobRestoreDone x) s = execBobRestoreDone x s := rfl
@[simp] theorem exec_calRunStart (kind g : Fin 4) (s : State) : exec (.calRunStart kind g) s = execCalRunStart kind g s := rfl
@[simp] theorem exec_calRunEnd (kind : Fin 4) (idx : Fin 256) (m : CalMeas) (s : State) : exec (.calRunEnd kind idx m) s = execCalRunEnd kind idx m s := rfl
@[simp] theorem exec_calPairEnd (kind : Fin 4) (idx : Fin 256) (s : State) : exec (.calPairEnd kind idx) s = execCalPairEnd kind idx s := rfl
@[simp] theorem exec_disagreeRetry (kind : Fin 4) (idx : Fin 256) (s : State) : exec (.disagreeRetry kind idx) s = execDisagreeRetry kind idx s := rfl
@[simp] theorem exec_inplaceCheck (j : Fin 68) (sum : Int) (rail : Bool) (s : State) : exec (.inplaceCheck j sum rail) s = execInplaceCheck j sum rail s := rfl
@[simp] theorem exec_replicaTimeout (s : State) : exec (.replicaTimeout) s = execReplicaTimeout s := rfl
@[simp] theorem exec_calRefWrite (v : BitVec 64) (s : State) : exec (.calRefWrite v) s = execCalRefWrite v s := rfl
@[simp] theorem exec_calSave (v : BitVec 64) (s : State) : exec (.calSave v) s = execCalSave v s := rfl
@[simp] theorem exec_calSaveDone (ok : Bool) (s : State) : exec (.calSaveDone ok) s = execCalSaveDone ok s := rfl
@[simp] theorem exec_refCheck (measured : BitVec 22) (s : State) : exec (.refCheck measured) s = execRefCheck measured s := rfl
@[simp] theorem exec_sensorRead (t0 t1 t2 t3 : BitVec 16) (v0 v1 v2 v3 v4 : BitVec 16) (s : State) : exec (.sensorRead t0 t1 t2 t3 v0 v1 v2 v3 v4) s = execSensorRead t0 t1 t2 t3 v0 v1 v2 v3 v4 s := rfl
@[simp] theorem exec_powerOnReset (s : State) : exec (.powerOnReset) s = execPowerOnReset s := rfl
@[simp] theorem exec_brownOut (s : State) : exec (.brownOut) s = execBrownOut s := rfl
@[simp] theorem exec_perstN (s : State) : exec (.perstN) s = execPerstN s := rfl
@[simp] theorem exec_rstN (s : State) : exec (.rstN) s = execRstN s := rfl
@[simp] theorem exec_flr (s : State) : exec (.flr) s = execFlr s := rfl
@[simp] theorem exec_coreRst (s : State) : exec (.coreRst) s = execCoreRst s := rfl
@[simp] theorem exec_resetRelease (pcie : Fin 4) (noflash : Bool) (s : State) : exec (.resetRelease pcie noflash) s = execResetRelease pcie noflash s := rfl
@[simp] theorem exec_bringupStepEnd (cc : Nat) (o : BringStep) (s : State) : exec (.bringupStepEnd cc o) s = execBringupStepEnd cc o s := rfl
@[simp] theorem exec_pllLockTimeout (s : State) : exec (.pllLockTimeout) s = execPllLockTimeout s := rfl
@[simp] theorem exec_faultClr (s : State) : exec (.faultClr) s = execFaultClr s := rfl
@[simp] theorem exec_faultForce (s : State) : exec (.faultForce) s = execFaultForce s := rfl
@[simp] theorem exec_supplyFault (k : Fin 5 × BitVec 16) (s : State) : exec (.supplyFault k) s = execSupplyFault k s := rfl
@[simp] theorem exec_supplyRecover (s : State) : exec (.supplyRecover) s = execSupplyRecover s := rfl
@[simp] theorem exec_supplyWarn (k : Fin 5) (mv : BitVec 16) (s : State) : exec (.supplyWarn k mv) s = execSupplyWarn k mv s := rfl
@[simp] theorem exec_sysProfileWrite (v : BitVec 64) (s : State) : exec (.sysProfileWrite v) s = execSysProfileWrite v s := rfl
@[simp] theorem exec_rcRegisterRead (r : Fin 8192) (s : State) : exec (.rcRegisterRead r) s = execRcRegisterRead r s := rfl
@[simp] theorem exec_registerWrite (r : Fin 8192) (v : BitVec 64) (s : State) : exec (.registerWrite r v) s = execRegisterWrite r v s := rfl
@[simp] theorem exec_srefReturn (s : State) : exec (.srefReturn) s = execSrefReturn s := rfl
@[simp] theorem exec_pllRelock (s : State) : exec (.pllRelock) s = execPllRelock s := rfl
@[simp] theorem exec_intlkNHigh (s : State) : exec (.intlkNHigh) s = execIntlkNHigh s := rfl
@[simp] theorem exec_pcieLinkUp (speed : Fin 5) (width : Fin 4) (s : State) : exec (.pcieLinkUp speed width) s = execPcieLinkUp speed width s := rfl
@[simp] theorem exec_calclkLoss (s : State) : exec (.calclkLoss) s = execCalclkLoss s := rfl
@[simp] theorem exec_calclkReturn (s : State) : exec (.calclkReturn) s = execCalclkReturn s := rfl
@[simp] theorem exec_engineSelfCheckFail (e : Fin 34) (s : State) : exec (.engineSelfCheckFail e) s = execEngineSelfCheckFail e s := rfl
@[simp] theorem exec_owedRefresh (k : Fin 8) (drift : BitVec 16) (s : State) : exec (.owedRefresh k drift) s = execOwedRefresh k drift s := rfl
@[simp] theorem exec_tapInstructionLoad (ix : TapInstr × BitVec 49) (s : State) : exec (.tapInstructionLoad ix) s = execTapInstructionLoad ix s := rfl

end Sys2Proof.Machine
end

