-- ==== Sys2Proof/Laws/Records.lean ====
section
/-!
SUPPORT. Events, pushes, records and log entries leave everything alone but the register store, the queues, the messages and the
free values: one lemma per operation and field.
-/

set_option autoImplicit false

namespace Sys2Proof.Machine

@[simp] theorem sendVec_pending (v : Nat) (s : State) : (sendVec v s).pending = s.pending := by
  simp only [sendVec]; (repeat' split) <;> rfl
@[simp] theorem sendVec_now (v : Nat) (s : State) : (sendVec v s).now = s.now := by
  simp only [sendVec]; (repeat' split) <;> rfl
@[simp] theorem sendVec_free (v : Nat) (s : State) : (sendVec v s).free = s.free := by
  simp only [sendVec]; (repeat' split) <;> rfl
@[simp] theorem sendVec_csr (v : Nat) (s : State) : (sendVec v s).csr = s.csr := by
  simp only [sendVec]; (repeat' split) <;> rfl
@[simp] theorem sendVec_inf (v : Nat) (s : State) : (sendVec v s).inf = s.inf := by
  simp only [sendVec]; (repeat' split) <;> rfl
@[simp] theorem sendVec_tod (v : Nat) (s : State) : (sendVec v s).tod = s.tod := by
  simp only [sendVec]; (repeat' split) <;> rfl
@[simp] theorem sendVec_ports (v : Nat) (s : State) : (sendVec v s).ports = s.ports := by
  simp only [sendVec]; (repeat' split) <;> rfl
@[simp] theorem sendVec_reed (v : Nat) (s : State) : (sendVec v s).reed = s.reed := by
  simp only [sendVec]; (repeat' split) <;> rfl
@[simp] theorem sendVec_gauge (v : Nat) (s : State) : (sendVec v s).gauge = s.gauge := by
  simp only [sendVec]; (repeat' split) <;> rfl
@[simp] theorem sendVec_heddle (v : Nat) (s : State) : (sendVec v s).heddle = s.heddle := by
  simp only [sendVec]; (repeat' split) <;> rfl
@[simp] theorem sendVec_spc (v : Nat) (s : State) : (sendVec v s).spc = s.spc := by
  simp only [sendVec]; (repeat' split) <;> rfl
@[simp] theorem sendVec_trd (v : Nat) (s : State) : (sendVec v s).trd = s.trd := by
  simp only [sendVec]; (repeat' split) <;> rfl
@[simp] theorem sendVec_src (v : Nat) (s : State) : (sendVec v s).src = s.src := by
  simp only [sendVec]; (repeat' split) <;> rfl
@[simp] theorem sendVec_cal (v : Nat) (s : State) : (sendVec v s).cal = s.cal := by
  simp only [sendVec]; (repeat' split) <;> rfl
@[simp] theorem sendVec_warp (v : Nat) (s : State) : (sendVec v s).warp = s.warp := by
  simp only [sendVec]; (repeat' split) <;> rfl
@[simp] theorem sendVec_queues (v : Nat) (s : State) : (sendVec v s).queues = s.queues := by
  simp only [sendVec]; (repeat' split) <;> rfl
@[simp] theorem sendVec_rings (v : Nat) (s : State) : (sendVec v s).rings = s.rings := by
  simp only [sendVec]; (repeat' split) <;> rfl
@[simp] theorem sendVec_sht (v : Nat) (s : State) : (sendVec v s).sht = s.sht := by
  simp only [sendVec]; (repeat' split) <;> rfl
@[simp] theorem sendVec_dram (v : Nat) (s : State) : (sendVec v s).dram = s.dram := by
  simp only [sendVec]; (repeat' split) <;> rfl
@[simp] theorem sendVec_tsu (v : Nat) (s : State) : (sendVec v s).tsu = s.tsu := by
  simp only [sendVec]; (repeat' split) <;> rfl
@[simp] theorem sendVec_anc (v : Nat) (s : State) : (sendVec v s).anc = s.anc := by
  simp only [sendVec]; (repeat' split) <;> rfl
@[simp] theorem sendVec_bob (v : Nat) (s : State) : (sendVec v s).bob = s.bob := by
  simp only [sendVec]; (repeat' split) <;> rfl
@[simp] theorem sendVec_sys (v : Nat) (s : State) : (sendVec v s).sys = s.sys := by
  simp only [sendVec]; (repeat' split) <;> rfl

@[simp] theorem raise_pending (e : Nat) (s : State) : (raise e s).pending = s.pending := by
  simp only [raise]; split <;> simp
@[simp] theorem raise_now (e : Nat) (s : State) : (raise e s).now = s.now := by
  simp only [raise]; split <;> simp
@[simp] theorem raise_free (e : Nat) (s : State) : (raise e s).free = s.free := by
  simp only [raise]; split <;> simp
@[simp] theorem raise_inf (e : Nat) (s : State) : (raise e s).inf = s.inf := by
  simp only [raise]; split <;> simp
@[simp] theorem raise_tod (e : Nat) (s : State) : (raise e s).tod = s.tod := by
  simp only [raise]; split <;> simp
@[simp] theorem raise_ports (e : Nat) (s : State) : (raise e s).ports = s.ports := by
  simp only [raise]; split <;> simp
@[simp] theorem raise_reed (e : Nat) (s : State) : (raise e s).reed = s.reed := by
  simp only [raise]; split <;> simp
@[simp] theorem raise_gauge (e : Nat) (s : State) : (raise e s).gauge = s.gauge := by
  simp only [raise]; split <;> simp
@[simp] theorem raise_heddle (e : Nat) (s : State) : (raise e s).heddle = s.heddle := by
  simp only [raise]; split <;> simp
@[simp] theorem raise_spc (e : Nat) (s : State) : (raise e s).spc = s.spc := by
  simp only [raise]; split <;> simp
@[simp] theorem raise_trd (e : Nat) (s : State) : (raise e s).trd = s.trd := by
  simp only [raise]; split <;> simp
@[simp] theorem raise_src (e : Nat) (s : State) : (raise e s).src = s.src := by
  simp only [raise]; split <;> simp
@[simp] theorem raise_cal (e : Nat) (s : State) : (raise e s).cal = s.cal := by
  simp only [raise]; split <;> simp
@[simp] theorem raise_warp (e : Nat) (s : State) : (raise e s).warp = s.warp := by
  simp only [raise]; split <;> simp
@[simp] theorem raise_queues (e : Nat) (s : State) : (raise e s).queues = s.queues := by
  simp only [raise]; split <;> simp
@[simp] theorem raise_rings (e : Nat) (s : State) : (raise e s).rings = s.rings := by
  simp only [raise]; split <;> simp
@[simp] theorem raise_sht (e : Nat) (s : State) : (raise e s).sht = s.sht := by
  simp only [raise]; split <;> simp
@[simp] theorem raise_dram (e : Nat) (s : State) : (raise e s).dram = s.dram := by
  simp only [raise]; split <;> simp
@[simp] theorem raise_tsu (e : Nat) (s : State) : (raise e s).tsu = s.tsu := by
  simp only [raise]; split <;> simp
@[simp] theorem raise_anc (e : Nat) (s : State) : (raise e s).anc = s.anc := by
  simp only [raise]; split <;> simp
@[simp] theorem raise_bob (e : Nat) (s : State) : (raise e s).bob = s.bob := by
  simp only [raise]; split <;> simp
@[simp] theorem raise_sys (e : Nat) (s : State) : (raise e s).sys = s.sys := by
  simp only [raise]; split <;> simp

@[simp] theorem bumpBy_pending (f : Fld) (i n : Nat) (s : State) : (bumpBy f i n s).pending = s.pending := by
  simp only [bumpBy]; split <;> simp
@[simp] theorem bumpBy_now (f : Fld) (i n : Nat) (s : State) : (bumpBy f i n s).now = s.now := by
  simp only [bumpBy]; split <;> simp
@[simp] theorem bumpBy_free (f : Fld) (i n : Nat) (s : State) : (bumpBy f i n s).free = s.free := by
  simp only [bumpBy]; split <;> simp
@[simp] theorem bumpBy_inf (f : Fld) (i n : Nat) (s : State) : (bumpBy f i n s).inf = s.inf := by
  simp only [bumpBy]; split <;> simp
@[simp] theorem bumpBy_out (f : Fld) (i n : Nat) (s : State) : (bumpBy f i n s).out = s.out := by
  simp only [bumpBy]; split <;> simp
@[simp] theorem bumpBy_tod (f : Fld) (i n : Nat) (s : State) : (bumpBy f i n s).tod = s.tod := by
  simp only [bumpBy]; split <;> simp
@[simp] theorem bumpBy_ports (f : Fld) (i n : Nat) (s : State) : (bumpBy f i n s).ports = s.ports := by
  simp only [bumpBy]; split <;> simp
@[simp] theorem bumpBy_reed (f : Fld) (i n : Nat) (s : State) : (bumpBy f i n s).reed = s.reed := by
  simp only [bumpBy]; split <;> simp
@[simp] theorem bumpBy_gauge (f : Fld) (i n : Nat) (s : State) : (bumpBy f i n s).gauge = s.gauge := by
  simp only [bumpBy]; split <;> simp
@[simp] theorem bumpBy_heddle (f : Fld) (i n : Nat) (s : State) : (bumpBy f i n s).heddle = s.heddle := by
  simp only [bumpBy]; split <;> simp
@[simp] theorem bumpBy_spc (f : Fld) (i n : Nat) (s : State) : (bumpBy f i n s).spc = s.spc := by
  simp only [bumpBy]; split <;> simp
@[simp] theorem bumpBy_trd (f : Fld) (i n : Nat) (s : State) : (bumpBy f i n s).trd = s.trd := by
  simp only [bumpBy]; split <;> simp
@[simp] theorem bumpBy_src (f : Fld) (i n : Nat) (s : State) : (bumpBy f i n s).src = s.src := by
  simp only [bumpBy]; split <;> simp
@[simp] theorem bumpBy_cal (f : Fld) (i n : Nat) (s : State) : (bumpBy f i n s).cal = s.cal := by
  simp only [bumpBy]; split <;> simp
@[simp] theorem bumpBy_warp (f : Fld) (i n : Nat) (s : State) : (bumpBy f i n s).warp = s.warp := by
  simp only [bumpBy]; split <;> simp
@[simp] theorem bumpBy_queues (f : Fld) (i n : Nat) (s : State) : (bumpBy f i n s).queues = s.queues := by
  simp only [bumpBy]; split <;> simp
@[simp] theorem bumpBy_host (f : Fld) (i n : Nat) (s : State) : (bumpBy f i n s).host = s.host := by
  simp only [bumpBy]; split <;> simp
@[simp] theorem bumpBy_rings (f : Fld) (i n : Nat) (s : State) : (bumpBy f i n s).rings = s.rings := by
  simp only [bumpBy]; split <;> simp
@[simp] theorem bumpBy_sht (f : Fld) (i n : Nat) (s : State) : (bumpBy f i n s).sht = s.sht := by
  simp only [bumpBy]; split <;> simp
@[simp] theorem bumpBy_dram (f : Fld) (i n : Nat) (s : State) : (bumpBy f i n s).dram = s.dram := by
  simp only [bumpBy]; split <;> simp
@[simp] theorem bumpBy_tsu (f : Fld) (i n : Nat) (s : State) : (bumpBy f i n s).tsu = s.tsu := by
  simp only [bumpBy]; split <;> simp
@[simp] theorem bumpBy_anc (f : Fld) (i n : Nat) (s : State) : (bumpBy f i n s).anc = s.anc := by
  simp only [bumpBy]; split <;> simp
@[simp] theorem bumpBy_bob (f : Fld) (i n : Nat) (s : State) : (bumpBy f i n s).bob = s.bob := by
  simp only [bumpBy]; split <;> simp
@[simp] theorem bumpBy_sys (f : Fld) (i n : Nat) (s : State) : (bumpBy f i n s).sys = s.sys := by
  simp only [bumpBy]; split <;> simp

@[simp] theorem bump_pending (f : Fld) (i : Nat) (s : State) : (bump f i s).pending = s.pending := by
  simp [bump]
@[simp] theorem bump_now (f : Fld) (i : Nat) (s : State) : (bump f i s).now = s.now := by
  simp [bump]
@[simp] theorem bump_free (f : Fld) (i : Nat) (s : State) : (bump f i s).free = s.free := by
  simp [bump]
@[simp] theorem bump_inf (f : Fld) (i : Nat) (s : State) : (bump f i s).inf = s.inf := by
  simp [bump]
@[simp] theorem bump_out (f : Fld) (i : Nat) (s : State) : (bump f i s).out = s.out := by
  simp [bump]
@[simp] theorem bump_tod (f : Fld) (i : Nat) (s : State) : (bump f i s).tod = s.tod := by
  simp [bump]
@[simp] theorem bump_ports (f : Fld) (i : Nat) (s : State) : (bump f i s).ports = s.ports := by
  simp [bump]
@[simp] theorem bump_reed (f : Fld) (i : Nat) (s : State) : (bump f i s).reed = s.reed := by
  simp [bump]
@[simp] theorem bump_gauge (f : Fld) (i : Nat) (s : State) : (bump f i s).gauge = s.gauge := by
  simp [bump]
@[simp] theorem bump_heddle (f : Fld) (i : Nat) (s : State) : (bump f i s).heddle = s.heddle := by
  simp [bump]
@[simp] theorem bump_spc (f : Fld) (i : Nat) (s : State) : (bump f i s).spc = s.spc := by
  simp [bump]
@[simp] theorem bump_trd (f : Fld) (i : Nat) (s : State) : (bump f i s).trd = s.trd := by
  simp [bump]
@[simp] theorem bump_src (f : Fld) (i : Nat) (s : State) : (bump f i s).src = s.src := by
  simp [bump]
@[simp] theorem bump_cal (f : Fld) (i : Nat) (s : State) : (bump f i s).cal = s.cal := by
  simp [bump]
@[simp] theorem bump_warp (f : Fld) (i : Nat) (s : State) : (bump f i s).warp = s.warp := by
  simp [bump]
@[simp] theorem bump_queues (f : Fld) (i : Nat) (s : State) : (bump f i s).queues = s.queues := by
  simp [bump]
@[simp] theorem bump_host (f : Fld) (i : Nat) (s : State) : (bump f i s).host = s.host := by
  simp [bump]
@[simp] theorem bump_rings (f : Fld) (i : Nat) (s : State) : (bump f i s).rings = s.rings := by
  simp [bump]
@[simp] theorem bump_sht (f : Fld) (i : Nat) (s : State) : (bump f i s).sht = s.sht := by
  simp [bump]
@[simp] theorem bump_dram (f : Fld) (i : Nat) (s : State) : (bump f i s).dram = s.dram := by
  simp [bump]
@[simp] theorem bump_tsu (f : Fld) (i : Nat) (s : State) : (bump f i s).tsu = s.tsu := by
  simp [bump]
@[simp] theorem bump_anc (f : Fld) (i : Nat) (s : State) : (bump f i s).anc = s.anc := by
  simp [bump]
@[simp] theorem bump_bob (f : Fld) (i : Nat) (s : State) : (bump f i s).bob = s.bob := by
  simp [bump]
@[simp] theorem bump_sys (f : Fld) (i : Nat) (s : State) : (bump f i s).sys = s.sys := by
  simp [bump]

@[simp] theorem poolStore_pending (k d : Nat) (s : State) : ((poolStore k d s).2).pending = s.pending := by
  simp only [poolStore]; (repeat' split) <;> rfl
@[simp] theorem poolStore_now (k d : Nat) (s : State) : ((poolStore k d s).2).now = s.now := by
  simp only [poolStore]; (repeat' split) <;> rfl
@[simp] theorem poolStore_free (k d : Nat) (s : State) : ((poolStore k d s).2).free = s.free := by
  simp only [poolStore]; (repeat' split) <;> rfl
@[simp] theorem poolStore_inf (k d : Nat) (s : State) : ((poolStore k d s).2).inf = s.inf := by
  simp only [poolStore]; (repeat' split) <;> rfl
@[simp] theorem poolStore_out (k d : Nat) (s : State) : ((poolStore k d s).2).out = s.out := by
  simp only [poolStore]; (repeat' split) <;> rfl
@[simp] theorem poolStore_tod (k d : Nat) (s : State) : ((poolStore k d s).2).tod = s.tod := by
  simp only [poolStore]; (repeat' split) <;> rfl
@[simp] theorem poolStore_ports (k d : Nat) (s : State) : ((poolStore k d s).2).ports = s.ports := by
  simp only [poolStore]; (repeat' split) <;> rfl
@[simp] theorem poolStore_reed (k d : Nat) (s : State) : ((poolStore k d s).2).reed = s.reed := by
  simp only [poolStore]; (repeat' split) <;> rfl
@[simp] theorem poolStore_gauge (k d : Nat) (s : State) : ((poolStore k d s).2).gauge = s.gauge := by
  simp only [poolStore]; (repeat' split) <;> rfl
@[simp] theorem poolStore_heddle (k d : Nat) (s : State) : ((poolStore k d s).2).heddle = s.heddle := by
  simp only [poolStore]; (repeat' split) <;> rfl
@[simp] theorem poolStore_spc (k d : Nat) (s : State) : ((poolStore k d s).2).spc = s.spc := by
  simp only [poolStore]; (repeat' split) <;> rfl
@[simp] theorem poolStore_trd (k d : Nat) (s : State) : ((poolStore k d s).2).trd = s.trd := by
  simp only [poolStore]; (repeat' split) <;> rfl
@[simp] theorem poolStore_src (k d : Nat) (s : State) : ((poolStore k d s).2).src = s.src := by
  simp only [poolStore]; (repeat' split) <;> rfl
@[simp] theorem poolStore_cal (k d : Nat) (s : State) : ((poolStore k d s).2).cal = s.cal := by
  simp only [poolStore]; (repeat' split) <;> rfl
@[simp] theorem poolStore_warp (k d : Nat) (s : State) : ((poolStore k d s).2).warp = s.warp := by
  simp only [poolStore]; (repeat' split) <;> rfl
@[simp] theorem poolStore_queues (k d : Nat) (s : State) : ((poolStore k d s).2).queues = s.queues := by
  simp only [poolStore]; (repeat' split) <;> rfl
@[simp] theorem poolStore_host (k d : Nat) (s : State) : ((poolStore k d s).2).host = s.host := by
  simp only [poolStore]; (repeat' split) <;> rfl
@[simp] theorem poolStore_rings (k d : Nat) (s : State) : ((poolStore k d s).2).rings = s.rings := by
  simp only [poolStore]; (repeat' split) <;> rfl
@[simp] theorem poolStore_sht (k d : Nat) (s : State) : ((poolStore k d s).2).sht = s.sht := by
  simp only [poolStore]; (repeat' split) <;> rfl
@[simp] theorem poolStore_dram (k d : Nat) (s : State) : ((poolStore k d s).2).dram = s.dram := by
  simp only [poolStore]; (repeat' split) <;> rfl
@[simp] theorem poolStore_tsu (k d : Nat) (s : State) : ((poolStore k d s).2).tsu = s.tsu := by
  simp only [poolStore]; (repeat' split) <;> rfl
@[simp] theorem poolStore_anc (k d : Nat) (s : State) : ((poolStore k d s).2).anc = s.anc := by
  simp only [poolStore]; (repeat' split) <;> rfl
@[simp] theorem poolStore_bob (k d : Nat) (s : State) : ((poolStore k d s).2).bob = s.bob := by
  simp only [poolStore]; (repeat' split) <;> rfl
@[simp] theorem poolStore_sys (k d : Nat) (s : State) : ((poolStore k d s).2).sys = s.sys := by
  simp only [poolStore]; (repeat' split) <;> rfl

@[simp] theorem pushOne_pending (q p d : Nat) (s : State) : (pushOne q p d s).pending = s.pending := by
  simp [pushOne]
@[simp] theorem pushOne_now (q p d : Nat) (s : State) : (pushOne q p d s).now = s.now := by
  simp [pushOne]
@[simp] theorem pushOne_free (q p d : Nat) (s : State) : (pushOne q p d s).free = s.free := by
  simp [pushOne]
@[simp] theorem pushOne_inf (q p d : Nat) (s : State) : (pushOne q p d s).inf = s.inf := by
  simp [pushOne]
@[simp] theorem pushOne_out (q p d : Nat) (s : State) : (pushOne q p d s).out = s.out := by
  simp [pushOne]
@[simp] theorem pushOne_tod (q p d : Nat) (s : State) : (pushOne q p d s).tod = s.tod := by
  simp [pushOne]
@[simp] theorem pushOne_ports (q p d : Nat) (s : State) : (pushOne q p d s).ports = s.ports := by
  simp [pushOne]
@[simp] theorem pushOne_reed (q p d : Nat) (s : State) : (pushOne q p d s).reed = s.reed := by
  simp [pushOne]
@[simp] theorem pushOne_gauge (q p d : Nat) (s : State) : (pushOne q p d s).gauge = s.gauge := by
  simp [pushOne]
@[simp] theorem pushOne_heddle (q p d : Nat) (s : State) : (pushOne q p d s).heddle = s.heddle := by
  simp [pushOne]
@[simp] theorem pushOne_spc (q p d : Nat) (s : State) : (pushOne q p d s).spc = s.spc := by
  simp [pushOne]
@[simp] theorem pushOne_trd (q p d : Nat) (s : State) : (pushOne q p d s).trd = s.trd := by
  simp [pushOne]
@[simp] theorem pushOne_src (q p d : Nat) (s : State) : (pushOne q p d s).src = s.src := by
  simp [pushOne]
@[simp] theorem pushOne_cal (q p d : Nat) (s : State) : (pushOne q p d s).cal = s.cal := by
  simp [pushOne]
@[simp] theorem pushOne_warp (q p d : Nat) (s : State) : (pushOne q p d s).warp = s.warp := by
  simp [pushOne]
@[simp] theorem pushOne_host (q p d : Nat) (s : State) : (pushOne q p d s).host = s.host := by
  simp [pushOne]
@[simp] theorem pushOne_rings (q p d : Nat) (s : State) : (pushOne q p d s).rings = s.rings := by
  simp [pushOne]
@[simp] theorem pushOne_sht (q p d : Nat) (s : State) : (pushOne q p d s).sht = s.sht := by
  simp [pushOne]
@[simp] theorem pushOne_dram (q p d : Nat) (s : State) : (pushOne q p d s).dram = s.dram := by
  simp [pushOne]
@[simp] theorem pushOne_tsu (q p d : Nat) (s : State) : (pushOne q p d s).tsu = s.tsu := by
  simp [pushOne]
@[simp] theorem pushOne_anc (q p d : Nat) (s : State) : (pushOne q p d s).anc = s.anc := by
  simp [pushOne]
@[simp] theorem pushOne_bob (q p d : Nat) (s : State) : (pushOne q p d s).bob = s.bob := by
  simp [pushOne]
@[simp] theorem pushOne_sys (q p d : Nat) (s : State) : (pushOne q p d s).sys = s.sys := by
  simp [pushOne]

@[simp] theorem pushGo_pending (q p : Nat) (l : List Nat) (s : State) : (l.foldl (fun s d => pushOne q p d s) s).pending = s.pending := by
  induction l generalizing s with
  | nil => rfl
  | cons d t ih => simp [List.foldl_cons, ih]
@[simp] theorem pushGo_now (q p : Nat) (l : List Nat) (s : State) : (l.foldl (fun s d => pushOne q p d s) s).now = s.now := by
  induction l generalizing s with
  | nil => rfl
  | cons d t ih => simp [List.foldl_cons, ih]
@[simp] theorem pushGo_free (q p : Nat) (l : List Nat) (s : State) : (l.foldl (fun s d => pushOne q p d s) s).free = s.free := by
  induction l generalizing s with
  | nil => rfl
  | cons d t ih => simp [List.foldl_cons, ih]
@[simp] theorem pushGo_inf (q p : Nat) (l : List Nat) (s : State) : (l.foldl (fun s d => pushOne q p d s) s).inf = s.inf := by
  induction l generalizing s with
  | nil => rfl
  | cons d t ih => simp [List.foldl_cons, ih]
@[simp] theorem pushGo_out (q p : Nat) (l : List Nat) (s : State) : (l.foldl (fun s d => pushOne q p d s) s).out = s.out := by
  induction l generalizing s with
  | nil => rfl
  | cons d t ih => simp [List.foldl_cons, ih]
@[simp] theorem pushGo_tod (q p : Nat) (l : List Nat) (s : State) : (l.foldl (fun s d => pushOne q p d s) s).tod = s.tod := by
  induction l generalizing s with
  | nil => rfl
  | cons d t ih => simp [List.foldl_cons, ih]
@[simp] theorem pushGo_ports (q p : Nat) (l : List Nat) (s : State) : (l.foldl (fun s d => pushOne q p d s) s).ports = s.ports := by
  induction l generalizing s with
  | nil => rfl
  | cons d t ih => simp [List.foldl_cons, ih]
@[simp] theorem pushGo_reed (q p : Nat) (l : List Nat) (s : State) : (l.foldl (fun s d => pushOne q p d s) s).reed = s.reed := by
  induction l generalizing s with
  | nil => rfl
  | cons d t ih => simp [List.foldl_cons, ih]
@[simp] theorem pushGo_gauge (q p : Nat) (l : List Nat) (s : State) : (l.foldl (fun s d => pushOne q p d s) s).gauge = s.gauge := by
  induction l generalizing s with
  | nil => rfl
  | cons d t ih => simp [List.foldl_cons, ih]
@[simp] theorem pushGo_heddle (q p : Nat) (l : List Nat) (s : State) : (l.foldl (fun s d => pushOne q p d s) s).heddle = s.heddle := by
  induction l generalizing s with
  | nil => rfl
  | cons d t ih => simp [List.foldl_cons, ih]
@[simp] theorem pushGo_spc (q p : Nat) (l : List Nat) (s : State) : (l.foldl (fun s d => pushOne q p d s) s).spc = s.spc := by
  induction l generalizing s with
  | nil => rfl
  | cons d t ih => simp [List.foldl_cons, ih]
@[simp] theorem pushGo_trd (q p : Nat) (l : List Nat) (s : State) : (l.foldl (fun s d => pushOne q p d s) s).trd = s.trd := by
  induction l generalizing s with
  | nil => rfl
  | cons d t ih => simp [List.foldl_cons, ih]
@[simp] theorem pushGo_src (q p : Nat) (l : List Nat) (s : State) : (l.foldl (fun s d => pushOne q p d s) s).src = s.src := by
  induction l generalizing s with
  | nil => rfl
  | cons d t ih => simp [List.foldl_cons, ih]
@[simp] theorem pushGo_cal (q p : Nat) (l : List Nat) (s : State) : (l.foldl (fun s d => pushOne q p d s) s).cal = s.cal := by
  induction l generalizing s with
  | nil => rfl
  | cons d t ih => simp [List.foldl_cons, ih]
@[simp] theorem pushGo_warp (q p : Nat) (l : List Nat) (s : State) : (l.foldl (fun s d => pushOne q p d s) s).warp = s.warp := by
  induction l generalizing s with
  | nil => rfl
  | cons d t ih => simp [List.foldl_cons, ih]
@[simp] theorem pushGo_host (q p : Nat) (l : List Nat) (s : State) : (l.foldl (fun s d => pushOne q p d s) s).host = s.host := by
  induction l generalizing s with
  | nil => rfl
  | cons d t ih => simp [List.foldl_cons, ih]
@[simp] theorem pushGo_rings (q p : Nat) (l : List Nat) (s : State) : (l.foldl (fun s d => pushOne q p d s) s).rings = s.rings := by
  induction l generalizing s with
  | nil => rfl
  | cons d t ih => simp [List.foldl_cons, ih]
@[simp] theorem pushGo_sht (q p : Nat) (l : List Nat) (s : State) : (l.foldl (fun s d => pushOne q p d s) s).sht = s.sht := by
  induction l generalizing s with
  | nil => rfl
  | cons d t ih => simp [List.foldl_cons, ih]
@[simp] theorem pushGo_dram (q p : Nat) (l : List Nat) (s : State) : (l.foldl (fun s d => pushOne q p d s) s).dram = s.dram := by
  induction l generalizing s with
  | nil => rfl
  | cons d t ih => simp [List.foldl_cons, ih]
@[simp] theorem pushGo_tsu (q p : Nat) (l : List Nat) (s : State) : (l.foldl (fun s d => pushOne q p d s) s).tsu = s.tsu := by
  induction l generalizing s with
  | nil => rfl
  | cons d t ih => simp [List.foldl_cons, ih]
@[simp] theorem pushGo_anc (q p : Nat) (l : List Nat) (s : State) : (l.foldl (fun s d => pushOne q p d s) s).anc = s.anc := by
  induction l generalizing s with
  | nil => rfl
  | cons d t ih => simp [List.foldl_cons, ih]
@[simp] theorem pushGo_bob (q p : Nat) (l : List Nat) (s : State) : (l.foldl (fun s d => pushOne q p d s) s).bob = s.bob := by
  induction l generalizing s with
  | nil => rfl
  | cons d t ih => simp [List.foldl_cons, ih]
@[simp] theorem pushGo_sys (q p : Nat) (l : List Nat) (s : State) : (l.foldl (fun s d => pushOne q p d s) s).sys = s.sys := by
  induction l generalizing s with
  | nil => rfl
  | cons d t ih => simp [List.foldl_cons, ih]

@[simp] theorem levelCross_pending (q a b : Nat) (s : State) : (levelCross q a b s).pending = s.pending := by
  simp only [levelCross]; split <;> simp
@[simp] theorem levelCross_now (q a b : Nat) (s : State) : (levelCross q a b s).now = s.now := by
  simp only [levelCross]; split <;> simp
@[simp] theorem levelCross_free (q a b : Nat) (s : State) : (levelCross q a b s).free = s.free := by
  simp only [levelCross]; split <;> simp
@[simp] theorem levelCross_inf (q a b : Nat) (s : State) : (levelCross q a b s).inf = s.inf := by
  simp only [levelCross]; split <;> simp
@[simp] theorem levelCross_tod (q a b : Nat) (s : State) : (levelCross q a b s).tod = s.tod := by
  simp only [levelCross]; split <;> simp
@[simp] theorem levelCross_ports (q a b : Nat) (s : State) : (levelCross q a b s).ports = s.ports := by
  simp only [levelCross]; split <;> simp
@[simp] theorem levelCross_reed (q a b : Nat) (s : State) : (levelCross q a b s).reed = s.reed := by
  simp only [levelCross]; split <;> simp
@[simp] theorem levelCross_gauge (q a b : Nat) (s : State) : (levelCross q a b s).gauge = s.gauge := by
  simp only [levelCross]; split <;> simp
@[simp] theorem levelCross_heddle (q a b : Nat) (s : State) : (levelCross q a b s).heddle = s.heddle := by
  simp only [levelCross]; split <;> simp
@[simp] theorem levelCross_spc (q a b : Nat) (s : State) : (levelCross q a b s).spc = s.spc := by
  simp only [levelCross]; split <;> simp
@[simp] theorem levelCross_trd (q a b : Nat) (s : State) : (levelCross q a b s).trd = s.trd := by
  simp only [levelCross]; split <;> simp
@[simp] theorem levelCross_src (q a b : Nat) (s : State) : (levelCross q a b s).src = s.src := by
  simp only [levelCross]; split <;> simp
@[simp] theorem levelCross_cal (q a b : Nat) (s : State) : (levelCross q a b s).cal = s.cal := by
  simp only [levelCross]; split <;> simp
@[simp] theorem levelCross_warp (q a b : Nat) (s : State) : (levelCross q a b s).warp = s.warp := by
  simp only [levelCross]; split <;> simp
@[simp] theorem levelCross_queues (q a b : Nat) (s : State) : (levelCross q a b s).queues = s.queues := by
  simp only [levelCross]; split <;> simp
@[simp] theorem levelCross_rings (q a b : Nat) (s : State) : (levelCross q a b s).rings = s.rings := by
  simp only [levelCross]; split <;> simp
@[simp] theorem levelCross_sht (q a b : Nat) (s : State) : (levelCross q a b s).sht = s.sht := by
  simp only [levelCross]; split <;> simp
@[simp] theorem levelCross_dram (q a b : Nat) (s : State) : (levelCross q a b s).dram = s.dram := by
  simp only [levelCross]; split <;> simp
@[simp] theorem levelCross_tsu (q a b : Nat) (s : State) : (levelCross q a b s).tsu = s.tsu := by
  simp only [levelCross]; split <;> simp
@[simp] theorem levelCross_anc (q a b : Nat) (s : State) : (levelCross q a b s).anc = s.anc := by
  simp only [levelCross]; split <;> simp
@[simp] theorem levelCross_bob (q a b : Nat) (s : State) : (levelCross q a b s).bob = s.bob := by
  simp only [levelCross]; split <;> simp
@[simp] theorem levelCross_sys (q a b : Nat) (s : State) : (levelCross q a b s).sys = s.sys := by
  simp only [levelCross]; split <;> simp

@[simp] theorem poolLowCheck_pending (z : Int) (s : State) : (poolLowCheck z s).pending = s.pending := by
  simp only [poolLowCheck]; split <;> simp
@[simp] theorem poolLowCheck_now (z : Int) (s : State) : (poolLowCheck z s).now = s.now := by
  simp only [poolLowCheck]; split <;> simp
@[simp] theorem poolLowCheck_free (z : Int) (s : State) : (poolLowCheck z s).free = s.free := by
  simp only [poolLowCheck]; split <;> simp
@[simp] theorem poolLowCheck_inf (z : Int) (s : State) : (poolLowCheck z s).inf = s.inf := by
  simp only [poolLowCheck]; split <;> simp
@[simp] theorem poolLowCheck_tod (z : Int) (s : State) : (poolLowCheck z s).tod = s.tod := by
  simp only [poolLowCheck]; split <;> simp
@[simp] theorem poolLowCheck_ports (z : Int) (s : State) : (poolLowCheck z s).ports = s.ports := by
  simp only [poolLowCheck]; split <;> simp
@[simp] theorem poolLowCheck_reed (z : Int) (s : State) : (poolLowCheck z s).reed = s.reed := by
  simp only [poolLowCheck]; split <;> simp
@[simp] theorem poolLowCheck_gauge (z : Int) (s : State) : (poolLowCheck z s).gauge = s.gauge := by
  simp only [poolLowCheck]; split <;> simp
@[simp] theorem poolLowCheck_heddle (z : Int) (s : State) : (poolLowCheck z s).heddle = s.heddle := by
  simp only [poolLowCheck]; split <;> simp
@[simp] theorem poolLowCheck_spc (z : Int) (s : State) : (poolLowCheck z s).spc = s.spc := by
  simp only [poolLowCheck]; split <;> simp
@[simp] theorem poolLowCheck_trd (z : Int) (s : State) : (poolLowCheck z s).trd = s.trd := by
  simp only [poolLowCheck]; split <;> simp
@[simp] theorem poolLowCheck_src (z : Int) (s : State) : (poolLowCheck z s).src = s.src := by
  simp only [poolLowCheck]; split <;> simp
@[simp] theorem poolLowCheck_cal (z : Int) (s : State) : (poolLowCheck z s).cal = s.cal := by
  simp only [poolLowCheck]; split <;> simp
@[simp] theorem poolLowCheck_warp (z : Int) (s : State) : (poolLowCheck z s).warp = s.warp := by
  simp only [poolLowCheck]; split <;> simp
@[simp] theorem poolLowCheck_queues (z : Int) (s : State) : (poolLowCheck z s).queues = s.queues := by
  simp only [poolLowCheck]; split <;> simp
@[simp] theorem poolLowCheck_rings (z : Int) (s : State) : (poolLowCheck z s).rings = s.rings := by
  simp only [poolLowCheck]; split <;> simp
@[simp] theorem poolLowCheck_sht (z : Int) (s : State) : (poolLowCheck z s).sht = s.sht := by
  simp only [poolLowCheck]; split <;> simp
@[simp] theorem poolLowCheck_dram (z : Int) (s : State) : (poolLowCheck z s).dram = s.dram := by
  simp only [poolLowCheck]; split <;> simp
@[simp] theorem poolLowCheck_tsu (z : Int) (s : State) : (poolLowCheck z s).tsu = s.tsu := by
  simp only [poolLowCheck]; split <;> simp
@[simp] theorem poolLowCheck_anc (z : Int) (s : State) : (poolLowCheck z s).anc = s.anc := by
  simp only [poolLowCheck]; split <;> simp
@[simp] theorem poolLowCheck_bob (z : Int) (s : State) : (poolLowCheck z s).bob = s.bob := by
  simp only [poolLowCheck]; split <;> simp
@[simp] theorem poolLowCheck_sys (z : Int) (s : State) : (poolLowCheck z s).sys = s.sys := by
  simp only [poolLowCheck]; split <;> simp

@[simp] theorem pushItems_pending (q p : Nat) (l : List Nat) (s : State) : (pushItems q p l s).pending = s.pending := by
  simp [pushItems]
@[simp] theorem pushItems_now (q p : Nat) (l : List Nat) (s : State) : (pushItems q p l s).now = s.now := by
  simp [pushItems]
@[simp] theorem pushItems_free (q p : Nat) (l : List Nat) (s : State) : (pushItems q p l s).free = s.free := by
  simp [pushItems]
@[simp] theorem pushItems_inf (q p : Nat) (l : List Nat) (s : State) : (pushItems q p l s).inf = s.inf := by
  simp [pushItems]
@[simp] theorem pushItems_tod (q p : Nat) (l : List Nat) (s : State) : (pushItems q p l s).tod = s.tod := by
  simp [pushItems]
@[simp] theorem pushItems_ports (q p : Nat) (l : List Nat) (s : State) : (pushItems q p l s).ports = s.ports := by
  simp [pushItems]
@[simp] theorem pushItems_reed (q p : Nat) (l : List Nat) (s : State) : (pushItems q p l s).reed = s.reed := by
  simp [pushItems]
@[simp] theorem pushItems_gauge (q p : Nat) (l : List Nat) (s : State) : (pushItems q p l s).gauge = s.gauge := by
  simp [pushItems]
@[simp] theorem pushItems_heddle (q p : Nat) (l : List Nat) (s : State) : (pushItems q p l s).heddle = s.heddle := by
  simp [pushItems]
@[simp] theorem pushItems_spc (q p : Nat) (l : List Nat) (s : State) : (pushItems q p l s).spc = s.spc := by
  simp [pushItems]
@[simp] theorem pushItems_trd (q p : Nat) (l : List Nat) (s : State) : (pushItems q p l s).trd = s.trd := by
  simp [pushItems]
@[simp] theorem pushItems_src (q p : Nat) (l : List Nat) (s : State) : (pushItems q p l s).src = s.src := by
  simp [pushItems]
@[simp] theorem pushItems_cal (q p : Nat) (l : List Nat) (s : State) : (pushItems q p l s).cal = s.cal := by
  simp [pushItems]
@[simp] theorem pushItems_warp (q p : Nat) (l : List Nat) (s : State) : (pushItems q p l s).warp = s.warp := by
  simp [pushItems]
@[simp] theorem pushItems_rings (q p : Nat) (l : List Nat) (s : State) : (pushItems q p l s).rings = s.rings := by
  simp [pushItems]
@[simp] theorem pushItems_sht (q p : Nat) (l : List Nat) (s : State) : (pushItems q p l s).sht = s.sht := by
  simp [pushItems]
@[simp] theorem pushItems_dram (q p : Nat) (l : List Nat) (s : State) : (pushItems q p l s).dram = s.dram := by
  simp [pushItems]
@[simp] theorem pushItems_tsu (q p : Nat) (l : List Nat) (s : State) : (pushItems q p l s).tsu = s.tsu := by
  simp [pushItems]
@[simp] theorem pushItems_anc (q p : Nat) (l : List Nat) (s : State) : (pushItems q p l s).anc = s.anc := by
  simp [pushItems]
@[simp] theorem pushItems_bob (q p : Nat) (l : List Nat) (s : State) : (pushItems q p l s).bob = s.bob := by
  simp [pushItems]
@[simp] theorem pushItems_sys (q p : Nat) (l : List Nat) (s : State) : (pushItems q p l s).sys = s.sys := by
  simp [pushItems]

@[simp] theorem pushRecord_pending (q : Nat) (l : List Nat) (s : State) : (pushRecord q l s).pending = s.pending := by
  simp only [pushRecord]; split <;> simp
@[simp] theorem pushRecord_now (q : Nat) (l : List Nat) (s : State) : (pushRecord q l s).now = s.now := by
  simp only [pushRecord]; split <;> simp
@[simp] theorem pushRecord_free (q : Nat) (l : List Nat) (s : State) : (pushRecord q l s).free = s.free := by
  simp only [pushRecord]; split <;> simp
@[simp] theorem pushRecord_inf (q : Nat) (l : List Nat) (s : State) : (pushRecord q l s).inf = s.inf := by
  simp only [pushRecord]; split <;> simp
@[simp] theorem pushRecord_tod (q : Nat) (l : List Nat) (s : State) : (pushRecord q l s).tod = s.tod := by
  simp only [pushRecord]; split <;> simp
@[simp] theorem pushRecord_ports (q : Nat) (l : List Nat) (s : State) : (pushRecord q l s).ports = s.ports := by
  simp only [pushRecord]; split <;> simp
@[simp] theorem pushRecord_reed (q : Nat) (l : List Nat) (s : State) : (pushRecord q l s).reed = s.reed := by
  simp only [pushRecord]; split <;> simp
@[simp] theorem pushRecord_gauge (q : Nat) (l : List Nat) (s : State) : (pushRecord q l s).gauge = s.gauge := by
  simp only [pushRecord]; split <;> simp
@[simp] theorem pushRecord_heddle (q : Nat) (l : List Nat) (s : State) : (pushRecord q l s).heddle = s.heddle := by
  simp only [pushRecord]; split <;> simp
@[simp] theorem pushRecord_spc (q : Nat) (l : List Nat) (s : State) : (pushRecord q l s).spc = s.spc := by
  simp only [pushRecord]; split <;> simp
@[simp] theorem pushRecord_trd (q : Nat) (l : List Nat) (s : State) : (pushRecord q l s).trd = s.trd := by
  simp only [pushRecord]; split <;> simp
@[simp] theorem pushRecord_src (q : Nat) (l : List Nat) (s : State) : (pushRecord q l s).src = s.src := by
  simp only [pushRecord]; split <;> simp
@[simp] theorem pushRecord_cal (q : Nat) (l : List Nat) (s : State) : (pushRecord q l s).cal = s.cal := by
  simp only [pushRecord]; split <;> simp
@[simp] theorem pushRecord_warp (q : Nat) (l : List Nat) (s : State) : (pushRecord q l s).warp = s.warp := by
  simp only [pushRecord]; split <;> simp
@[simp] theorem pushRecord_rings (q : Nat) (l : List Nat) (s : State) : (pushRecord q l s).rings = s.rings := by
  simp only [pushRecord]; split <;> simp
@[simp] theorem pushRecord_sht (q : Nat) (l : List Nat) (s : State) : (pushRecord q l s).sht = s.sht := by
  simp only [pushRecord]; split <;> simp
@[simp] theorem pushRecord_dram (q : Nat) (l : List Nat) (s : State) : (pushRecord q l s).dram = s.dram := by
  simp only [pushRecord]; split <;> simp
@[simp] theorem pushRecord_tsu (q : Nat) (l : List Nat) (s : State) : (pushRecord q l s).tsu = s.tsu := by
  simp only [pushRecord]; split <;> simp
@[simp] theorem pushRecord_anc (q : Nat) (l : List Nat) (s : State) : (pushRecord q l s).anc = s.anc := by
  simp only [pushRecord]; split <;> simp
@[simp] theorem pushRecord_bob (q : Nat) (l : List Nat) (s : State) : (pushRecord q l s).bob = s.bob := by
  simp only [pushRecord]; split <;> simp
@[simp] theorem pushRecord_sys (q : Nat) (l : List Nat) (s : State) : (pushRecord q l s).sys = s.sys := by
  simp only [pushRecord]; split <;> simp

@[simp] theorem eventRecord_pending (k ev p n a b : Nat) (s : State) : (eventRecord k ev p n a b s).pending = s.pending := by
  simp [eventRecord]
@[simp] theorem eventRecord_now (k ev p n a b : Nat) (s : State) : (eventRecord k ev p n a b s).now = s.now := by
  simp [eventRecord]
@[simp] theorem eventRecord_free (k ev p n a b : Nat) (s : State) : (eventRecord k ev p n a b s).free = s.free := by
  simp [eventRecord]
@[simp] theorem eventRecord_inf (k ev p n a b : Nat) (s : State) : (eventRecord k ev p n a b s).inf = s.inf := by
  simp [eventRecord]
@[simp] theorem eventRecord_tod (k ev p n a b : Nat) (s : State) : (eventRecord k ev p n a b s).tod = s.tod := by
  simp [eventRecord]
@[simp] theorem eventRecord_ports (k ev p n a b : Nat) (s : State) : (eventRecord k ev p n a b s).ports = s.ports := by
  simp [eventRecord]
@[simp] theorem eventRecord_reed (k ev p n a b : Nat) (s : State) : (eventRecord k ev p n a b s).reed = s.reed := by
  simp [eventRecord]
@[simp] theorem eventRecord_gauge (k ev p n a b : Nat) (s : State) : (eventRecord k ev p n a b s).gauge = s.gauge := by
  simp [eventRecord]
@[simp] theorem eventRecord_heddle (k ev p n a b : Nat) (s : State) : (eventRecord k ev p n a b s).heddle = s.heddle := by
  simp [eventRecord]
@[simp] theorem eventRecord_spc (k ev p n a b : Nat) (s : State) : (eventRecord k ev p n a b s).spc = s.spc := by
  simp [eventRecord]
@[simp] theorem eventRecord_trd (k ev p n a b : Nat) (s : State) : (eventRecord k ev p n a b s).trd = s.trd := by
  simp [eventRecord]
@[simp] theorem eventRecord_src (k ev p n a b : Nat) (s : State) : (eventRecord k ev p n a b s).src = s.src := by
  simp [eventRecord]
@[simp] theorem eventRecord_cal (k ev p n a b : Nat) (s : State) : (eventRecord k ev p n a b s).cal = s.cal := by
  simp [eventRecord]
@[simp] theorem eventRecord_warp (k ev p n a b : Nat) (s : State) : (eventRecord k ev p n a b s).warp = s.warp := by
  simp [eventRecord]
@[simp] theorem eventRecord_rings (k ev p n a b : Nat) (s : State) : (eventRecord k ev p n a b s).rings = s.rings := by
  simp [eventRecord]
@[simp] theorem eventRecord_sht (k ev p n a b : Nat) (s : State) : (eventRecord k ev p n a b s).sht = s.sht := by
  simp [eventRecord]
@[simp] theorem eventRecord_dram (k ev p n a b : Nat) (s : State) : (eventRecord k ev p n a b s).dram = s.dram := by
  simp [eventRecord]
@[simp] theorem eventRecord_tsu (k ev p n a b : Nat) (s : State) : (eventRecord k ev p n a b s).tsu = s.tsu := by
  simp [eventRecord]
@[simp] theorem eventRecord_anc (k ev p n a b : Nat) (s : State) : (eventRecord k ev p n a b s).anc = s.anc := by
  simp [eventRecord]
@[simp] theorem eventRecord_bob (k ev p n a b : Nat) (s : State) : (eventRecord k ev p n a b s).bob = s.bob := by
  simp [eventRecord]
@[simp] theorem eventRecord_sys (k ev p n a b : Nat) (s : State) : (eventRecord k ev p n a b s).sys = s.sys := by
  simp [eventRecord]

@[simp] theorem violate_pending (blk cls : Nat) (org : Origin) (d a b : Nat) (s : State) : (violate blk cls org d a b s).pending = s.pending := by
  simp [violate]
@[simp] theorem violate_now (blk cls : Nat) (org : Origin) (d a b : Nat) (s : State) : (violate blk cls org d a b s).now = s.now := by
  simp [violate]
@[simp] theorem violate_free (blk cls : Nat) (org : Origin) (d a b : Nat) (s : State) : (violate blk cls org d a b s).free = s.free := by
  simp [violate]
@[simp] theorem violate_inf (blk cls : Nat) (org : Origin) (d a b : Nat) (s : State) : (violate blk cls org d a b s).inf = s.inf := by
  simp [violate]
@[simp] theorem violate_tod (blk cls : Nat) (org : Origin) (d a b : Nat) (s : State) : (violate blk cls org d a b s).tod = s.tod := by
  simp [violate]
@[simp] theorem violate_ports (blk cls : Nat) (org : Origin) (d a b : Nat) (s : State) : (violate blk cls org d a b s).ports = s.ports := by
  simp [violate]
@[simp] theorem violate_reed (blk cls : Nat) (org : Origin) (d a b : Nat) (s : State) : (violate blk cls org d a b s).reed = s.reed := by
  simp [violate]
@[simp] theorem violate_gauge (blk cls : Nat) (org : Origin) (d a b : Nat) (s : State) : (violate blk cls org d a b s).gauge = s.gauge := by
  simp [violate]
@[simp] theorem violate_heddle (blk cls : Nat) (org : Origin) (d a b : Nat) (s : State) : (violate blk cls org d a b s).heddle = s.heddle := by
  simp [violate]
@[simp] theorem violate_spc (blk cls : Nat) (org : Origin) (d a b : Nat) (s : State) : (violate blk cls org d a b s).spc = s.spc := by
  simp [violate]
@[simp] theorem violate_trd (blk cls : Nat) (org : Origin) (d a b : Nat) (s : State) : (violate blk cls org d a b s).trd = s.trd := by
  simp [violate]
@[simp] theorem violate_src (blk cls : Nat) (org : Origin) (d a b : Nat) (s : State) : (violate blk cls org d a b s).src = s.src := by
  simp [violate]
@[simp] theorem violate_cal (blk cls : Nat) (org : Origin) (d a b : Nat) (s : State) : (violate blk cls org d a b s).cal = s.cal := by
  simp [violate]
@[simp] theorem violate_warp (blk cls : Nat) (org : Origin) (d a b : Nat) (s : State) : (violate blk cls org d a b s).warp = s.warp := by
  simp [violate]
@[simp] theorem violate_rings (blk cls : Nat) (org : Origin) (d a b : Nat) (s : State) : (violate blk cls org d a b s).rings = s.rings := by
  simp [violate]
@[simp] theorem violate_sht (blk cls : Nat) (org : Origin) (d a b : Nat) (s : State) : (violate blk cls org d a b s).sht = s.sht := by
  simp [violate]
@[simp] theorem violate_dram (blk cls : Nat) (org : Origin) (d a b : Nat) (s : State) : (violate blk cls org d a b s).dram = s.dram := by
  simp [violate]
@[simp] theorem violate_tsu (blk cls : Nat) (org : Origin) (d a b : Nat) (s : State) : (violate blk cls org d a b s).tsu = s.tsu := by
  simp [violate]
@[simp] theorem violate_anc (blk cls : Nat) (org : Origin) (d a b : Nat) (s : State) : (violate blk cls org d a b s).anc = s.anc := by
  simp [violate]
@[simp] theorem violate_bob (blk cls : Nat) (org : Origin) (d a b : Nat) (s : State) : (violate blk cls org d a b s).bob = s.bob := by
  simp [violate]
@[simp] theorem violate_sys (blk cls : Nat) (org : Origin) (d a b : Nat) (s : State) : (violate blk cls org d a b s).sys = s.sys := by
  simp [violate]

@[simp] theorem writeIgnored_pending (org : Origin) (off : Nat) (v : Qword) (s : State) : (writeIgnored org off v s).pending = s.pending := by
  simp [writeIgnored]
@[simp] theorem writeIgnored_now (org : Origin) (off : Nat) (v : Qword) (s : State) : (writeIgnored org off v s).now = s.now := by
  simp [writeIgnored]
@[simp] theorem writeIgnored_free (org : Origin) (off : Nat) (v : Qword) (s : State) : (writeIgnored org off v s).free = s.free := by
  simp [writeIgnored]
@[simp] theorem writeIgnored_inf (org : Origin) (off : Nat) (v : Qword) (s : State) : (writeIgnored org off v s).inf = s.inf := by
  simp [writeIgnored]
@[simp] theorem writeIgnored_tod (org : Origin) (off : Nat) (v : Qword) (s : State) : (writeIgnored org off v s).tod = s.tod := by
  simp [writeIgnored]
@[simp] theorem writeIgnored_ports (org : Origin) (off : Nat) (v : Qword) (s : State) : (writeIgnored org off v s).ports = s.ports := by
  simp [writeIgnored]
@[simp] theorem writeIgnored_reed (org : Origin) (off : Nat) (v : Qword) (s : State) : (writeIgnored org off v s).reed = s.reed := by
  simp [writeIgnored]
@[simp] theorem writeIgnored_gauge (org : Origin) (off : Nat) (v : Qword) (s : State) : (writeIgnored org off v s).gauge = s.gauge := by
  simp [writeIgnored]
@[simp] theorem writeIgnored_heddle (org : Origin) (off : Nat) (v : Qword) (s : State) : (writeIgnored org off v s).heddle = s.heddle := by
  simp [writeIgnored]
@[simp] theorem writeIgnored_spc (org : Origin) (off : Nat) (v : Qword) (s : State) : (writeIgnored org off v s).spc = s.spc := by
  simp [writeIgnored]
@[simp] theorem writeIgnored_trd (org : Origin) (off : Nat) (v : Qword) (s : State) : (writeIgnored org off v s).trd = s.trd := by
  simp [writeIgnored]
@[simp] theorem writeIgnored_src (org : Origin) (off : Nat) (v : Qword) (s : State) : (writeIgnored org off v s).src = s.src := by
  simp [writeIgnored]
@[simp] theorem writeIgnored_cal (org : Origin) (off : Nat) (v : Qword) (s : State) : (writeIgnored org off v s).cal = s.cal := by
  simp [writeIgnored]
@[simp] theorem writeIgnored_warp (org : Origin) (off : Nat) (v : Qword) (s : State) : (writeIgnored org off v s).warp = s.warp := by
  simp [writeIgnored]
@[simp] theorem writeIgnored_rings (org : Origin) (off : Nat) (v : Qword) (s : State) : (writeIgnored org off v s).rings = s.rings := by
  simp [writeIgnored]
@[simp] theorem writeIgnored_sht (org : Origin) (off : Nat) (v : Qword) (s : State) : (writeIgnored org off v s).sht = s.sht := by
  simp [writeIgnored]
@[simp] theorem writeIgnored_dram (org : Origin) (off : Nat) (v : Qword) (s : State) : (writeIgnored org off v s).dram = s.dram := by
  simp [writeIgnored]
@[simp] theorem writeIgnored_tsu (org : Origin) (off : Nat) (v : Qword) (s : State) : (writeIgnored org off v s).tsu = s.tsu := by
  simp [writeIgnored]
@[simp] theorem writeIgnored_anc (org : Origin) (off : Nat) (v : Qword) (s : State) : (writeIgnored org off v s).anc = s.anc := by
  simp [writeIgnored]
@[simp] theorem writeIgnored_bob (org : Origin) (off : Nat) (v : Qword) (s : State) : (writeIgnored org off v s).bob = s.bob := by
  simp [writeIgnored]
@[simp] theorem writeIgnored_sys (org : Origin) (off : Nat) (v : Qword) (s : State) : (writeIgnored org off v s).sys = s.sys := by
  simp [writeIgnored]

@[simp] theorem requestRefused_pending (org : Origin) (off r : Nat) (v : Qword) (s : State) : (requestRefused org off r v s).pending = s.pending := by
  simp [requestRefused]
@[simp] theorem requestRefused_now (org : Origin) (off r : Nat) (v : Qword) (s : State) : (requestRefused org off r v s).now = s.now := by
  simp [requestRefused]
@[simp] theorem requestRefused_free (org : Origin) (off r : Nat) (v : Qword) (s : State) : (requestRefused org off r v s).free = s.free := by
  simp [requestRefused]
@[simp] theorem requestRefused_inf (org : Origin) (off r : Nat) (v : Qword) (s : State) : (requestRefused org off r v s).inf = s.inf := by
  simp [requestRefused]
@[simp] theorem requestRefused_tod (org : Origin) (off r : Nat) (v : Qword) (s : State) : (requestRefused org off r v s).tod = s.tod := by
  simp [requestRefused]
@[simp] theorem requestRefused_ports (org : Origin) (off r : Nat) (v : Qword) (s : State) : (requestRefused org off r v s).ports = s.ports := by
  simp [requestRefused]
@[simp] theorem requestRefused_reed (org : Origin) (off r : Nat) (v : Qword) (s : State) : (requestRefused org off r v s).reed = s.reed := by
  simp [requestRefused]
@[simp] theorem requestRefused_gauge (org : Origin) (off r : Nat) (v : Qword) (s : State) : (requestRefused org off r v s).gauge = s.gauge := by
  simp [requestRefused]
@[simp] theorem requestRefused_heddle (org : Origin) (off r : Nat) (v : Qword) (s : State) : (requestRefused org off r v s).heddle = s.heddle := by
  simp [requestRefused]
@[simp] theorem requestRefused_spc (org : Origin) (off r : Nat) (v : Qword) (s : State) : (requestRefused org off r v s).spc = s.spc := by
  simp [requestRefused]
@[simp] theorem requestRefused_trd (org : Origin) (off r : Nat) (v : Qword) (s : State) : (requestRefused org off r v s).trd = s.trd := by
  simp [requestRefused]
@[simp] theorem requestRefused_src (org : Origin) (off r : Nat) (v : Qword) (s : State) : (requestRefused org off r v s).src = s.src := by
  simp [requestRefused]
@[simp] theorem requestRefused_cal (org : Origin) (off r : Nat) (v : Qword) (s : State) : (requestRefused org off r v s).cal = s.cal := by
  simp [requestRefused]
@[simp] theorem requestRefused_warp (org : Origin) (off r : Nat) (v : Qword) (s : State) : (requestRefused org off r v s).warp = s.warp := by
  simp [requestRefused]
@[simp] theorem requestRefused_rings (org : Origin) (off r : Nat) (v : Qword) (s : State) : (requestRefused org off r v s).rings = s.rings := by
  simp [requestRefused]
@[simp] theorem requestRefused_sht (org : Origin) (off r : Nat) (v : Qword) (s : State) : (requestRefused org off r v s).sht = s.sht := by
  simp [requestRefused]
@[simp] theorem requestRefused_dram (org : Origin) (off r : Nat) (v : Qword) (s : State) : (requestRefused org off r v s).dram = s.dram := by
  simp [requestRefused]
@[simp] theorem requestRefused_tsu (org : Origin) (off r : Nat) (v : Qword) (s : State) : (requestRefused org off r v s).tsu = s.tsu := by
  simp [requestRefused]
@[simp] theorem requestRefused_anc (org : Origin) (off r : Nat) (v : Qword) (s : State) : (requestRefused org off r v s).anc = s.anc := by
  simp [requestRefused]
@[simp] theorem requestRefused_bob (org : Origin) (off r : Nat) (v : Qword) (s : State) : (requestRefused org off r v s).bob = s.bob := by
  simp [requestRefused]
@[simp] theorem requestRefused_sys (org : Origin) (off r : Nat) (v : Qword) (s : State) : (requestRefused org off r v s).sys = s.sys := by
  simp [requestRefused]

/-! ### Reads of other register fields -/

theorem rd_raise_other (f : Fld) (i e : Nat) (s : State) (h : f.key i ≠ EVT_RAW_RAW.key (e / 64)) :
    rd f i (raise e s) = rd f i s := by
  have : (raise e s).csr = (wr EVT_RAW_RAW (e / 64) (setBitTo (rd EVT_RAW_RAW (e / 64) s) (e % 64) true) s).csr := by
    simp only [raise]; split <;> simp
  rw [rd_congr f i this, rd_wr_other f _ i _ _ s h]

/-- The flag of a raised event is set. -/
theorem rd_raise_same (e : Nat) (s : State) :
    rd EVT_RAW_RAW (e / 64) (raise e s) = setBitTo (rd EVT_RAW_RAW (e / 64) s) (e % 64) true % 2 ^ EVT_RAW_RAW.width := by
  have : (raise e s).csr = (wr EVT_RAW_RAW (e / 64) (setBitTo (rd EVT_RAW_RAW (e / 64) s) (e % 64) true) s).csr := by
    simp only [raise]; split <;> simp
  rw [rd_congr _ _ this, rd_wr_same]

theorem rd_bumpBy_other (f g : Fld) (i j n : Nat) (s : State) (h : f.key i ≠ g.key j) : rd f i (bumpBy g j n s) = rd f i s := by
  simp only [bumpBy]
  split
  · rfl
  · exact rd_wr_other f g i j _ s h

theorem rd_bump_other (f g : Fld) (i j : Nat) (s : State) (h : f.key i ≠ g.key j) : rd f i (bump g j s) = rd f i s :=
  rd_bumpBy_other f g i j 1 s h

end Sys2Proof.Machine
end

