-- ==== Sys2Proof/Laws/Frame.lean ====
section
/-!
SUPPORT. Frames: how `State.framed` composes, and the frame of each shared operation.
-/

set_option autoImplicit false

namespace Sys2Proof.Machine

theorem framed_refl (s : State) : s.framed s [] [] := ⟨fun p _ => by cases p <;> rfl, fun _ _ _ => rfl⟩

theorem Part.same_trans {p : Part} {s t u : State} (h : p.same s t) (k : p.same t u) : p.same s u := by
  cases p <;> exact Eq.trans k h

/-- One operation after another changes what either changes. -/
theorem framed_trans {s t u : State} {ps qs rs : List Part} {ks ls ms : List Nat} (h : s.framed t ps ks) (k : t.framed u qs ls)
    (hp : ps ⊆ rs) (hq : qs ⊆ rs) (hk : ks ⊆ ms) (hl : ls ⊆ ms) : s.framed u rs ms :=
  ⟨fun p hn => Part.same_trans (h.1 p fun m => hn (hp m)) (k.1 p fun m => hn (hq m)),
    fun f i hn => (k.2 f i fun m => hn (hl m)).trans (h.2 f i fun m => hn (hk m))⟩

/-- A frame with more in it. -/
theorem framed_mono {s t : State} {ps qs : List Part} {ks ls : List Nat} (h : s.framed t ps ks) (hp : ps ⊆ qs) (hk : ks ⊆ ls) :
    s.framed t qs ls :=
  ⟨fun p hn => h.1 p fun m => hn (hp m), fun f i hn => h.2 f i fun m => hn (hk m)⟩

theorem framed_wr (f : Fld) (i v : Nat) (s : State) : s.framed (wr f i v s) [] [f.key i] :=
  ⟨fun p _ => by cases p <;> rfl, fun g j h => rd_wr_other g f j i v s (by simpa using h)⟩

theorem framed_wrB (f : Fld) (i : Nat) (b : Bool) (s : State) : s.framed (wrB f i b s) [] [f.key i] := framed_wr _ _ _ _

theorem framed_bumpBy (f : Fld) (i n : Nat) (s : State) : s.framed (bumpBy f i n s) [] [f.key i] := by
  simp only [bumpBy]
  split
  · exact framed_mono (framed_refl s) (by simp) (by simp)
  · exact framed_wr _ _ _ _

theorem framed_bump (f : Fld) (i : Nat) (s : State) : s.framed (bump f i s) [] [f.key i] := framed_bumpBy _ _ _ _

theorem framed_raise (e : Nat) (s : State) : s.framed (raise e s) evtParts [evtKey e] :=
  ⟨fun p hp => by cases p <;> simp [Part.same, evtParts] at hp ⊢,
    fun f i h => rd_raise_other f i e s (by simpa [evtKey] using h)⟩

theorem framed_emit (o : Output) (s : State) : s.framed (emit o s) [.out] [] :=
  ⟨fun p hp => by cases p <;> simp [Part.same] at hp ⊢, fun _ _ _ => rfl⟩

theorem framed_setQueue (q : Nat) (w : WQueue) (s : State) : s.framed (setQueue q w s) [.queues] [] :=
  ⟨fun p hp => by cases p <;> simp [Part.same] at hp ⊢, fun _ _ _ => rfl⟩

theorem framed_advanceTo (t : Nat) (s : State) : s.framed (advanceTo t s) [.now] [] :=
  ⟨fun p hp => by cases p <;> simp [Part.same] at hp ⊢, fun _ _ _ => rfl⟩

theorem framed_setEng (e : Nat) (x : Eng) (s : State) : s.framed (setEng e x s) [.sht] [] :=
  ⟨fun p hp => by cases p <;> simp [Part.same] at hp ⊢, fun _ _ _ => rfl⟩

theorem framed_onTrd (f : Treadle → Treadle) (s : State) : s.framed (onTrd f s) [.trd] [] :=
  ⟨fun p hp => by cases p <;> simp [Part.same] at hp ⊢, fun _ _ _ => rfl⟩

theorem framed_poolStore (k d : Nat) (s : State) : s.framed (poolStore k d s).2 [] [WRP_INJ_ADDR_ARM.key 0] := by
  refine ⟨fun p _ => by cases p <;> simp [Part.same], fun f i h => ?_⟩
  simp only [poolStore]
  split
  · exact rd_wr_other _ _ _ _ _ _ (by simpa using h)
  · rfl

theorem framed_pushOne (q pri d : Nat) (s : State) : s.framed (pushOne q pri d s) [.queues] [WRP_INJ_ADDR_ARM.key 0] :=
  framed_trans (framed_poolStore _ d s) (framed_setQueue _ _ _) (by simp) (by simp) (by simp) (by simp)

theorem framed_pushGo (q pri : Nat) (l : List Nat) (s : State) :
    s.framed (l.foldl (fun s d => pushOne q pri d s) s) [.queues] [WRP_INJ_ADDR_ARM.key 0] := by
  induction l generalizing s with
  | nil => exact framed_mono (framed_refl s) (by simp) (by simp)
  | cons d t ih => exact framed_trans (framed_pushOne q pri d s) (ih _) (by simp) (by simp) (by simp) (by simp)

theorem framed_levelCross (q a b : Nat) (s : State) :
    s.framed (levelCross q a b s) evtParts [WFQ_STAT_LVL.key q, evtKey (qEvent q)] := by
  simp only [levelCross]
  split
  · exact framed_trans (framed_wr _ _ _ _) (framed_raise _ _) (by simp) (by simp) (by simp) (by simp)
  · exact framed_mono (framed_refl s) (by simp) (by simp)

theorem framed_poolLowCheck (z : Int) (s : State) : s.framed (poolLowCheck z s) evtParts [evtKey 120] := by
  simp only [poolLowCheck]
  split
  · exact framed_raise _ _
  · exact framed_mono (framed_refl s) (by simp) (by simp)

theorem framed_pushItems (q pri : Nat) (l : List Nat) (s : State) : s.framed (pushItems q pri l s) recParts (pushKeys q) :=
  framed_trans (framed_pushGo q pri l s)
    (framed_trans (framed_levelCross q _ _ _) (framed_poolLowCheck _ _) (List.Subset.refl _) (List.Subset.refl _)
      (ms := [WFQ_STAT_LVL.key q, evtKey (qEvent q), evtKey 120]) (by simp) (by simp))
    (by simp [recParts]) (by simp [recParts, evtParts]) (by simp [pushKeys]) (by simp [pushKeys])

theorem framed_pushRecord (q : Nat) (l : List Nat) (s : State) : s.framed (pushRecord q l s) recParts (pushKeys q) := by
  simp only [pushRecord]
  split
  · exact framed_trans (framed_setQueue _ _ _) (framed_pushItems _ _ _ _) (by simp [recParts]) (List.Subset.refl _) (by simp)
      (List.Subset.refl _)
  · exact framed_trans (framed_bumpBy _ _ _ _) (framed_setQueue _ _ _) (by simp) (by simp [recParts]) (by simp [pushKeys]) (by simp)

theorem framed_eventRecord (k ev p n a b : Nat) (s : State) : s.framed (eventRecord k ev p n a b s) recParts recKeys :=
  framed_pushRecord _ _ _

theorem framed_violate (blk cls : Nat) (org : Origin) (d a b : Nat) (s : State) :
    s.framed (violate blk cls org d a b s) recParts logKeys :=
  framed_trans (framed_pushRecord _ _ _) (framed_raise _ _) (List.Subset.refl _) (by simp [evtParts, recParts]) (by simp [logKeys])
    (by simp [logKeys])

theorem framed_writeIgnored (org : Origin) (off : Nat) (v : Qword) (s : State) :
    s.framed (writeIgnored org off v s) recParts logKeys := framed_violate _ _ _ _ _ _ _

theorem framed_requestRefused (org : Origin) (off r : Nat) (v : Qword) (s : State) :
    s.framed (requestRefused org off r v s) recParts logKeys := framed_violate _ _ _ _ _ _ _

/-! ### The changes of one part of the state -/

theorem framed_onTsu (f : Tsu → Tsu) (s : State) : s.framed (onTsu f s) [.tsu] [] :=
  ⟨fun p hp => by cases p <;> simp [Part.same, onTsu] at hp ⊢, fun _ _ _ => rfl⟩

theorem framed_onTod (f : Tod → Tod) (s : State) : s.framed (onTod f s) [.tod] [] :=
  ⟨fun p hp => by cases p <;> simp [Part.same, onTod] at hp ⊢, fun _ _ _ => rfl⟩

theorem framed_onDram (f : Dram → Dram) (s : State) : s.framed (onDram f s) [.dram] [] :=
  ⟨fun p hp => by cases p <;> simp [Part.same, onDram] at hp ⊢, fun _ _ _ => rfl⟩

theorem framed_onAnc (f : Anchor → Anchor) (s : State) : s.framed (onAnc f s) [.anc] [] :=
  ⟨fun p hp => by cases p <;> simp [Part.same, onAnc] at hp ⊢, fun _ _ _ => rfl⟩

theorem framed_onHost (f : HostIf → HostIf) (s : State) : s.framed (onHost f s) [.host] [] :=
  ⟨fun p hp => by cases p <;> simp [Part.same, onHost] at hp ⊢, fun _ _ _ => rfl⟩

theorem framed_onSys (f : Service → Service) (s : State) : s.framed (onSys f s) [.sys] [] :=
  ⟨fun p hp => by cases p <;> simp [Part.same, onSys] at hp ⊢, fun _ _ _ => rfl⟩

theorem framed_onCal (f : Cal → Cal) (s : State) : s.framed (onCal f s) [.cal] [] :=
  ⟨fun p hp => by cases p <;> simp [Part.same, onCal] at hp ⊢, fun _ _ _ => rfl⟩

theorem framed_setBob (x : Nat) (c : BobCtx) (s : State) : s.framed (setBob x c s) [.bob] [] :=
  ⟨fun p hp => by cases p <;> simp [Part.same, setBob] at hp ⊢, fun _ _ _ => rfl⟩

theorem framed_setLineEnv (j : Nat) (e : LineEnv) (s : State) : s.framed (setLineEnv j e s) [.gauge] [] :=
  ⟨fun p hp => by cases p <;> simp [Part.same, setLineEnv] at hp ⊢, fun _ _ _ => rfl⟩

theorem framed_onHdl (q : Nat) (f : HdlPort → HdlPort) (s : State) : s.framed (onHdl q f s) [.heddle] [] :=
  ⟨fun p hp => by cases p <;> simp [Part.same, onHdl] at hp ⊢, fun _ _ _ => rfl⟩

theorem framed_setChan (c : Nat) (x : Chan) (s : State) : s.framed (setChan c x s) [.src] [] :=
  ⟨fun p hp => by cases p <;> simp [Part.same, setChan] at hp ⊢, fun _ _ _ => rfl⟩

theorem framed_setSlot (k : Nat) (x : RedSlot) (s : State) : s.framed (setSlot k x s) [.reed] [] :=
  ⟨fun p hp => by cases p <;> simp [Part.same, setSlot] at hp ⊢, fun _ _ _ => rfl⟩

theorem framed_onLog (l : Nat) (f : LogEng → LogEng) (s : State) : s.framed (onLog l f s) [.sht] [] :=
  ⟨fun p hp => by cases p <;> simp [Part.same, onLog] at hp ⊢, fun _ _ _ => rfl⟩

theorem framed_setSwap (g : Nat) (x : Option ConvSwap) (s : State) : s.framed (setSwap g x s) [.ports] [] :=
  ⟨fun p hp => by cases p <;> simp [Part.same, setSwap] at hp ⊢, fun _ _ _ => rfl⟩

theorem framed_setSpcLine (j : Nat) (x : SpcLine) (s : State) : s.framed (setSpcLine j x s) [.spc] [] :=
  ⟨fun p hp => by cases p <;> simp [Part.same, setSpcLine] at hp ⊢, fun _ _ _ => rfl⟩

theorem framed_setArea (q : Nat) (x : SpcArea) (s : State) : s.framed (setArea q x s) [.spc] [] :=
  ⟨fun p hp => by cases p <;> simp [Part.same, setArea] at hp ⊢, fun _ _ _ => rfl⟩

theorem framed_setCalRec (k j : Nat) (r : CalRec) (s : State) : s.framed (setCalRec k j r s) [.cal] [] :=
  ⟨fun p hp => by cases p <;> simp [Part.same, setCalRec] at hp ⊢, fun _ _ _ => rfl⟩

theorem framed_pairDrop (k j : Nat) (s : State) : s.framed (pairDrop k j s) [.cal] [] :=
  ⟨fun p hp => by cases p <;> simp [Part.same, pairDrop] at hp ⊢, fun _ _ _ => rfl⟩

theorem framed_onRing (q : Nat) (f : Ring → Ring) (s : State) : s.framed (onRing q f s) [.rings] [] :=
  ⟨fun p hp => by cases p <;> simp [Part.same, onRing] at hp ⊢, fun _ _ _ => rfl⟩

/-! ### Reading what was just written -/

@[simp] theorem lineEnv_setLineEnv_same (j : Nat) (e : LineEnv) (s : State) : lineEnv j (setLineEnv j e s) = e := by
  simp [lineEnv, setLineEnv]

theorem lineEnv_setLineEnv_other (j : Nat) (e : LineEnv) (i : Nat) (s : State) (h : i ≠ j) : lineEnv i (setLineEnv j e s) = lineEnv i s := by
  simp [lineEnv, setLineEnv, Smap.get_put_other _ _ _ _ h]

@[simp] theorem bobOf_setBob_same (x : Nat) (c : BobCtx) (s : State) : bobOf x (setBob x c s) = c := by
  simp [bobOf, setBob]

theorem bobOf_setBob_other (x : Nat) (c : BobCtx) (i : Nat) (s : State) (h : i ≠ x) : bobOf i (setBob x c s) = bobOf i s := by
  simp [bobOf, setBob, Smap.get_put_other _ _ _ _ h]

@[simp] theorem chanOf_setChan_same (c : Nat) (x : Chan) (s : State) : chanOf c (setChan c x s) = x := by
  simp [chanOf, setChan]

theorem chanOf_setChan_other (c : Nat) (x : Chan) (i : Nat) (s : State) (h : i ≠ c) : chanOf i (setChan c x s) = chanOf i s := by
  simp [chanOf, setChan, Smap.get_put_other _ _ _ _ h]

@[simp] theorem slotOf_setSlot_same (k : Nat) (x : RedSlot) (s : State) : slotOf k (setSlot k x s) = x := by
  simp [slotOf, setSlot]

theorem slotOf_setSlot_other (k : Nat) (x : RedSlot) (i : Nat) (s : State) (h : i ≠ k) : slotOf i (setSlot k x s) = slotOf i s := by
  simp [slotOf, setSlot, Smap.get_put_other _ _ _ _ h]

@[simp] theorem spcLine_setSpcLine_same (j : Nat) (x : SpcLine) (s : State) : spcLine j (setSpcLine j x s) = x := by
  simp [spcLine, setSpcLine]

theorem spcLine_setSpcLine_other (j : Nat) (x : SpcLine) (i : Nat) (s : State) (h : i ≠ j) : spcLine i (setSpcLine j x s) = spcLine i s := by
  simp [spcLine, setSpcLine, Smap.get_put_other _ _ _ _ h]

@[simp] theorem areaOf_setArea_same (q : Nat) (x : SpcArea) (s : State) : areaOf q (setArea q x s) = x := by
  simp [areaOf, setArea]

theorem areaOf_setArea_other (q : Nat) (x : SpcArea) (i : Nat) (s : State) (h : i ≠ q) : areaOf i (setArea q x s) = areaOf i s := by
  simp [areaOf, setArea, Smap.get_put_other _ _ _ _ h]

@[simp] theorem hdlOf_onHdl_same (q : Nat) (f : HdlPort → HdlPort) (s : State) : hdlOf q (onHdl q f s) = f (hdlOf q s) := by
  simp [hdlOf, onHdl]

@[simp] theorem logEngOf_onLog_same (l : Nat) (f : LogEng → LogEng) (s : State) : logEngOf l (onLog l f s) = f (logEngOf l s) := by
  simp [logEngOf, onLog]

/-- The writes of some fields of a register change those fields alone. -/
theorem framed_fields (l : List Fld) (i : Nat) (v : Qword) (s : State) :
    s.framed (l.foldl (fun s f => fldWrite f i v s) s) [] (l.map (fun f => f.key i)) := by
  induction l generalizing s with
  | nil => exact framed_refl s
  | cons f t ih =>
    have h : s.framed (fldWrite f i v s) [] [f.key i] := by
      unfold fldWrite
      split <;> first | exact framed_wr _ _ _ _ | exact framed_mono (framed_refl s) (by simp) (by simp)
    exact framed_trans h (ih _) (by simp) (by simp) (by simp) (by simp)

/-- A write of a register with locked fields changes its unlocked fields, and what its log entry changes (R577). -/
theorem framed_guardedWrite (org : Origin) (r : Reg) (i : Nat) (locked : List Fld) (v : Qword) (s : State) :
    s.framed (guardedWrite org r i locked v s) recParts
      ((r.fields.filter (fun f => !(locked.any (fun g => decide (g.lo = f.lo))))).map (fun f => f.key i) ++ logKeys) := by
  simp only [guardedWrite]
  split
  · exact framed_trans (framed_fields _ _ _ _) (framed_writeIgnored _ _ _ _) (by simp) (by simp) (by simp) (by simp)
  · exact framed_mono (framed_fields _ _ _ _) (by simp) (by simp)

/-- The flag of an event that was raised is set. -/
theorem evtSet_raise_same (e : Nat) (s : State) : evtSet e (raise e s) = true := by
  have h : e % 64 < 64 := Nat.mod_lt _ (by decide)
  rw [evtSet, rd_raise_same]
  have hw : EVT_RAW_RAW.width = 64 := rfl
  have hb : bitOf (setBitTo (rd EVT_RAW_RAW (e / 64) s) (e % 64) true) (e % 64) = true := by simp [bitOf_setBitTo]
  have key : ∀ n b : Nat, b < 64 → bitOf (n % 2 ^ 64) b = bitOf n b := by
    intro n b hb
    simp only [bitOf]
    have : n % 2 ^ 64 / 2 ^ b % 2 = n / 2 ^ b % 2 := by
      have e1 : 2 ^ 64 = 2 ^ b * (2 * 2 ^ (63 - b)) := by
        rw [← Nat.pow_succ', ← Nat.pow_add]; congr 1; omega
      rw [e1, Nat.mod_mul_right_div_self, Nat.mod_mul_right_mod]
    rw [this]
  rw [hw, key _ _ h, hb]

end Sys2Proof.Machine
end

