-- ==== Sys2Proof/WellFormed.lean ====
section
/-!
DEFINITION. Which terms of `Instr` are commands that the device's surroundings can send: operands that are tied to one another or
that the spec bounds by more than their width.
-/

set_option autoImplicit false

namespace Sys2Proof

open Sys2Proof.Machine

/-- Whether a draft instruction holds no field value that R208 or R210 calls rejected. -/
def draftOk (i : Instr) : Bool :=
  match i with
  | .kind k _ => decide (k.toNat ≠ 3)
  | .line inc l _ => !inc || decide (l.toNat = 0)
  | _ => true

/-- Whether a calibration measurement has the shape that its kind of object gives (R518, R519). -/
def CalMeas.ok : CalMeas → Bool
  | .converter _ sel vals => decide (sel.length = 9 ∧ vals.length = 6)
  | .line hits => decide (hits.length = 320)
  | .replica _ => true
  | .anchor vals => decide (vals.length = 16)

/-- Whether the data that comes with a command has the shape its row gives: the length of an access and of its data (R334, R335),
measurements (R518), one drift a rank (R392), and a frame of an addressed bus (R425). -/
def dataOk (i : Instr) : Bool :=
  match i with
  | .bar0NarrowAccess _ len _ => decide (1 ≤ len.toNat ∧ len.toNat ≤ 4096)
  | .bar2Access _ len w => decide (1 ≤ len.toNat ∧ len.toNat ≤ 4096) &&
      (match w with
        | none => true
        | some l => decide (l.length = (len.toNat + 7) / 8))
  | .holdExit _ drift => decide (drift.length = 8)
  | .calRunEnd _ _ m => m.ok
  | .bringupStepEnd _ (.calibration ms bufs) => ms.all (fun m => m.1.ok && m.2.ok) && decide (bufs.length = 4)
  | .busFrameDone miso => decide (miso.length ≤ 8)
  | _ => true

/-- A well-formed command. -/
def Instr.wf (i : Instr) : Bool := chOk i && draftOk i && dataOk i

end Sys2Proof
end

