-- ==== Sys2Proof/Tests/Slice0.lean ====
section
/-!
SUPPORT. Tests on fixed values, each expected value taken from the spec's own figures, and witnesses for the hypotheses of the
statements: in the namespace W<Statement> every `clause<k>` says that one concrete state with concrete operands meets all hypotheses
of one clause of that statement, and `witness_<Statement>` that each of them does.
-/

noncomputable section

set_option autoImplicit false
set_option maxRecDepth 100000
set_option linter.all false
set_option Elab.async false

namespace Sys2Proof.Tests

open Sys2Proof Sys2Proof.Machine

/-! ### WellFormed refuses ill-formed terms -/

theorem test_wf_special_register : Instr.wf (.mfs 0 3 24) = false ∧ Instr.wf (.mfs 0 3 2) = true := by decide
theorem test_wf_pick_kind : Instr.wf (.kind 3 0xFFFF) = false ∧ Instr.wf (.kind 2 0xFFFF) = true := by decide
theorem test_wf_line_increment : Instr.wf (.line true 5 1) = false ∧ Instr.wf (.line false 5 1) = true := by decide
theorem test_wf_bar0_length : Instr.wf (.bar0NarrowAccess 0 0 none) = false ∧ Instr.wf (.bar0NarrowAccess 0 4 none) = true := by decide
theorem test_wf_bar2_data : Instr.wf (.bar2Access 0 8 (some [])) = false ∧ Instr.wf (.bar2Access 0 8 (some [7])) = true := by decide
theorem test_wf_hold_exit : Instr.wf (.holdExit 0 []) = false ∧ Instr.wf (.holdExit 0 (List.replicate 8 0)) = true := by decide
theorem test_wf_cal_run : Instr.wf (.calRunEnd 0 0 (.line [])) = false ∧ Instr.wf (.calRunEnd 0 0 (.anchor (List.replicate 16 0))) = true := by
  decide
theorem test_wf_bringup : Instr.wf (.bringupStepEnd 0 (.calibration [] [])) = false := by decide
theorem test_wf_bus_frame : Instr.wf (.busFrameDone (List.replicate 9 0)) = false := by decide

/-! ### The table gives no bits -/

theorem test_no_table_word : decodeTableWord 48 0x0138A0000005 = none ∧ (State.reset.withFetchWord 48 1).pending = [] := by decide

/-! ### Worked values of the spec -/

/-- R299: the check field of data 5 is 0x0A. -/
theorem test_check_field : (encodeWord 5).toNat / 2 ^ 48 = 0x0A := by decide
/-- R300: one upset bit is corrected. -/
theorem test_word_corrected : decodeWord (encodeWord 5 ^^^ 4) = .corrected 5 := by decide
/-- R272: add w7, w2, 5 has opcode 0x01, WD in [39:35], WA in [34:30], the immediate mark in bit 29 and the value below. -/
theorem test_word_add : chDecode 3 0x0138A0000005 = some (.add 3 7 2 (.imm 5)) := by decide
theorem test_word_nop : chDecode 0 0 = some (.nop 0) ∧ chDecode 0 1 = none := by decide
/-- The CRC-32 of IEEE 802.3 over the digits 1 to 9. -/
theorem test_crc32 : crc32 [0x31, 0x32, 0x33, 0x34, 0x35, 0x36, 0x37, 0x38, 0x39] = 0xCBF43926 := by decide
/-- The example under R347: BEAT through the ring, two tries, slot 5, tag 0x21. -/
theorem test_completion : cplQ0 true { opcode := 0x14, tag := 0x21, stream := 0, mbx := false, slot := 5, status := 0, detail := 2, result := 0, inFlight := false } = 0x8021140000020005 := by
  decide
/-- The example under R450: an edge at tap 157 of STAMP_IN[1] with DELAY 200 and a position of 525. -/
theorem test_stamp : (inputEdge 18 2000000007 157 false (wr TSU_IN_EN 18 1 (wr TSU_IN_DELAY 18 200 (onTsu (fun t => { t with maps := [(512 * 18 + 157, 525)] }) State.reset)))).1 = some 512000001461 := by
  decide +kernel
/-- The queues' items without the words of the pool that hold them, which are free. -/
def itemsOf (s : State) : List (Nat × List (Nat × Stored × Nat)) :=
  s.queues.map (fun e => (e.1, e.2.items.map (fun x => (x.pri, x.word, x.seq))))
/-- R539 to R545: what a release leaves after a power-on reset is the state at reset. -/
theorem test_reset_release : (match execPowerOnReset State.reset with
    | .next s => match execResetRelease 0 false s with
      | .next t => decide (t.csr = State.reset.csr ∧ itemsOf t = itemsOf State.reset ∧ t.now = 0)
      | _ => false
    | _ => false) = true := by decide +kernel

/-! ### Witnesses -/

theorem witness_StepRunsFrontCommand : ({ State.reset with pending := [.faultClr, .nop 3] } : State).pending = .faultClr :: [.nop 3] := rfl
theorem witness_DecodeOfEncode : chWord (.add 3 7 2 (.imm 5)) = some 0x0138A0000005 ∧ chOk (.add 3 7 2 (.imm 5)) = true ∧
    chDecode 3 0x0138A0000005 = some (.add 3 7 2 (.imm 5)) := by decide
theorem witness_CanonKept : State.reset.canon = true ∧ (match step State.reset with | .next t => decide (t.now = 1) | _ => false) = true := by
  decide +kernel
/-- A function that rounds as `Accumulators` asks of `rnd` (R283). -/
theorem witness_Accumulators_round (sh : Nat) : ∃ rnd : Int → Int,
    (∀ z : Int, 0 ≤ z → 2 * z - 2 ^ sh < 2 ^ (sh + 1) * rnd z ∧ 2 ^ (sh + 1) * rnd z ≤ 2 * z + 2 ^ sh) ∧
    (∀ z : Int, z < 0 → rnd z = -(rnd (-z))) := by
  refine ⟨fun z => if z < 0 then -((2 * (-z) + 2 ^ sh) / 2 ^ (sh + 1)) else (2 * z + 2 ^ sh) / 2 ^ (sh + 1), ?_, ?_⟩
  · intro z hz
    have hp : (0 : Int) < 2 ^ sh := by positivity
    have h2 : (2 : Int) ^ (sh + 1) = 2 * 2 ^ sh := by ring
    have hn : ¬ z < 0 := by omega
    simp only [hn, if_false, h2]
    have h := Int.mul_ediv_add_emod (2 * z + 2 ^ sh) (2 * 2 ^ sh)
    have h3 := Int.emod_nonneg (2 * z + 2 ^ sh) (b := 2 * 2 ^ sh) (by omega)
    have h4 := Int.emod_lt_of_pos (2 * z + 2 ^ sh) (b := 2 * 2 ^ sh) (by omega)
    constructor <;> omega
  · intro z hz
    have hn : ¬ -z < 0 := by omega
    simp only [hz, hn, if_true, if_false]
/-- Functions that saturate as `Accumulators` asks. -/
theorem witness_Accumulators_saturate (n : Nat) : ∃ sat : Int → Int, ∀ r : Int, sat r = max (-2 ^ n) (min (2 ^ n - 1) r) :=
  ⟨fun r => max (-2 ^ n) (min (2 ^ n - 1) r), fun _ => rfl⟩

/-! Small states the clauses are shown on. -/

def r0 : State := State.reset

/-- an engine 3 that is about to issue a word -/
def mE (w : Nat) (x : Eng) : State :=
  let y : Eng := { x with istore := [(x.pc, encodeWord w)], img := some { id := 1, instr := 100, tickEn := false, tick := 0, handlers := [], carryBase := 0, carryLen := 0 }, handler := some .queue, stall := none }
  setEng 3 y (wr SHT_ENG_STAT_ENG_STATE 3 4 (wr SHT_ENG_STAT_SERVES 3 1 (wr SHT_ENG_STAT_LOG 3 3 r0)))
def sm (l : List Nat) : Smap Nat := ((l.zipIdx).map (fun x => (x.2, x.1))).filter (fun x => x.2 ≠ 0)
def eV (ws vs : List Nat) : Eng :=
  { w := sm ws, v := sm vs, pc := 5 }
def named (p : String) (l : List State) : List (String × State) := l.zipIdx.map (fun x => (p ++ "[" ++ toString x.2 ++ "]", x.1))
def interesting : List Nat := [0, 1, 2, 5, 47, 48, 63, 0x7FFFFFFFFFFF, 0x800000000000, 0xFFFFFFFFFFFF, 0xFFFFFFFFFFFE, 0x123456789ABC, 0xFEDCBA987654, 0x800000800000, 0x7FFFFF7FFFFF, 0x000001FFFFFF]

def lcg (n : Nat) : Nat := (n * 6364136223846793005 + 1442695040888963407) % 2 ^ 64
def rnds : Nat → Nat → List Nat
  | 0, _ => []
  | n + 1, x => (let y := lcg x; let z := lcg y; let a := (y / 2 ^ 20 * 2 ^ 40 + z / 2 ^ 20) % 2 ^ 48; let k := z / 2 ^ 10 % 7; (if k = 0 then interesting.getD (y / 2 ^ 30 % 16) 0 else if k = 1 then a % 2 ^ 24 else a) :: rnds n z)
def cb0 : CodeBank := { chipsM1 := 0, chipLen := 0, shift := 0, words := [(0, 0x123456)] }
def yy (p : Nat) : PortPick := { port := p, kind := 1, slot := 0, bank := cb0, gen := 0, line := 2, shed := 600, launchRaw := 500 * 512, windowEnd := 600, gz := [], gainBefore := 0, corr := List.replicate 4 (List.replicate 10 0), badX := none, badY := none, iq := [0,0,0,0,0,0,0,0], noise := 10, brk := [5, 3, 2], redCfg := [0,0,0], hdlCfg := [0,0,0,0,0,0,0,0], period := 25000, restart := true, forced := false, lineGen := 0 }
def pk (n : Nat) (l : List PortPick) : PickCtx := { n := n, tick := 500, ports := l, engines := [], hands := [] }
def wv (l : List PickCtx) (s : State) : State := wr SYS_STATE_STATE 0 4 { s with trd := { s.trd with weaving := true, picks := l } }
def qi (n : Nat) : List QItem := (List.range n).map (fun i => { pri := 9 - i, word := encodeWord (100 + i) })
def qf (q n : Nat) (s : State) : State := { s with queues := s.queues.put {} q { items := qi n } }
def rb (q : Nat) (s : State) : State := { s with rings := [{ queue := q, base := 0x10000, size := 9, index := 0x5000 }] }
def dma (s : State) : State := wr HST_STAT_LINK_WIDTH 0 4 { s with host := { s.host with busMaster := true } }
def st (n : Nat) (s : State) : State := wr SYS_STATE_STATE 0 n s
def cm (op : Nat) (ops : List Nat) : Cmd := { opcode := op, tag := 9, stream := 0, fence := false, mbx := false, ops := ops ++ List.replicate (7 - ops.length) 0, slot := 3, phase := .queued }
def cmds (l : List Cmd) (s : State) : State := { s with host := { s.host with cmds := l } }
def c1 (op : Nat) (ops : List Nat) (s : State) : State := cmds [cm op ops] s
def cmdS (s : State) : List (String × Cmd) := ((s.host.cmds ++ [cm 0 []]).take 1).map (fun c => ("(s.host.cmds.headD default)", c))
def dm (a b : Nat) : State := wr (chFld 0) 0 a (wr (chFld 1) 0 b (wr DRM_ORG_RANKS 0 2 (wr DRM_ORG_RANKS 1 2 (wr DRM_ORG_RANK_GIB 0 1 (wr DRM_ORG_RANK_GIB 1 1 (wr DRM_ORG_DENSITY 0 3 (wr DRM_ORG_DENSITY 1 3 (wr DRM_CAP_FRAMES 0 100 { r0 with dram := { r0.dram with poolRank := [(1, 4)], homeRk := [(0, 2), (1, 2)], gib := 1, hasSpare := true, spare := 5 } }))))))))
def reg0 (b l stt : Nat) (s : State) : State := wr DRM_REGION_BASE 0 b (wr DRM_REGION_LIMIT 0 l (wr DRM_REGION_CTL_EN 0 1 (wr DRM_REGION_CTL_STATE 0 stt s)))
def onD (f : Dram → Dram) (s : State) : State := { s with dram := f s.dram }

namespace WScalarArithmetic
def ss : List (String × State) := named "ss" (([0x01,0x02,0x0B,0x03,0x04,0x0E]).flatMap (fun op => (interesting.flatMap (fun p => interesting.map (fun q =>
  mE (if op = 0x0B then encA op 0 1 (.reg 2) else if op = 0x0E then encA op 1 1 (.reg 0) else encA op 1 1 (.reg 2)) { eV [9, p, q] [] with st := 0x55 })))
  ++ [0, 1, 0x1FFFFFFF, 0x10000000].map (fun (i : Nat) => mE (encA op (if op = 0x0B then 0 else 1) 1 (.imm (BitVec.ofNat 29 i))) (eV [0, 0x7FFFFFFFFFFF] []))))
noncomputable def clause1 : Bool := (let e : Fin 34 := 3; (let wd : BitVec 5 := 1; (let wa : BitVec 5 := 1; (let b : OpB := .reg 2; (match (ss : List (String × (State)))[0]? with | some (_, s) => decide (issues e (encA 0x01 wd wa b) s = true) | none => false)))))
noncomputable def clause2 : Bool := (let e : Fin 34 := 3; (let wd : BitVec 5 := 1; (let wa : BitVec 5 := 1; (let b : OpB := .reg 2; (match (ss : List (String × (State)))[260]? with | some (_, s) => decide (issues e (encA 0x02 wd wa b) s = true) | none => false)))))
noncomputable def clause3 : Bool := (let e : Fin 34 := 3; (let wa : BitVec 5 := 1; (let b : OpB := .reg 2; (match (ss : List (String × (State)))[520]? with | some (_, s) => decide (issues e (encA 0x0B 0 wa b) s = true) | none => false))))
noncomputable def clause4 : Bool := (let e : Fin 34 := 3; (let wd : BitVec 5 := 1; (let wa : BitVec 5 := 1; (let b : OpB := .reg 2; (match (ss : List (String × (State)))[780]? with | some (_, s) => decide (issues e (encA 0x03 wd wa b) s = true) | none => false)))))
noncomputable def clause5 : Bool := (let e : Fin 34 := 3; (let wd : BitVec 5 := 1; (let wa : BitVec 5 := 1; (let b : OpB := .reg 2; (match (ss : List (String × (State)))[1040]? with | some (_, s) => decide (issues e (encA 0x04 wd wa b) s = true) | none => false)))))
noncomputable def clause6 : Bool := (let e : Fin 34 := 3; (let wd : BitVec 5 := 1; (let wa : BitVec 5 := 1; (match (ss : List (String × (State)))[1300]? with | some (_, s) => decide (issues e (encA 0x0E wd wa (.reg 0)) s = true) | none => false))))
theorem witness_ScalarArithmetic : [clause1, clause2, clause3, clause4, clause5, clause6].all id = true := by decide +kernel
end WScalarArithmetic

namespace WScalarLogicAndDivision
def ss : List (String × State) := named "ss" (([0x05,0x06,0x07,0x08,0x09,0x0A,0x0C,0x0D,0x10,0x11,0x12,0x0F]).flatMap (fun op => (interesting.flatMap (fun p => interesting.map (fun q =>
  mE (if op = 0x0F then encA op 1 1 (.reg 0) else encA op 1 1 (.reg 2)) { eV [9, p, q] [] with st := 0x55 })))
  ++ [0, 1, 0x1FFFFFFF, 0x10000000].map (fun (i : Nat) => mE (encA op 1 1 (.imm (BitVec.ofNat 29 i))) (eV [0, 0x7FFFFFFFFFFF] []))) ++ [mE (chOp 0x00 0) (eV [] [])])
noncomputable def clause1 : Bool := (let e : Fin 34 := 3; (let wd : BitVec 5 := 1; (let wa : BitVec 5 := 1; (let b : OpB := .reg 2; (match (ss : List (String × (State)))[0]? with | some (_, s) => (let x : Eng := engOf e s; (let p : Nat := x.reg wa; (let q : Nat := x.opb b; (let P : Int := sx 48 p; (let Q : Int := sx 48 q; (match (([(Sys2Proof.Machine.execAnd e wd wa b, 0x05, Nat.land p q % 2 ^ 48), (Sys2Proof.Machine.execOr e wd wa b, 0x06, Nat.lor p q % 2 ^ 48), (Sys2Proof.Machine.execXor e wd wa b, 0x07, Nat.xor p q % 2 ^ 48), (Sys2Proof.Machine.execShl e wd wa b, 0x08, if 48 ≤ q % 64 then 0 else p * 2 ^ (q % 64) % 2 ^ 48), (Sys2Proof.Machine.execShr e wd wa b, 0x09, if 48 ≤ q % 64 then 0 else p / 2 ^ (q % 64) % 2 ^ 48), (Sys2Proof.Machine.execSar e wd wa b, 0x0A, ux 48 (if 48 ≤ q % 64 then (if P < 0 then -1 else 0) else P / 2 ^ (q % 64))), (Sys2Proof.Machine.execMin e wd wa b, 0x0C, ux 48 (min P Q)), (Sys2Proof.Machine.execMax e wd wa b, 0x0D, ux 48 (max P Q)), (Sys2Proof.Machine.execMul e wd wa b, 0x10, ux 48 (P * Q)), (Sys2Proof.Machine.execMulh e wd wa b, 0x11, ux 48 (P * Q / 2 ^ 48))] : List ((State → Host.Outcome State Fault Refusal) × Nat × Nat)))[0]? with | some t => decide (issues e (encA t.2.1 wd wa b) s = true) | none => false)))))) | none => false)))))
noncomputable def clause2 : Bool := (let e : Fin 34 := 3; (let wd : BitVec 5 := 1; (let wa : BitVec 5 := 1; (let b : OpB := .reg 2; (match (ss : List (String × (State)))[2600]? with | some (_, s) => decide (issues e (encA 0x12 wd wa b) s = true) | none => false)))))
noncomputable def clause3 : Bool := (let e : Fin 34 := 3; (let wd : BitVec 5 := 1; (let wa : BitVec 5 := 1; (match (ss : List (String × (State)))[2860]? with | some (_, s) => (let k : Nat := 47; (let x : Eng := engOf e s; (let P : Int := sx 48 (x.reg wa); decide (issues e (encA 0x0F wd wa (.reg 0)) s = true) && decide ((k ≤ 47 ∧ -2 ^ (47 - k) ≤ P ∧ P < 2 ^ (47 - k) ∧ (k < 47 → ¬ (-2 ^ (46 - k) ≤ P ∧ P < 2 ^ (46 - k)))))))) | none => false))))
noncomputable def clause4 : Bool := (let e : Fin 34 := 3; (match (ss : List (String × (State)))[3120]? with | some (_, s) => decide (issues e (chOp 0x00 0) s = true) | none => false))
theorem witness_ScalarLogicAndDivision : [clause1, clause2, clause3, clause4].all id = true := by decide +kernel
end WScalarLogicAndDivision

namespace WMovesAndSpecialRegisters
def xx : Eng := { eV [9, 0xFEDCBA987654, 3, 0x800000000000] (interesting ++ interesting) with st := 0x1055, p := sm [5,6,7,8,9,10,11,0xFFFF], m := sm [1,2,3,4,5,6,0x80FFFF00FFFF,8], lc := sm [11,12,13,0x10000] }
def ss : List (String × State) := named "ss" ((interesting.flatMap (fun i => [encK 0x13 1 (BitVec.ofNat 24 i), encK 0x14 1 (BitVec.ofNat 24 i)]) ++ [encE 0x17 1 2 3, encE 0x18 1 2 3, encE 0x19 1 2 0]).map (fun w => mE w xx))
def ss2 : List (String × State) := named "ss2" ((List.range 24).flatMap (fun k => [mE (encS 0x15 1 (BitVec.ofNat 6 k)) xx, wr SYS_PICK_NUM_NUM 0 77 (mE (encS 0x16 1 (BitVec.ofNat 6 k)) xx), wr SYS_PICK_NUM_NUM 0 77 (mE (encS 0x15 1 (BitVec.ofNat 6 k)) { xx with reps := [(1,2),(3,30)] })]))
noncomputable def clause1 : Bool := (let e : Fin 34 := 3; (let w : BitVec 5 := 1; (match (interesting.map (fun i => ("imm", BitVec.ofNat 24 i)) : List (String × (BitVec 24)))[0]? with | some (_, imm) => (match (ss : List (String × (State)))[0]? with | some (_, s) => decide (issues e (encK 0x13 w imm) s = true) | none => false) | none => false)))
noncomputable def clause2 : Bool := (let e : Fin 34 := 3; (let w : BitVec 5 := 1; (match (interesting.map (fun i => ("imm", BitVec.ofNat 24 i)) : List (String × (BitVec 24)))[0]? with | some (_, imm) => (match (ss : List (String × (State)))[1]? with | some (_, s) => decide (issues e (encK 0x14 w imm) s = true) | none => false) | none => false)))
noncomputable def clause3 : Bool := (let e : Fin 34 := 3; (let w : BitVec 5 := 1; (let v : BitVec 4 := 2; (let l : BitVec 2 := 3; (match (ss : List (String × (State)))[32]? with | some (_, s) => decide (issues e (encE 0x17 w v l) s = true) | none => false)))))
noncomputable def clause4 : Bool := (let e : Fin 34 := 3; (let w : BitVec 5 := 1; (let v : BitVec 4 := 2; (let l : BitVec 2 := 3; (match (ss : List (String × (State)))[33]? with | some (_, s) => decide (issues e (encE 0x18 w v l) s = true) | none => false)))))
noncomputable def clause5 : Bool := (let e : Fin 34 := 3; (let w : BitVec 5 := 1; (let v : BitVec 4 := 2; (match (ss : List (String × (State)))[34]? with | some (_, s) => decide (issues e (encE 0x19 w v 0) s = true) | none => false))))
noncomputable def clause6 : Bool := (let e : Fin 34 := 3; (let w : BitVec 5 := 1; (match ((List.range 24).map (fun i => (toString i, BitVec.ofNat 6 i)) : List (String × (BitVec 6)))[0]? with | some (_, n) => (match (ss2 : List (String × (State)))[0]? with | some (_, s) => decide (n.toNat < 24) && decide (issues e (encS 0x15 w n) s = true) | none => false) | none => false)))
noncomputable def clause7 : Bool := (let e : Fin 34 := 3; (let w : BitVec 5 := 1; (match ((List.range 24).map (fun i => (toString i, BitVec.ofNat 6 i)) : List (String × (BitVec 6)))[0]? with | some (_, n) => (match (ss2 : List (String × (State)))[1]? with | some (_, s) => decide (n.toNat < 21) && decide (issues e (encS 0x16 w n) s = true) | none => false) | none => false)))
theorem witness_MovesAndSpecialRegisters : [clause1, clause2, clause3, clause4, clause5, clause6, clause7].all id = true := by decide +kernel
end WMovesAndSpecialRegisters

namespace WLoomTransfers
def ops : List LoomOp := [true,false].flatMap (fun g => [0,1,2,3].map (fun (m : Nat) => { g := g, mode := BitVec.ofNat 2 m, p := 2, m := 3 }))
def ops1 : List (String × LoomOp) := ops.map (fun o => (toString (repr o), o))
def xx (ptr md : Nat) : Eng := { eV [9, 0xFEDCBA987654, 3, 0x800000000000] (interesting ++ interesting) with st := 0x1055, p := sm [5,6,ptr,8,9,10,11,0xFFFF], m := sm [1,2,3,md,5,6,0x80FFFF00FFFF,8], loom := [(8, encodeWord 0x123456789ABC), (9, encodeWord 5), (10, encodeWord 6), (11, encodeWord 7), (12, encodeWord 8), (0xFFFF, encodeWord 99)] }
def ss : List (String × State) := named "ss" ([(8,1),(8, 0xFFFF),(10,1),(0xFFFF,1),(0xFFFC,4),(8,0x40003),(100,1)].flatMap (fun (a : Nat × Nat) => ops.flatMap (fun o =>
  [encL 0x20 1 o, encLV 0x24 2 o, encL 0x21 1 o, encLV 0x25 2 o].map (fun w => mE w (xx a.1 a.2)))))
def x2 (ptr md : Nat) : Eng := { eV [9, 0xFEDCBA987654, 3, 0x800000000000] (interesting ++ interesting) with st := 0x1055, p := sm [5,6,ptr,8,9,10,11,0xFFFF], m := sm [1,2,3,md,5,6,0x80FFFF00FFFF,8], loom := [(8, encodeWord 0x123456789ABC), (9, encodeWord 5), (0xFFFF, encodeWord 99)] }
def mds : List Nat := [1, 0xFFFF, 0x5000000 + 3, 0x50000FFFE, 0x800010000003, 0x800000000003, 0x800003000001, 0x800008000001, 0x8000000000, 0x800001000001, 0x800002000001,0x60000FFFF]
def s2 : List (String × State) := named "s2" ([encLA 0x22 1 8, encLA 0x22 1 9, encLA 0x23 1 8, encLA 0x23 1 0xFFFF, encP 0x26 2 0 8, encP 0x26 2 0 0xFFFF, encP 0x27 2 3 0].flatMap (fun w => [0,4,5,7,8,0xFFFF].flatMap (fun p => mds.map (fun m => mE w (x2 p m)))))
noncomputable def clause1 : Bool := (let e : Fin 34 := 3; (let w : BitVec 5 := 1; (match (ops1 : List (String × (LoomOp)))[5]? with | some (_, o) => (match (ss : List (String × (State)))[20]? with | some (_, s) => (let x : Eng := engOf e s; (match loomAddr x o with | .ok (a, _) => decide ((∀ k ∈ loomSpan o a, x.owed k = false)) && decide (issues e (encL 0x20 w o) s = true) && decide (o.g = false) && (match decodeWord (x.loom.get bareWord a) with | .clean _ => true | _ => false) | _ => false)) | none => false) | none => false)))
noncomputable def clause2 : Bool := (let e : Fin 34 := 3; (let w : BitVec 5 := 1; (match (ops1 : List (String × (LoomOp)))[5]? with | some (_, o) => (match (ss : List (String × (State)))[148]? with | some (_, s) => (let x : Eng := engOf e s; (match loomAddr x o with | .ok (a, _) => decide ((∀ k ∈ loomSpan o a, x.owed k = false)) && decide (issues e (encL 0x20 w o) s = true) && decide (o.g = false) && decide (decodeWord (x.loom.get bareWord a) = .bare) | _ => false)) | none => false) | none => false)))
noncomputable def clause3 : Bool := (let e : Fin 34 := 3; (let v : BitVec 4 := 2; (match (ops1 : List (String × (LoomOp)))[1]? with | some (_, o) => (match (ss : List (String × (State)))[5]? with | some (_, s) => (let x : Eng := engOf e s; (match loomAddr x o with | .ok (a, _) => decide ((∀ k ∈ loomSpan o a, x.owed k = false)) && decide (issues e (encLV 0x24 v o) s = true) && decide (o.g = true) && (match ([("d", fun i => [0x123456789ABC,5,6,7].getD i 0)] : List (String × (Nat → Nat)))[0]? with | some (_, d) => decide ((∀ i : Nat, i < 4 → decodeWord (x.loom.get bareWord (a + i)) = WRead.clean (d i))) | none => false) | _ => false)) | none => false) | none => false)))
noncomputable def clause4 : Bool := (let e : Fin 34 := 3; (let v : BitVec 4 := 2; (match (ops1 : List (String × (LoomOp)))[5]? with | some (_, o) => (match (ss : List (String × (State)))[21]? with | some (_, s) => (let x : Eng := engOf e s; (match loomAddr x o with | .ok (a, _) => decide ((∀ k ∈ loomSpan o a, x.owed k = false)) && decide (issues e (encLV 0x24 v o) s = true) && decide (o.g = false) && (match decodeWord (x.loom.get bareWord a) with | .clean _ => true | _ => false) | _ => false)) | none => false) | none => false)))
noncomputable def clause5 : Bool := (let e : Fin 34 := 3; (let w : BitVec 5 := 1; (match (ops1 : List (String × (LoomOp)))[5]? with | some (_, o) => (match (ss : List (String × (State)))[22]? with | some (_, s) => (let x : Eng := engOf e s; (match loomAddr x o with | .ok (a, _) => decide ((∀ k ∈ loomSpan o a, x.owed k = false)) && decide (issues e (encL 0x21 w o) s = true) && decide (o.g = false) | _ => false)) | none => false) | none => false)))
noncomputable def clause6 : Bool := (let e : Fin 34 := 3; (let v : BitVec 4 := 2; (match (ops1 : List (String × (LoomOp)))[1]? with | some (_, o) => (match (ss : List (String × (State)))[7]? with | some (_, s) => (let x : Eng := engOf e s; (match loomAddr x o with | .ok (a, _) => decide ((∀ k ∈ loomSpan o a, x.owed k = false)) && decide (issues e (encLV 0x25 v o) s = true) | _ => false)) | none => false) | none => false)))
noncomputable def clause7 : Bool := (let e : Fin 34 := 3; (let w : BitVec 5 := 1; (let a : BitVec 16 := 8; (match (s2 : List (String × (State)))[0]? with | some (_, s) => (let x : Eng := engOf e s; decide (issues e (encLA 0x22 w a) s = true) && decide (x.owed a.toNat = false) && (match decodeWord (x.loom.get bareWord a.toNat) with | .clean _ => true | _ => false)) | none => false))))
noncomputable def clause8 : Bool := (let e : Fin 34 := 3; (let w : BitVec 5 := 1; (let a : BitVec 16 := 8; (match (s2 : List (String × (State)))[144]? with | some (_, s) => (let x : Eng := engOf e s; decide (issues e (encLA 0x23 w a) s = true) && decide (x.owed a.toNat = false)) | none => false))))
noncomputable def clause9 : Bool := (let e : Fin 34 := 3; (let a : BitVec 16 := 8; (let p : BitVec 3 := 2; (match (s2 : List (String × (State)))[288]? with | some (_, s) => decide (issues e (encP 0x26 p 0 a) s = true) | none => false))))
noncomputable def clause10 : Bool := (let e : Fin 34 := 3; (let p : BitVec 3 := 2; (let m : BitVec 3 := 3; (match (s2 : List (String × (State)))[432]? with | some (_, s) => (let x : Eng := engOf e s; decide (issues e (encP 0x27 p m 0) s = true) && (match nextPtr (x.p.get 0 p.toNat) (x.m.get 0 m.toNat) with | some _ => true | _ => false)) | none => false))))
noncomputable def clause11 : Bool := (let e : Fin 34 := 3; (let p : BitVec 3 := 2; (let m : BitVec 3 := 3; (match (s2 : List (String × (State)))[437]? with | some (_, s) => (let x : Eng := engOf e s; decide (issues e (encP 0x27 p m 0) s = true) && decide (nextPtr (x.p.get 0 p.toNat) (x.m.get 0 m.toNat) = none)) | none => false))))
noncomputable def clause12 : Bool := (match (([0,1,4,5,7,8,100,0xFFFF,33000] : List Nat).map (fun i => (toString i, i)) : List (String × (Nat)))[0]? with | some (_, a) => (match ((mds ++ rnds 300 5 ++ (rnds 300 7).map (fun x => x / 2^40 % 16 * 2^24 + x % 65536) ++ (rnds 300 8).map (fun x => 2^47 + 2^(x / 2^40 % 17) * 2^24 + x % 65536)).map (fun i => (toString i, i)) : List (String × (Nat)))[0]? with | some (_, m) => decide (a < 65536) && decide (m < 2 ^ 48) && decide (m / 2 ^ 47 = 0) && decide (m / 2 ^ 24 % 2 ^ 16 = 0) | none => false) | none => false)
noncomputable def clause13 : Bool := (match (([0,1,4,5,7,8,100,0xFFFF,33000] : List Nat).map (fun i => (toString i, i)) : List (String × (Nat)))[0]? with | some (_, a) => (match ((mds ++ rnds 300 5 ++ (rnds 300 7).map (fun x => x / 2^40 % 16 * 2^24 + x % 65536) ++ (rnds 300 8).map (fun x => 2^47 + 2^(x / 2^40 % 17) * 2^24 + x % 65536)).map (fun i => (toString i, i)) : List (String × (Nat)))[2]? with | some (_, m) => (match ((List.range 17).map (fun i => (toString i, i)) : List (String × (Nat)))[3]? with | some (_, k) => decide (a < 65536) && decide (m < 2 ^ 48) && decide (m / 2 ^ 47 = 0) && decide (2 ^ k < 2 * (m / 2 ^ 24 % 2 ^ 16)) && decide (m / 2 ^ 24 % 2 ^ 16 ≤ 2 ^ k) | none => false) | none => false) | none => false)
noncomputable def clause14 : Bool := (match (([0,1,4,5,7,8,100,0xFFFF,33000] : List Nat).map (fun i => (toString i, i)) : List (String × (Nat)))[0]? with | some (_, a) => (match ((mds ++ rnds 300 5 ++ (rnds 300 7).map (fun x => x / 2^40 % 16 * 2^24 + x % 65536) ++ (rnds 300 8).map (fun x => 2^47 + 2^(x / 2^40 % 17) * 2^24 + x % 65536)).map (fun i => (toString i, i)) : List (String × (Nat)))[5]? with | some (_, m) => decide (a < 65536) && decide (m < 2 ^ 48) && decide (m / 2 ^ 47 = 1) && decide ((∀ j : Nat, 1 ≤ j → j ≤ 15 → m / 2 ^ 24 % 2 ^ 16 ≠ 2 ^ j)) | none => false) | none => false)
noncomputable def clause15 : Bool := (match (([0,1,4,5,7,8,100,0xFFFF,33000] : List Nat).map (fun i => (toString i, i)) : List (String × (Nat)))[0]? with | some (_, a) => (match ((mds ++ rnds 300 5 ++ (rnds 300 7).map (fun x => x / 2^40 % 16 * 2^24 + x % 65536) ++ (rnds 300 8).map (fun x => 2^47 + 2^(x / 2^40 % 17) * 2^24 + x % 65536)).map (fun i => (toString i, i)) : List (String × (Nat)))[4]? with | some (_, m) => (match ((List.range 17).map (fun i => (toString i, i)) : List (String × (Nat)))[4]? with | some (_, k) => decide (a < 65536) && decide (m < 2 ^ 48) && decide (m / 2 ^ 47 = 1) && decide (1 ≤ k) && decide (k ≤ 15) && decide (m / 2 ^ 24 % 2 ^ 16 = 2 ^ k) | none => false) | none => false) | none => false)
theorem witness_LoomTransfers_1 : [clause1, clause2, clause3, clause4, clause5, clause6, clause7, clause8].all id = true := by decide +kernel
theorem witness_LoomTransfers_2 : [clause9, clause10, clause11, clause12, clause13, clause14, clause15].all id = true := by decide +kernel
end WLoomTransfers

namespace WVectorLanes
def ops : List LoomOp := [true,false].flatMap (fun g => [0,1,2,3].map (fun (m : Nat) => { g := g, mode := BitVec.ofNat 2 m, p := 2, m := 3 }))
def ops1 : List (String × LoomOp) := ops.map (fun o => (toString (repr o), o))
def xl (seed ptr : Nat) : Eng := { eV [9, 0xFEDCBA987654, 3, 0x800000000000] (interesting ++ rnds 48 seed) with st := 0x1055, p := sm [5,6,ptr,8,9,10,11,0xFFFF], m := sm [1,2,3,1,5,6,0x80FFFF00FFFF,8], loom := [(8, encodeWord 0x123456789ABC), (9, encodeWord 5), (10, encodeWord 6), (11, encodeWord 7), (12, encodeWord 8), (0xFFFF, encodeWord 99)] }
def xs : List (String × Eng) := [("x", xl 1 8)]
def srs : List (VSrc × VSrc) := [(.reg 1, .reg 2), (.reg 3, .reg 3), (.reg 0, .reg 15), (.loom { g := true, mode := 0, p := 2, m := 3 }, .reg 2), (.reg 1, .loom { g := true, mode := 1, p := 2, m := 3 }), (.loom { g := true, mode := 1, p := 2, m := 3 }, .loom { g := false, mode := 1, p := 2, m := 3 })]
def ss : List (String × State) := named "ss" ([0x30,0x31,0x36,0x37,0x38,0x3B,0x3C,0x32,0x33,0x34,0x35].flatMap (fun op => srs.flatMap (fun sr => [1,2,3,4,5].map (fun (sd : Nat) => mE (encV op 2 sr.1 sr.2 0) (xl sd (if sd = 5 then 9 else 8))))))
def l1s : List (String × List Nat) := []
noncomputable def clause2 : Bool := (match (xs : List (String × (Eng)))[0]? with | some (_, x) => (match (xs : List (String × (Eng)))[0]? with | some (_, z) => (match ([("l", [(xl 1 8).lanes 1])] : List (String × (List (List Nat))))[0]? with | some (_, l) => (match ([("s", [VSrc.reg 1]), ("t",[.loom { g := true, mode := 1, p := 2, m := 3 }])] : List (String × (List VSrc)))[0]? with | some (_, srcs) => (let n : Nat := 0; decide (readSrcs x x srcs = .ok (l, z, n))) | none => false) | none => false) | none => false) | none => false)
noncomputable def clause4 : Bool := (match (xs : List (String × (Eng)))[0]? with | some (_, x) => (match (xs : List (String × (Eng)))[0]? with | some (_, z) => (match ([("l", [(xl 1 8).lanes 1])] : List (String × (List (List Nat))))[0]? with | some (_, l) => (match ([("s", [VSrc.reg 1]), ("t",[.loom { g := true, mode := 1, p := 2, m := 3 }])] : List (String × (List VSrc)))[0]? with | some (_, srcs) => (let n : Nat := 0; decide (readSrcs x x srcs = .ok (l, z, n)) && (let b : Nat := 0; decide (b ≠ 5))) | none => false) | none => false) | none => false) | none => false)
noncomputable def clause5 : Bool := (match (xs : List (String × (Eng)))[0]? with | some (_, x) => (match (ops1 : List (String × (LoomOp)))[0]? with | some (_, o) => (let a : Nat := 8; (match ((List.range 20).map (fun i => (toString i, i)) : List (String × (Nat)))[8]? with | some (_, q) => (match ([("d", fun i => [0x123456789ABC,5,6,7].getD i 0)] : List (String × (Nat → Nat)))[0]? with | some (_, d) => decide (loomAddr x o = .ok (a, q)) && decide ((∀ k ∈ loomSpan o a, x.owed k = false)) && decide ((∀ k ∈ loomSpan o a, decodeWord (x.loom.get bareWord k) = .clean (d (k - a)))) | none => false) | none => false)) | none => false) | none => false)
noncomputable def clause6 : Bool := (let e : Fin 34 := 3; (let vd : BitVec 4 := 2; (match (srs.map (fun a => (toString (repr a.1), a.1)) : List (String × (VSrc)))[0]? with | some (_, s1) => (match (srs.map (fun a => (toString (repr a.2), a.2)) : List (String × (VSrc)))[0]? with | some (_, s2) => (match (ss : List (String × (State)))[0]? with | some (_, s) => (let x : Eng := engOf e s; (match readSrcs x x [s1, s2] with | .ok ([l1, l2], _, _) => decide (l1.length = 4) && decide (l2.length = 4) && (match (([(Sys2Proof.Machine.execVadd e vd s1 s2, 0x30, fun a b => (a + b) % 2 ^ 48), (Sys2Proof.Machine.execVsub e vd s1 s2, 0x31, fun a b => ux 48 ((a : Int) - b)), (Sys2Proof.Machine.execVand e vd s1 s2, 0x36, fun a b => Nat.land a b % 2 ^ 48), (Sys2Proof.Machine.execVor e vd s1 s2, 0x37, fun a b => Nat.lor a b % 2 ^ 48), (Sys2Proof.Machine.execVxor e vd s1 s2, 0x38, fun a b => Nat.xor a b % 2 ^ 48), (Sys2Proof.Machine.execVmin e vd s1 s2, 0x3B, fun a b => ux 48 (min (sx 48 a) (sx 48 b))), (Sys2Proof.Machine.execVmax e vd s1 s2, 0x3C, fun a b => ux 48 (max (sx 48 a) (sx 48 b)))] : List ((State → Host.Outcome State Fault Refusal) × Nat × (Nat → Nat → Nat))))[0]? with | some t => decide (issues e (encV t.2.1 vd s1 s2 0) s = true) | none => false) | _ => false)) | none => false) | none => false) | none => false)))
noncomputable def clause7 : Bool := (let e : Fin 34 := 3; (let vd : BitVec 4 := 2; (match (srs.map (fun a => (toString (repr a.1), a.1)) : List (String × (VSrc)))[0]? with | some (_, s1) => (match (srs.map (fun a => (toString (repr a.2), a.2)) : List (String × (VSrc)))[0]? with | some (_, s2) => (match (ss : List (String × (State)))[210]? with | some (_, s) => (let x : Eng := engOf e s; (match readSrcs x x [s1, s2] with | .ok ([l1, l2], _, _) => decide (l1.length = 4) && decide (l2.length = 4) && (match (([(Sys2Proof.Machine.execVadds e vd s1 s2, 0x32, fun a b => a + b), (Sys2Proof.Machine.execVsubs e vd s1 s2, 0x33, fun a b => a - b)] : List ((State → Host.Outcome State Fault Refusal) × Nat × (Int → Int → Int))))[0]? with | some t => decide (issues e (encV t.2.1 vd s1 s2 0) s = true) | none => false) | _ => false)) | none => false) | none => false) | none => false)))
noncomputable def clause8 : Bool := (let e : Fin 34 := 3; (let vd : BitVec 4 := 2; (match (srs.map (fun a => (toString (repr a.1), a.1)) : List (String × (VSrc)))[0]? with | some (_, s1) => (match (srs.map (fun a => (toString (repr a.2), a.2)) : List (String × (VSrc)))[0]? with | some (_, s2) => (match (ss : List (String × (State)))[270]? with | some (_, s) => (let x : Eng := engOf e s; (match readSrcs x x [s1, s2] with | .ok ([l1, l2], _, _) => decide (l1.length = 4) && decide (l2.length = 4) && (match (([(Sys2Proof.Machine.execVaddh e vd s1 s2, 0x34, fun a b => a + b), (Sys2Proof.Machine.execVsubh e vd s1 s2, 0x35, fun a b => a - b)] : List ((State → Host.Outcome State Fault Refusal) × Nat × (Int → Int → Int))))[0]? with | some t => decide (issues e (encV t.2.1 vd s1 s2 0) s = true) | none => false) | _ => false)) | none => false) | none => false) | none => false)))
theorem witness_VectorLanes : [clause2, clause4, clause5, clause6, clause7, clause8].all id = true := by decide +kernel
end WVectorLanes

namespace WVectorShiftsComparesSum
def xl (seed ptr : Nat) : Eng := { eV [9, 0xFEDCBA987654, 3, 0x800000000000] (interesting ++ rnds 48 seed) with st := 0x1A55, p := sm [5,6,ptr,8,9,10,11,0xFFFF], m := sm [1,2,3,1,5,6,0x80FFFF00FFFF,8], loom := [(8, encodeWord 0x123456789ABC), (9, encodeWord 5), (10, encodeWord 6), (11, encodeWord 7), (12, encodeWord 8), (0xFFFF, encodeWord 99)] }
def srs : List (VSrc × VSrc) := [(.reg 1, .reg 2), (.loom { g := true, mode := 0, p := 2, m := 3 }, .reg 2), (.loom { g := true, mode := 1, p := 2, m := 3 }, .loom { g := false, mode := 1, p := 2, m := 3 })]
def ss : List (String × State) := named "ss" (srs.flatMap (fun sr => [1,5].flatMap (fun (sd : Nat) =>
  ([1,24,48].flatMap (fun k => [0x39,0x42,0x3A].map (fun op => encV op 2 sr.1 (.reg 0) k)) ++ [encV 0x3D 2 sr.1 (.reg 0) 0, encV 0x3E 2 sr.1 (.reg 0) 0, encV 0x41 0 sr.1 (.reg 0) 7, encV 0x40 2 sr.1 sr.2 0] ++ (List.range 6).map (fun c => encV 0x3F 0 sr.1 sr.2 c)).map (fun w => mE w (xl sd (if sd = 5 then 9 else 8))))))
def ls : List (String × List Nat) := [("", [])]
noncomputable def clause1 : Bool := (let e : Fin 34 := 3; (let vd : BitVec 4 := 2; (let k : BitVec 6 := 1; (match (srs.map (fun a => (toString (repr a.1), a.1)) : List (String × (VSrc)))[0]? with | some (_, s1) => (match (ss : List (String × (State)))[0]? with | some (_, s) => (let x : Eng := engOf e s; (match readSrcs x x [s1] with | .ok ([_], _, _) => (match (([(Sys2Proof.Machine.execVshl e vd s1 k, 0x39, k.toNat, fun a => if 48 ≤ k.toNat then 0 else a * 2 ^ k.toNat % 2 ^ 48), (Sys2Proof.Machine.execVshr e vd s1 k, 0x42, k.toNat, fun a => if 48 ≤ k.toNat then 0 else a / 2 ^ k.toNat % 2 ^ 48), (Sys2Proof.Machine.execVsar e vd s1 k, 0x3A, k.toNat, fun a => ux 48 (if 48 ≤ k.toNat then (if sx 48 a < 0 then -1 else 0) else sx 48 a / 2 ^ k.toNat))] : List ((State → Host.Outcome State Fault Refusal) × Nat × Nat × (Nat → Nat))))[0]? with | some t => decide (issues e (encV t.2.1 vd s1 (.reg 0) t.2.2.1) s = true) | none => false) | _ => false)) | none => false) | none => false))))
noncomputable def clause2 : Bool := (let e : Fin 34 := 3; (let vd : BitVec 4 := 2; (match (srs.map (fun a => (toString (repr a.1), a.1)) : List (String × (VSrc)))[0]? with | some (_, s1) => (match (ss : List (String × (State)))[9]? with | some (_, s) => (let x : Eng := engOf e s; (match readSrcs x x [s1] with | .ok ([_], _, _) => decide (issues e (encV 0x3D vd s1 (.reg 0) 0) s = true) | _ => false)) | none => false) | none => false)))
noncomputable def clause3 : Bool := (let e : Fin 34 := 3; (let vd : BitVec 4 := 2; (match (srs.map (fun a => (toString (repr a.1), a.1)) : List (String × (VSrc)))[0]? with | some (_, s1) => (match (ss : List (String × (State)))[10]? with | some (_, s) => (let x : Eng := engOf e s; (match readSrcs x x [s1] with | .ok ([_], _, _) => decide (issues e (encV 0x3E vd s1 (.reg 0) 0) s = true) | _ => false)) | none => false) | none => false)))
noncomputable def clause4 : Bool := (let e : Fin 34 := 3; (let wd : BitVec 5 := 7; (match (srs.map (fun a => (toString (repr a.1), a.1)) : List (String × (VSrc)))[0]? with | some (_, s1) => (match (ss : List (String × (State)))[11]? with | some (_, s) => (let x : Eng := engOf e s; (match readSrcs x x [s1] with | .ok ([_], _, _) => decide (issues e (encV 0x41 0 s1 (.reg 0) wd.toNat) s = true) | _ => false)) | none => false) | none => false)))
noncomputable def clause5 : Bool := (let e : Fin 34 := 3; (match ((List.range 6).map (fun i => (toString i, BitVec.ofNat 3 i)) : List (String × (BitVec 3)))[0]? with | some (_, cc) => (match (srs.map (fun a => (toString (repr a.1), a.1)) : List (String × (VSrc)))[0]? with | some (_, s1) => (match (srs.map (fun a => (toString (repr a.2), a.2)) : List (String × (VSrc)))[0]? with | some (_, s2) => (match (ss : List (String × (State)))[13]? with | some (_, s) => (let x : Eng := engOf e s; (match readSrcs x x [s1, s2] with | .ok ([_, _], _, _) => decide (cc.toNat < 6) && decide (issues e (encV 0x3F 0 s1 s2 cc.toNat) s = true) | _ => false)) | none => false) | none => false) | none => false) | none => false))
noncomputable def clause6 : Bool := (let e : Fin 34 := 3; (let vd : BitVec 4 := 2; (match (srs.map (fun a => (toString (repr a.1), a.1)) : List (String × (VSrc)))[0]? with | some (_, s1) => (match (srs.map (fun a => (toString (repr a.2), a.2)) : List (String × (VSrc)))[0]? with | some (_, s2) => (match (ss : List (String × (State)))[12]? with | some (_, s) => (let x : Eng := engOf e s; (match readSrcs x x [s1, s2] with | .ok ([_, _], _, _) => decide (issues e (encV 0x40 vd s1 s2 0) s = true) | _ => false)) | none => false) | none => false) | none => false)))
theorem witness_VectorShiftsComparesSum : [clause1, clause2, clause3, clause4, clause5, clause6].all id = true := by decide +kernel
end WVectorShiftsComparesSum

namespace WAccumulators
def xl (seed ptr : Nat) : Eng := { eV [9, 0xFEDCBA987654, 3, 0x800000000000] (interesting ++ rnds 48 seed) with st := 0x1A55 - 0x10 * (seed % 2), p := sm [5,6,ptr,8,9,10,11,0xFFFF], m := sm [1,2,3,1,5,6,0x80FFFF00FFFF,8], loom := [(8, encodeWord 0x123456789ABC), (9, encodeWord 5), (10, encodeWord 6), (11, encodeWord 7), (12, encodeWord 8), (0xFFFF, encodeWord 99)], ac := sm (((rnds 16 (seed + 7)).zip (rnds 16 (seed + 8))).map (fun a => if seed = 9 then (a.1 % 2 ^ 20 * 2 ^ 56 + a.2 % 2 ^ 22) else if seed = 10 then ((2 ^ 55 - 1) * 2 ^ 56 + 2 ^ 55) else (a.1 * 2 ^ 64 + a.2) % 2 ^ 112)) }
def xr (seed : Nat) : Eng := { xl seed 8 with ac := sm ((List.range 16).map (fun i => (if seed = 1 then ux 112 ((sx 48 (rnds 16 3)[i]!) * 5) else if seed = 2 then ux 112 ((sx 48 ((rnds 16 4)[i]!))/ 100000000) else if seed = 3 then 2 ^ 103 - 1 else 2 ^ 112 - 2 ^ 103))) }
def srs : List (VSrc × VSrc) := [(.reg 1, .reg 2),(.loom { g := true, mode := 1, p := 2, m := 3 }, .loom { g := false, mode := 1, p := 2, m := 3 })]
def bb : List Bool := [true,false]
def ss : List (String × State) := named "ss" (srs.flatMap (fun sr => [xl 1 8, xl 2 9, xl 9 8, xl 10 8, xr 1, xr 2, xr 3, xr 4].flatMap (fun x =>
  (bb.flatMap (fun cj => bb.flatMap (fun ng => bb.flatMap (fun cl => [encM 0x48 2 sr.1 sr.2 cj ng cl,encM 0x49 2 sr.1 sr.2 false ng cl,encM 0x4A 2 sr.1 (.reg 0) false ng cl]))) ++ [encXL 0x4B 2 0 0] ++ [0,1,20,63].flatMap (fun sh => [encXL 0x50 2 3 sh,encXL 0x51 2 3 sh])).map (fun w => mE w x))))
def s2 : List (String × State) := named "s2" ([xl 1 8, xl 2 9, xl 9 8, xl 10 8, xr 1, xr 2, xr 3, xr 4].flatMap (fun x =>
  ([0,1,2,20,55,63].flatMap (fun sh => [encX 0x4C 5 2 sh,encX 0x4D 5 2 sh,encXR 0x4E 7 2 sh,encXR 0x4F 7 2 sh])).map (fun w => mE w x)))
noncomputable def clause1 : Bool := (let e : Fin 34 := 3; (let ac : BitVec 2 := 2; (match (srs.map (fun a => (toString (repr a.1), a.1)) : List (String × (VSrc)))[0]? with | some (_, s1) => (match (srs.map (fun a => (toString (repr a.2), a.2)) : List (String × (VSrc)))[0]? with | some (_, s2) => (let cj : Bool := true; (let ng : Bool := true; (let clr : Bool := true; (match (ss : List (String × (State)))[0]? with | some (_, s) => (let x : Eng := engOf e s; (match readSrcs x x [s1, s2] with | .ok ([_, _], _, _) => decide (issues e (encM 0x48 ac s1 s2 cj ng clr) s = true) | _ => false)) | none => false)))) | none => false) | none => false)))
noncomputable def clause2 : Bool := (let e : Fin 34 := 3; (let ac : BitVec 2 := 2; (match (srs.map (fun a => (toString (repr a.1), a.1)) : List (String × (VSrc)))[0]? with | some (_, s1) => (match (srs.map (fun a => (toString (repr a.2), a.2)) : List (String × (VSrc)))[0]? with | some (_, s2) => (let ng : Bool := true; (let clr : Bool := true; (match (ss : List (String × (State)))[1]? with | some (_, s) => (let x : Eng := engOf e s; (match readSrcs x x [s1, s2] with | .ok ([_, _], _, _) => decide (issues e (encM 0x49 ac s1 s2 false ng clr) s = true) | _ => false)) | none => false))) | none => false) | none => false)))
noncomputable def clause3 : Bool := (let e : Fin 34 := 3; (let ac : BitVec 2 := 2; (match (srs.map (fun a => (toString (repr a.1), a.1)) : List (String × (VSrc)))[0]? with | some (_, s1) => (let ng : Bool := true; (let clr : Bool := true; (match (ss : List (String × (State)))[2]? with | some (_, s) => (let x : Eng := engOf e s; (match readSrcs x x [s1] with | .ok ([_], _, _) => decide (issues e (encM 0x4A ac s1 (.reg 0) false ng clr) s = true) | _ => false)) | none => false))) | none => false)))
noncomputable def clause4 : Bool := (let e : Fin 34 := 3; (let ac : BitVec 2 := 2; (match (ss : List (String × (State)))[24]? with | some (_, s) => decide (issues e (encXL 0x4B ac 0 0) s = true) | none => false)))
noncomputable def clause5 : Bool := (let e : Fin 34 := 3; (let ac : BitVec 2 := 2; (let va : BitVec 4 := 3; (let sh : BitVec 6 := 0; (match (ss : List (String × (State)))[25]? with | some (_, s) => decide (issues e (encXL 0x50 ac va sh) s = true) | none => false)))))
noncomputable def clause6 : Bool := (let e : Fin 34 := 3; (let ac : BitVec 2 := 2; (let va : BitVec 4 := 3; (let sh : BitVec 6 := 0; (match (ss : List (String × (State)))[26]? with | some (_, s) => decide (issues e (encXL 0x51 ac va sh) s = true) | none => false)))))
noncomputable def clause7 : Bool := (let e : Fin 34 := 3; (let ac : BitVec 2 := 2; (let vd : BitVec 4 := 5; (let sh : BitVec 6 := 0; (match (s2 : List (String × (State)))[0]? with | some (_, s) => decide (issues e (encX 0x4C vd ac sh) s = true) | none => false)))))
noncomputable def clause8 : Bool := (let e : Fin 34 := 3; (let ac : BitVec 2 := 2; (let vd : BitVec 4 := 5; (let sh : BitVec 6 := 0; (match (s2 : List (String × (State)))[1]? with | some (_, s) => decide (issues e (encX 0x4D vd ac sh) s = true) | none => false)))))
noncomputable def clause9 : Bool := (let e : Fin 34 := 3; (let ac : BitVec 2 := 2; (let wd : BitVec 5 := 7; (let sh : BitVec 6 := 0; (match (s2 : List (String × (State)))[2]? with | some (_, s) => decide (issues e (encXR 0x4E wd ac sh) s = true) | none => false)))))
noncomputable def clause10 : Bool := (let e : Fin 34 := 3; (let ac : BitVec 2 := 2; (let wd : BitVec 5 := 7; (let sh : BitVec 6 := 0; (match (s2 : List (String × (State)))[3]? with | some (_, s) => decide (issues e (encXR 0x4F wd ac sh) s = true) | none => false)))))
theorem witness_Accumulators_1 : [clause1, clause2, clause3, clause4, clause5, clause6, clause7, clause8].all id = true := by decide +kernel
theorem witness_Accumulators_2 : [clause9, clause10].all id = true := by decide +kernel
end WAccumulators

namespace WEngineWarpAccesses
def o1 : LoomOp := { g := true, mode := 1, p := 2, m := 3 }
def xx (q : Nat) : Eng := { eV [9, q, 3, 0x800000000000] [] with st := 0x1055, p := sm [5,6,8,8,9,10,11,0xFFFF], m := sm [1,2,3,1,5,6,0x80FFFF00FFFF,8], loom := [(8, encodeWord 0x123456789ABC), (9, encodeWord 5), (10, encodeWord 6), (11, encodeWord 7), (12, encodeWord 8)] }
def win (s : State) : State := { s with sht := { s.sht with log := s.sht.log.put {} 3 { entries := [(8, 2^47 + 0x400000 + 0x7FFFFF * 2^23)] } } }
def acc1 : WarpAccess := { store := false, quad := 5, loom := 100, words := [], pc := 9 }
def ss : List (String × State) := named "ss" ([100, 0x100000, 6291455, 6291456, 0x7FFFFF, 0x400000, 0x600000,0x5F0000].flatMap (fun q => [encL 0x58 1 o1, encL 0x59 1 o1].map (fun w => win (mE w (xx q)))) ++ [encL 0x58 1 o1, encL 0x59 1 o1].flatMap (fun w => [win (mE w { xx 100 with acc := List.replicate 16 acc1 }), win (mE w { xx 0x600000 with acc := List.replicate 16 acc1 }), win (mE w { xx 0x400000 with acc := List.replicate 16 acc1 }), win (mE w { xx 0x400000 with loom := [] }), win (mE w { xx 0x600000 with loom := [] }), win (mE w { xx 0x600000 with loom := [(9, encodeWord 5)] }), win (mE w { xx 0x400000 with loom := [(9, encodeWord 5)] })]))
def acc2 : WarpAccess := { store := true, quad := 6, loom := 100, words := [encodeWord 1, encodeWord 2, encodeWord 3, encodeWord 4], pc := 9 }
def s2 : List (String × State) := named "s2" [mE (chOp 0x5A 0) (xx 1), mE (chOp 0x5A 0) { xx 1 with acc := [acc1] }, setEng 3 { xx 1 with stall := some .fence } r0, setEng 3 { xx 1 with stall := some .fence, acc := [acc1, acc2] } r0]
def wp (s : State) : State := { s with warp := { s.warp with words := [(20, encodeWord 11),(21, encodeWord 12),(22, encodeWord 13),(23, encodeWord 14)] } }
def s3 : List (String × State) := named "s3" [wp (setEng 3 { xx 1 with acc := [acc1] } r0), wp (setEng 3 { xx 1 with acc := [acc2, acc1] } r0), wr SHT_ENG_STAT_ENG_STATE 3 4 (setEng 3 { xx 1 with acc := [acc1], handler := some .queue } { r0 with warp := { r0.warp with words := [(20, encodeWord 11 ^^^ 3), (21, encodeWord 12)] } }), wp (setEng 3 { xx 1 with acc := [acc1], loom := [(100, encodeWord 9), (103, encodeWord 8)] } { r0 with warp := { r0.warp with words := [(20, encodeWord 11), (22, bareWord)] } }), wr WRP_INJ_ADDR_ARM 0 1 (wp (setEng 3 { xx 1 with acc := [acc2, acc1] } r0))]
noncomputable def clause1 : Bool := (let e : Fin 34 := 3; (let wa : BitVec 5 := 1; (let o : LoomOp := o1; (match (ss : List (String × (State)))[16]? with | some (_, s) => (let x : Eng := engOf e s; (match loomAddr x o with | .ok (a, _) => (let q : Nat := x.reg wa % 2 ^ 23; decide (o.g = true) && decide ((∀ i : Nat, i < 4 → x.owed (a + i) = false)) && decide (x.acc.length = 16) && decide (issues e (encL 0x58 wa o) s = true) && decide (q < 6291456)) | _ => false)) | none => false))))
noncomputable def clause2 : Bool := (let e : Fin 34 := 3; (let wa : BitVec 5 := 1; (let o : LoomOp := o1; (match (ss : List (String × (State)))[25]? with | some (_, s) => (let x : Eng := engOf e s; (match loomAddr x o with | .ok (a, _) => (let q : Nat := x.reg wa % 2 ^ 23; decide (o.g = true) && decide ((∀ i : Nat, i < 4 → x.owed (a + i) = false)) && decide (x.acc.length = 16) && decide (issues e (encL 0x59 wa o) s = true) && decide (stqForbidden e q s = false)) | _ => false)) | none => false))))
noncomputable def clause3 : Bool := (let e : Fin 34 := 3; (let wa : BitVec 5 := 1; (let o : LoomOp := o1; (match (ss : List (String × (State)))[0]? with | some (_, s) => (let x : Eng := engOf e s; (match loomAddr x o with | .ok (a, _) => (let q : Nat := x.reg wa % 2 ^ 23; decide (o.g = true) && decide ((∀ i : Nat, i < 4 → x.owed (a + i) = false)) && decide (x.acc.length < 16) && decide (issues e (encL 0x58 wa o) s = true) && decide (q < 6291456)) | _ => false)) | none => false))))
noncomputable def clause4 : Bool := (let e : Fin 34 := 3; (let wa : BitVec 5 := 1; (let o : LoomOp := o1; (match (ss : List (String × (State)))[5]? with | some (_, s) => (let x : Eng := engOf e s; (match loomAddr x o with | .ok (a, _) => (let q : Nat := x.reg wa % 2 ^ 23; decide (o.g = true) && decide ((∀ i : Nat, i < 4 → x.owed (a + i) = false)) && decide (x.acc.length < 16) && decide (issues e (encL 0x59 wa o) s = true) && decide (stqForbidden e q s = false) && (let d : Nat → Nat := fun i => [0x123456789ABC,5,6,7].getD i 0; decide ((∀ i : Nat, i < 4 → decodeWord (x.loom.get bareWord (a + i)) = .clean (d i))))) | _ => false)) | none => false))))
noncomputable def clause5 : Bool := (let e : Fin 34 := 3; (let wa : BitVec 5 := 1; (let o : LoomOp := o1; (match (ss : List (String × (State)))[26]? with | some (_, s) => (let x : Eng := engOf e s; (match loomAddr x o with | .ok (a, _) => (let q : Nat := x.reg wa % 2 ^ 23; decide (o.g = true) && decide ((∀ i : Nat, i < 4 → x.owed (a + i) = false)) && decide (x.acc.length < 16) && decide (issues e (encL 0x59 wa o) s = true) && decide (stqForbidden e q s = false) && decide ((∀ i : Nat, i < 4 → x.loom.get bareWord (a + i) = bareWord))) | _ => false)) | none => false))))
noncomputable def clause6 : Bool := (let e : Fin 34 := 3; (let wa : BitVec 5 := 1; (let o : LoomOp := o1; (match (ss : List (String × (State)))[6]? with | some (_, s) => (let x : Eng := engOf e s; (match loomAddr x o with | .ok (a, _) => (let q : Nat := x.reg wa % 2 ^ 23; decide (o.g = true) && decide ((∀ i : Nat, i < 4 → x.owed (a + i) = false)) && decide (issues e (encL 0x58 wa o) s = true) && decide (6291456 ≤ q)) | _ => false)) | none => false))))
noncomputable def clause7 : Bool := (let e : Fin 34 := 3; (let wa : BitVec 5 := 1; (let o : LoomOp := o1; (match (ss : List (String × (State)))[1]? with | some (_, s) => (let x : Eng := engOf e s; (match loomAddr x o with | .ok (a, _) => (let q : Nat := x.reg wa % 2 ^ 23; decide (o.g = true) && decide ((∀ i : Nat, i < 4 → x.owed (a + i) = false)) && decide (issues e (encL 0x59 wa o) s = true) && decide (stqForbidden e q s = true)) | _ => false)) | none => false))))
noncomputable def clause8 : Bool := (let e : Fin 34 := 3; (match (s2 : List (String × (State)))[0]? with | some (_, s) => (let x : Eng := engOf e s; decide (issues e (chOp 0x5A 0) s = true) && decide (x.acc = [])) | none => false))
noncomputable def clause9 : Bool := (let e : Fin 34 := 3; (match (s2 : List (String × (State)))[1]? with | some (_, s) => (let x : Eng := engOf e s; decide (issues e (chOp 0x5A 0) s = true) && decide (x.acc ≠ [])) | none => false))
noncomputable def clause10 : Bool := (let e : Fin 34 := 3; (match (s2 : List (String × (State)))[2]? with | some (_, s) => (let x : Eng := engOf e s; decide (x.stall = some .fence) && decide (x.acc = [])) | none => false))
noncomputable def clause11 : Bool := (let e : Fin 34 := 3; (match (s2 : List (String × (State)))[3]? with | some (_, s) => (let x : Eng := engOf e s; decide (x.stall = some .fence) && decide (x.acc ≠ [])) | none => false))
noncomputable def clause12 : Bool := (let e : Fin 34 := 3; (let k : Fin 16 := 0; (match (s3 : List (String × (State)))[0]? with | some (_, s) => (match accessAt e k s with | some a => decide (s.warp.fill = none) && decide (a.store = false) && (let d : Nat → Nat := fun i => [11,12,13,14].getD i 0; decide ((∀ i : Nat, i < 4 → decodeWord (warpStored (4 * a.quad + i) s) = .clean (d i)))) | _ => false) | none => false)))
noncomputable def clause13 : Bool := (let e : Fin 34 := 3; (let k : Fin 16 := 0; (match (s3 : List (String × (State)))[0]? with | some (_, s) => (match accessAt e k s with | some a => decide (s.warp.fill = none) && decide (a.store = false) && (let d : Nat → Nat := fun i => [11,12,13,14].getD i 0; decide ((∀ i : Nat, i < 4 → decodeWord (warpStored (4 * a.quad + i) s) = .clean (d i) ∨ decodeWord (warpStored (4 * a.quad + i) s) = .bare))) | _ => false) | none => false)))
noncomputable def clause14 : Bool := (let e : Fin 34 := 3; (let k : Fin 16 := 0; (match (s3 : List (String × (State)))[2]? with | some (_, s) => (match accessAt e k s with | some a => decide (s.warp.fill = none) && decide (a.store = false) && decide (engSt e s = 4) && decide ((∃ i : Nat, i < 4 ∧ decodeWord (warpStored (4 * a.quad + i) s) = .bad)) | _ => false) | none => false)))
noncomputable def clause15 : Bool := (let e : Fin 34 := 3; (let k : Fin 16 := 0; (match (s3 : List (String × (State)))[1]? with | some (_, s) => (match accessAt e k s with | some a => decide (s.warp.fill = none) && decide (a.store = true) && decide (a.words.length = 4) && decide (rdB WRP_INJ_ADDR_ARM 0 s = false) && decide (inPool (4 * a.quad) = false) | _ => false) | none => false)))
theorem witness_EngineWarpAccesses_1 : [clause1, clause2, clause3, clause4, clause5, clause6, clause7, clause8].all id = true := by decide +kernel
theorem witness_EngineWarpAccesses_2 : [clause9, clause10, clause11, clause12, clause13, clause14, clause15].all id = true := by decide +kernel
end WEngineWarpAccesses

namespace WEngineQueueInstructions
def qs : List QOp := [{ r := false, wq := 0, qi := 70, rp := false, pri := 0 }, { r := true, wq := 4, qi := 0, rp := false, pri := 0 }, { r := false, wq := 0, qi := 70, rp := false, pri := 3 }, { r := true, wq := 4, qi := 0, rp := true, pri := 0 }, { r := false, wq := 0, qi := 40, rp := false, pri := 3 },{ r := false, wq := 0, qi := 57, rp := false, pri := 3 }, { r := false, wq := 0, qi := 255, rp := false, pri := 15 }]
def xx : Eng := { eV [9, 0x7777, 3, 0x800000000000, 0x546] [] with st := 0x1015, stall := none }
def qfL (s : State) : State := { s with queues := [(70, { items := [{ pri := 5, word := encodeWord 1 }, { pri := 2, word := encodeWord 2 }] }), (40, { items := [{ pri := 5, word := encodeWord 77 }] })] }
def rbL (s : State) : State := { s with rings := [{ queue := 70, base := 0, size := 1024, index := 0 }] }
def bases (s : State) : List State := [s, rbL (qfL s), qfL s, wr WFQ_CFG_CAP 70 2 (qfL s), wr WFQ_CFG_CAP 70 2 s, wr WFQ_STAT_LVL 70 2 (qfL s)]
def ss : List (String × State) := named "ss" (qs.flatMap (fun o => [encQ 0x60 1 o, encQ 0x61 1 o, encQ 0x62 1 o].flatMap (fun w => bases (mE w xx))) ++ [Stall.push 70 3 0x55, .pop 1 70, .push 255 15 7].flatMap (fun st => bases (setEng 3 { xx with stall := some st } (mE 0 xx))))
noncomputable def clause1 : Bool := (let e : Fin 34 := 3; (let w : BitVec 5 := 1; (match (qs.map (fun o => (toString (repr o), o)) : List (String × (QOp)))[2]? with | some (_, o) => (match (ss : List (String × (State)))[36]? with | some (_, s) => (let n : Nat := 70; (let pri : Nat := 3; (let x : Eng := engOf e s; decide (rdB WRP_INJ_ADDR_ARM 0 s = false) && decide (n = (if o.r then x.reg o.wq % 256 else o.qi.toNat)) && decide (pri = (if o.rp then x.reg o.wq / 256 % 16 else o.pri.toNat)) && decide (issues e (encQ 0x60 w o) s = true) && decide (64 ≤ n) && decide (1 ≤ qRoom n s)))) | none => false) | none => false)))
noncomputable def clause2 : Bool := (let e : Fin 34 := 3; (let w : BitVec 5 := 1; (match (qs.map (fun o => (toString (repr o), o)) : List (String × (QOp)))[2]? with | some (_, o) => (match (ss : List (String × (State)))[39]? with | some (_, s) => (let n : Nat := 70; (let pri : Nat := 3; (let x : Eng := engOf e s; decide (rdB WRP_INJ_ADDR_ARM 0 s = false) && decide (n = (if o.r then x.reg o.wq % 256 else o.qi.toNat)) && decide (pri = (if o.rp then x.reg o.wq / 256 % 16 else o.pri.toNat)) && decide (issues e (encQ 0x60 w o) s = true) && decide (64 ≤ n) && decide (qRoom n s = 0)))) | none => false) | none => false)))
noncomputable def clause3 : Bool := (let e : Fin 34 := 3; (match (ss : List (String × (State)))[126]? with | some (_, s) => (let n : Nat := 70; (let pri : Nat := 3; (let d : Nat := 0x55; (let x : Eng := engOf e s; decide (rdB WRP_INJ_ADDR_ARM 0 s = false) && decide (x.stall = some (.push n pri d)) && decide (1 ≤ qRoom n s))))) | none => false))
noncomputable def clause4 : Bool := (let e : Fin 34 := 3; (match (ss : List (String × (State)))[129]? with | some (_, s) => (let n : Nat := 70; (let pri : Nat := 3; (let d : Nat := 0x55; (let x : Eng := engOf e s; decide (rdB WRP_INJ_ADDR_ARM 0 s = false) && decide (x.stall = some (.push n pri d)) && decide (qRoom n s = 0))))) | none => false))
noncomputable def clause5 : Bool := (let e : Fin 34 := 3; (let w : BitVec 5 := 1; (match (qs.map (fun o => (toString (repr o), o)) : List (String × (QOp)))[0]? with | some (_, o) => (match (ss : List (String × (State)))[12]? with | some (_, s) => (let n : Nat := 70; (let x : Eng := engOf e s; decide (rdB WRP_INJ_ADDR_ARM 0 s = false) && decide (n = (if o.r then x.reg o.wq % 256 else o.qi.toNat)) && decide (issues e (encQ 0x62 w o) s = true))) | none => false) | none => false)))
noncomputable def clause6 : Bool := (let e : Fin 34 := 3; (let w : BitVec 5 := 1; (match (qs.map (fun o => (toString (repr o), o)) : List (String × (QOp)))[0]? with | some (_, o) => (match (ss : List (String × (State)))[6]? with | some (_, s) => (let n : Nat := 70; (let x : Eng := engOf e s; decide (n = (if o.r then x.reg o.wq % 256 else o.qi.toNat)) && decide (issues e (encQ 0x61 w o) s = true) && decide (ringBound n s = false) && decide ((queueOf n s).items = [] ∨ queueTurn ((servedBy e s).getD 0) n s = false))) | none => false) | none => false)))
noncomputable def clause7 : Bool := (let e : Fin 34 := 3; (let w : BitVec 5 := 1; (match (ss : List (String × (State)))[132]? with | some (_, s) => (let n : Nat := 70; (let x : Eng := engOf e s; decide (x.stall = some (.pop w.toNat n)) && decide (ringBound n s = false) && decide ((queueOf n s).items = [] ∨ queueTurn ((servedBy e s).getD 0) n s = false))) | none => false)))
noncomputable def clause8 : Bool := (let e : Fin 34 := 3; (let w : BitVec 5 := 1; (match (qs.map (fun o => (toString (repr o), o)) : List (String × (QOp)))[0]? with | some (_, o) => (match (ss : List (String × (State)))[8]? with | some (_, s) => (let n : Nat := 70; (let x : Eng := engOf e s; (match (queueOf n s).items with | it :: _ => (match decodeWord it.word with | .clean _ => decide (it.linkBad = false) && decide (it.pri < 16) && decide (ringBound n s = false) && decide (queueTurn ((servedBy e s).getD 0) n s = true) && decide (n = (if o.r then x.reg o.wq % 256 else o.qi.toNat)) && decide (issues e (encQ 0x61 w o) s = true) | _ => false) | _ => false))) | none => false) | none => false)))
noncomputable def clause9 : Bool := (let e : Fin 34 := 3; (let w : BitVec 5 := 1; (match (ss : List (String × (State)))[134]? with | some (_, s) => (let n : Nat := 70; (let x : Eng := engOf e s; (match (queueOf n s).items with | it :: _ => (match decodeWord it.word with | .clean _ => decide (it.linkBad = false) && decide (it.pri < 16) && decide (ringBound n s = false) && decide (queueTurn ((servedBy e s).getD 0) n s = true) && decide (x.stall = some (.pop w.toNat n)) | _ => false) | _ => false))) | none => false)))
noncomputable def clause10 : Bool := (let e : Fin 34 := 3; (let w : BitVec 5 := 1; (match (ss : List (String × (State)))[133]? with | some (_, s) => (let n : Nat := 70; (let x : Eng := engOf e s; decide (x.stall = some (.pop w.toNat n)) && decide (ringBound n s = true))) | none => false)))
theorem witness_EngineQueueInstructions_1 : [clause1, clause2, clause3, clause4, clause5, clause6, clause7, clause8].all id = true := by decide +kernel
theorem witness_EngineQueueInstructions_2 : [clause9, clause10].all id = true := by decide +kernel
end WEngineQueueInstructions

namespace WRefusedQueueInstructions
def qs : List QOp := [{ r := false, wq := 0, qi := 70, rp := false, pri := 0 }, { r := true, wq := 4, qi := 0, rp := false, pri := 0 }, { r := false, wq := 0, qi := 70, rp := false, pri := 3 }, { r := true, wq := 4, qi := 0, rp := true, pri := 0 }, { r := false, wq := 0, qi := 40, rp := false, pri := 3 },{ r := false, wq := 0, qi := 57, rp := false, pri := 3 }, { r := false, wq := 0, qi := 255, rp := false, pri := 15 }]
def xx : Eng := { eV [9, 0x7777, 3, 0x800000000000, 0x546] [] with st := 0x1015, stall := none }
def qfL (s : State) : State := { s with queues := [(70, { items := [{ pri := 5, word := encodeWord 1 }, { pri := 2, word := encodeWord 2 }] }), (40, { items := [{ pri := 5, word := encodeWord 77 }] })] }
def rbL (s : State) : State := { s with rings := [{ queue := 70, base := 0, size := 1024, index := 0 }] }
def bases (s : State) : List State := [s, rbL (qfL s), qfL s, wr WFQ_CFG_CAP 70 2 (qfL s), wr WFQ_CFG_CAP 70 2 s, wr WFQ_STAT_LVL 70 2 (qfL s)]
def ss : List (String × State) := named "ss" (qs.flatMap (fun o => [encQ 0x60 1 o, encQ 0x61 1 o, encQ 0x62 1 o].flatMap (fun w => bases (mE w xx))) ++ [Stall.push 70 3 0x55, .pop 1 70, .push 255 15 7].flatMap (fun st => bases (setEng 3 { xx with stall := some st } (mE 0 xx))))
noncomputable def clause1 : Bool := (let e : Fin 34 := 3; (let w : BitVec 5 := 1; (match (qs.map (fun o => (toString (repr o), o)) : List (String × (QOp)))[4]? with | some (_, o) => (match (ss : List (String × (State)))[72]? with | some (_, s) => (let x : Eng := engOf e s; (let n : Nat := (if o.r then x.reg o.wq % 256 else o.qi.toNat); decide (issues e (encQ 0x60 w o) s = true) && decide (n ≤ 63))) | none => false) | none => false)))
noncomputable def clause2 : Bool := (let e : Fin 34 := 3; (let w : BitVec 5 := 1; (match (qs.map (fun o => (toString (repr o), o)) : List (String × (QOp)))[0]? with | some (_, o) => (match (ss : List (String × (State)))[7]? with | some (_, s) => (let x : Eng := engOf e s; (let n : Nat := (if o.r then x.reg o.wq % 256 else o.qi.toNat); decide (issues e (encQ 0x61 w o) s = true) && decide (ringBound n s = true))) | none => false) | none => false)))
theorem witness_RefusedQueueInstructions : [clause1, clause2].all id = true := by decide +kernel
end WRefusedQueueInstructions

namespace WBranchesAndRepeats
def xx (st : Nat) (reps : List (Nat × Nat)) (r1 : Nat) : Eng := { eV [9, r1, 3, 0x800000000000, 0x546] [] with st := st, reps := reps, lc := sm [1, 2, 1, 7] }
def rps : List (List (Nat × Nat)) := [[], [(3, 9)], [(3, 5)], [(3,5),(2,5)], [(4, 5),(3,5),(2,9)], [(5,6),(4,7),(3,8),(2,9)]]
def ss : List (String × State) := named "ss" ((List.range 14).flatMap (fun c => ([0,0xFFF,1,2,3,8,9,10,11,4,16,32,64,256].map (fun st => mE (encB 0x70 (c * 2 ^ 22) 20) (xx st [] 20))) ++ [mE (encB 0x70 (c * 2 ^ 22) 20) (xx 0 [(3,9)] 20), mE (encB 0x70 (c * 2 ^ 22) 8) (xx 0 [(3,9)] 20)]) ++ rps.flatMap (fun r => [20,8,3].flatMap (fun t => [mE (encB 0x71 0 (BitVec.ofNat 14 t)) (xx 0 r 20), mE (chOp 0x72 (1 * 2 ^ 30)) (xx 0 r t),mE (chOp 0x72 (1 * 2 ^ 30)) (xx 0 r (2 ^ 14 + t))])))
def cs : List RepCount := [.imm 0, .imm 1, .imm 65536, .imm 65537, .reg 1]
def s2 : List (String × State) := named "s2" (rps.flatMap (fun r => [encB 0x73 (repBits (.imm 0)) 7, encB 0x73 (repBits (.imm 1)) 7, encB 0x73 (repBits (.imm 65536)) 7, encB 0x73 (repBits (.imm 1)) 5, encB 0x73 (repBits (.imm 1)) 9, encB 0x73 (repBits (.imm 65537)) 7,encB 0x73 (repBits (.reg 1)) 7, chOp 0x74 0].flatMap (fun w => [mE w (xx 0 r 3), mE w (xx 0 r 0), mE w (xx 0 r 65537)])))
def s3 : List (String × Eng) := (rps.zipIdx).map (fun r => ("s3" ++ toString r.2, { xx 0 r.1 0 with pc := 5 }))
noncomputable def clause1 : Bool := (let e : Fin 34 := 3; (match ((List.range 14).map (fun i => (toString i, BitVec.ofNat 4 i)) : List (String × (BitVec 4)))[0]? with | some (_, c) => (let target : BitVec 14 := 20; (match (ss : List (String × (State)))[0]? with | some (_, s) => (let inside : Nat → Bool := fun a => match (engOf e s).reps with | (f, l) :: _ => decide (f ≤ (engOf e s).pc → (engOf e s).pc ≤ l → f ≤ a ∧ a ≤ l) | [] => true; (let x : Eng := engOf e s; (let z : Bool := x.bit 0; (let ng : Bool := x.bit 1; (let cy : Bool := x.bit 2; (let v : Bool := x.bit 3; (let sv : Bool := x.bit 4; (let br : Bool := x.bit 5; (let qv : Bool := x.bit 6; (let none_ : Bool := decide (x.st / 2 ^ 8 % 16 = 0); decide (c.toNat < 14) && decide (issues e (encB 0x70 (c.toNat * 2 ^ 22) target) s = true) && (let holds : Bool := ([true, z, !z, ng != v, ng == v, !z && (ng == v), z || (ng != v), cy, !cy, sv, br, qv, none_, !none_].getD c.toNat false); decide (holds = true) && decide (inside target.toNat = true)))))))))))) | none => false)) | none => false))
noncomputable def clause2 : Bool := (let e : Fin 34 := 3; (match ((List.range 14).map (fun i => (toString i, BitVec.ofNat 4 i)) : List (String × (BitVec 4)))[0]? with | some (_, c) => (let target : BitVec 14 := 20; (match (ss : List (String × (State)))[14]? with | some (_, s) => (let inside : Nat → Bool := fun a => match (engOf e s).reps with | (f, l) :: _ => decide (f ≤ (engOf e s).pc → (engOf e s).pc ≤ l → f ≤ a ∧ a ≤ l) | [] => true; (let x : Eng := engOf e s; (let z : Bool := x.bit 0; (let ng : Bool := x.bit 1; (let cy : Bool := x.bit 2; (let v : Bool := x.bit 3; (let sv : Bool := x.bit 4; (let br : Bool := x.bit 5; (let qv : Bool := x.bit 6; (let none_ : Bool := decide (x.st / 2 ^ 8 % 16 = 0); decide (c.toNat < 14) && decide (issues e (encB 0x70 (c.toNat * 2 ^ 22) target) s = true) && (let holds : Bool := ([true, z, !z, ng != v, ng == v, !z && (ng == v), z || (ng != v), cy, !cy, sv, br, qv, none_, !none_].getD c.toNat false); decide (holds = true) && decide (inside target.toNat = false)))))))))))) | none => false)) | none => false))
noncomputable def clause3 : Bool := (let e : Fin 34 := 3; (match ((List.range 14).map (fun i => (toString i, BitVec.ofNat 4 i)) : List (String × (BitVec 4)))[1]? with | some (_, c) => (let target : BitVec 14 := 20; (match (ss : List (String × (State)))[16]? with | some (_, s) => (let x : Eng := engOf e s; (let z : Bool := x.bit 0; (let ng : Bool := x.bit 1; (let cy : Bool := x.bit 2; (let v : Bool := x.bit 3; (let sv : Bool := x.bit 4; (let br : Bool := x.bit 5; (let qv : Bool := x.bit 6; (let none_ : Bool := decide (x.st / 2 ^ 8 % 16 = 0); decide (c.toNat < 14) && decide (issues e (encB 0x70 (c.toNat * 2 ^ 22) target) s = true) && (let holds : Bool := ([true, z, !z, ng != v, ng == v, !z && (ng == v), z || (ng != v), cy, !cy, sv, br, qv, none_, !none_].getD c.toNat false); decide (holds = false))))))))))) | none => false)) | none => false))
noncomputable def clause4 : Bool := (let e : Fin 34 := 3; (let target : BitVec 14 := 20; (match (ss : List (String × (State)))[224]? with | some (_, s) => (let inside : Nat → Bool := fun a => match (engOf e s).reps with | (f, l) :: _ => decide (f ≤ (engOf e s).pc → (engOf e s).pc ≤ l → f ≤ a ∧ a ≤ l) | [] => true; decide (issues e (encB 0x71 0 target) s = true) && decide (inside target.toNat = true)) | none => false)))
noncomputable def clause5 : Bool := (let e : Fin 34 := 3; (let w : BitVec 5 := 1; (match (ss : List (String × (State)))[225]? with | some (_, s) => (let inside : Nat → Bool := fun a => match (engOf e s).reps with | (f, l) :: _ => decide (f ≤ (engOf e s).pc → (engOf e s).pc ≤ l → f ≤ a ∧ a ≤ l) | [] => true; (let x : Eng := engOf e s; decide (issues e (chOp 0x72 (w.toNat * 2 ^ 30)) s = true) && decide (inside (x.reg w % 2 ^ 14) = true))) | none => false)))
noncomputable def clause6 : Bool := (let e : Fin 34 := 3; (match (cs.map (fun o => (toString (repr o), o)) : List (String × (RepCount)))[0]? with | some (_, count) => (let last : BitVec 14 := 7; (match (s2 : List (String × (State)))[0]? with | some (_, s) => (let x : Eng := engOf e s; (let n : Nat := (match count with | .imm k => k.toNat | .reg w => x.reg w); decide (issues e (encB 0x73 (repBits count) last) s = true) && decide (x.reps.length < 4) && decide (n ≤ 65536) && decide (x.pc < last.toNat) && decide (((x.reps.head?.map (fun p => decide (last.toNat ≤ p.2))).getD true = true)) && decide (n = 0))) | none => false)) | none => false))
noncomputable def clause7 : Bool := (let e : Fin 34 := 3; (match (cs.map (fun o => (toString (repr o), o)) : List (String × (RepCount)))[1]? with | some (_, count) => (let last : BitVec 14 := 7; (match (s2 : List (String × (State)))[3]? with | some (_, s) => (let x : Eng := engOf e s; (let n : Nat := (match count with | .imm k => k.toNat | .reg w => x.reg w); decide (issues e (encB 0x73 (repBits count) last) s = true) && decide (x.reps.length < 4) && decide (n ≤ 65536) && decide (x.pc < last.toNat) && decide (((x.reps.head?.map (fun p => decide (last.toNat ≤ p.2))).getD true = true)) && decide (n ≠ 0))) | none => false)) | none => false))
noncomputable def clause8 : Bool := (let e : Fin 34 := 3; (match (cs.map (fun o => (toString (repr o), o)) : List (String × (RepCount)))[0]? with | some (_, count) => (let last : BitVec 14 := 7; (match (s2 : List (String × (State)))[48]? with | some (_, s) => (let x : Eng := engOf e s; (let n : Nat := (match count with | .imm k => k.toNat | .reg w => x.reg w); decide (issues e (encB 0x73 (repBits count) last) s = true) && decide (x.reps.length = 4 ∨ 65536 < n ∨ last.toNat ≤ x.pc ∨ ((x.reps.head?.map (fun p => decide (p.2 < last.toNat))).getD false = true)))) | none => false)) | none => false))
noncomputable def clause9 : Bool := (let e : Fin 34 := 3; (match (s2 : List (String × (State)))[45]? with | some (_, s) => (let x : Eng := engOf e s; decide (issues e (chOp 0x74 0) s = true) && (match x.reps with | (_, _) :: _ => true | _ => false)) | none => false))
noncomputable def clause10 : Bool := (let e : Fin 34 := 3; (match (s2 : List (String × (State)))[21]? with | some (_, s) => (let x : Eng := engOf e s; decide (issues e (chOp 0x74 0) s = true) && decide (x.reps = [])) | none => false))
noncomputable def clause11 : Bool := (match (s3 : List (String × (Eng)))[0]? with | some (_, x) => decide (x.reps = []) | none => false)
noncomputable def clause12 : Bool := (match (s3 : List (String × (Eng)))[1]? with | some (_, x) => (let f : Nat := 3; (let l : Nat := 9; (let r : List (Nat × Nat) := []; decide (x.reps = (f, l) :: r) && decide (l ≠ x.pc)))) | none => false)
noncomputable def clause13 : Bool := (match (s3 : List (String × (Eng)))[3]? with | some (_, x) => (let f : Nat := 3; (let l : Nat := 5; (let c : Nat := 2; (let r : List (Nat × Nat) := [(2,5)]; decide (x.reps = (f, l) :: r) && decide (l = x.pc) && decide (x.lc.get 0 r.length = c) && decide (1 < c) && decide (c < 2 ^ 17))))) | none => false)
noncomputable def clause14 : Bool := (match (s3 : List (String × (Eng)))[2]? with | some (_, x) => (let f : Nat := 3; (let l : Nat := 5; (let r : List (Nat × Nat) := []; decide (x.reps = (f, l) :: r) && decide (l = x.pc) && decide (x.lc.get 0 r.length = 1)))) | none => false)
theorem witness_BranchesAndRepeats_1 : [clause1, clause2, clause3, clause4, clause5, clause6, clause7, clause8].all id = true := by decide +kernel
theorem witness_BranchesAndRepeats_2 : [clause9, clause10, clause11, clause12, clause13, clause14].all id = true := by decide +kernel
end WBranchesAndRepeats

namespace WHandlerEndsAndEngineFaults
def xx : Eng := { eV [9, 1, 3, 0x800000000000, 0x546] [] with st := 0x75, reps := [(1,9)] }
def ac : WarpAccess := { store := false, quad := 5, loom := 100, words := [], pc := 9 }
def tick (s : State) : State := { onEng 3 (fun x => { x with handler := some (.tick 7) }) s with trd := { s.trd with picks := [{ n := 7, tick := 5, ports := [], engines := [3,4], hands := [3,4] }] } }
def lg (s : State) : State := { s with sht := { s.sht with log := s.sht.log.put {} 3 { pend := [{ pick := 7, at_ := 5, started := true }] } } }
def ss : List (String × State) := named "ss" ([lg (tick (mE (chOp 0x75 0) xx)), mE (chOp 0x75 0) xx, mE (chOp 0x75 0) { xx with acc := [ac] }, setEng 3 { xx with stall := some .done, handler := some .queue } (mE 0 xx), setEng 3 { xx with stall := some .done, acc := [ac] } (mE 0 xx)] ++ (List.range 8).map (fun m => mE (chOp 0x76 m) xx))
def s2 : List (String × State) := named "s2" <| List.map (wr SHT_CTL_AUTO_SPARE 0 0) [mE 0 { xx with pc := 200 }, mE (0xFF * 2^40) xx, setEng 3 { xx with pc := 5, img := some { id := 1, instr := 100, tickEn := false, tick := 0, handlers := [], carryBase := 0, carryLen := 0 }, handler := some .queue, istore := [(5, (encodeWord 0) + 3)] } (mE 0 xx), lg (tick (mE (0xFF * 2^40) xx)), setEng 3 { xx with handler := none } (mE 0 xx), mE 0 xx]
noncomputable def clause1 : Bool := (let e : Fin 34 := 3; (match (ss : List (String × (State)))[0]? with | some (_, s) => (let x : Eng := engOf e s; decide (issues e (chOp 0x75 0) s = true) && decide (engSt e s = 4) && decide (x.acc = [])) | none => false))
noncomputable def clause2 : Bool := (let e : Fin 34 := 3; (match (ss : List (String × (State)))[2]? with | some (_, s) => (let x : Eng := engOf e s; decide (issues e (chOp 0x75 0) s = true) && decide (x.acc ≠ [])) | none => false))
noncomputable def clause3 : Bool := (let e : Fin 34 := 3; (match (ss : List (String × (State)))[3]? with | some (_, s) => (let x : Eng := engOf e s; decide (x.stall = some .done) && decide (x.acc = []) && decide (engSt e s = 4)) | none => false))
noncomputable def clause4 : Bool := (let e : Fin 34 := 3; (match ((List.range 8).map (fun i => (toString i, BitVec.ofNat 3 i)) : List (String × (BitVec 3)))[0]? with | some (_, mask) => (match (ss : List (String × (State)))[5]? with | some (_, s) => decide (issues e (chOp 0x76 mask.toNat) s = true) | none => false) | none => false))
noncomputable def clause5 : Bool := (let e : Fin 34 := 3; (match (s2 : List (String × (State)))[0]? with | some (_, s) => (let code : Nat := 2; decide (s.sht.swap = none) && decide (rdB SHT_CTL_AUTO_SPARE 0 s = false) && decide (issuing e s = true) && decide ((issueRead e s = none ∧ code = 2) ∨ (issueRead e s = some .bad ∧ code = 5) ∨ ((match issueRead e s with | some r => decide (r ≠ .bad ∧ (chDecode e r.data).isNone = true ∧ code = 1) | none => false) = true))) | none => false))
noncomputable def clause6 : Bool := (let e : Fin 34 := 3; (match (s2 : List (String × (State)))[0]? with | some (_, s) => decide (s.sht.swap = none) && decide (rdB SHT_CTL_AUTO_SPARE 0 s = false) && decide (engSt e s = 4) | none => false))
theorem witness_HandlerEndsAndEngineFaults : [clause1, clause2, clause3, clause4, clause5, clause6].all id = true := by decide +kernel
end WHandlerEndsAndEngineFaults

namespace WEngineRunAndLogData
def im : Img := { id := 1, instr := 100, tickEn := true, tick := 0, handlers := [], carryBase := 0, carryLen := 0 }
def xx : Eng := { eV [9, 1, 3, 0x800000000000, 0x546] [] with st := 0x75, reps := [(1,9)] }
def stL (n id : Nat) (x : Eng) : State := setEng 3 { x with img := some im } (wr SHT_ENG_STAT_IMAGE_ID 3 id (wr SHT_ENG_STAT_ENG_STATE 3 n (wr SHT_ENG_STAT_SERVES 3 1 (wr SHT_ENG_STAT_LOG 3 3 r0))))
def ss : List (String × State) := named "ss" [stL 3 1 xx, stL 3 0 xx, stL 4 1 { xx with handler := none }, stL 4 1 { xx with handler := some .queue }, wr SHT_RUN_RUN 0 8 (stL 4 1 { xx with handler := some (.tick 5) }), r0, wr SHT_RUN_RUN 0 8 (stL 4 1 { xx with handler := none })]
def s2 : List (String × State) := named "s2" ((List.range 16).flatMap (fun k => [stL 3 1 xx, stL 4 1 xx, r0, { stL 3 1 xx with rings := [{ queue := 255, base := 0, size := 12, index := 0 }] }].map (fun s => wr SHT_LOG_ADDR_LOG 0 3 (wr SHT_LOG_ADDR_ENTRY 0 k s))))
noncomputable def clause1 : Bool := (let l : Fin 32 := 3; (match (ss : List (String × (State)))[0]? with | some (_, s) => (let e : Nat := physOf l s; decide (e < 34) && decide (s.sys.inReset = false) && decide (engSt e s = 3) && decide (rd SHT_ENG_STAT_IMAGE_ID e s ≠ 0) && decide ((psync l s = true → hasTick e s = true))) | none => false))
noncomputable def clause2 : Bool := (let l : Fin 32 := 3; (match (ss : List (String × (State)))[1]? with | some (_, s) => (let e : Nat := physOf l s; decide (e < 34) && decide (s.sys.inReset = false) && decide (engSt e s = 3) && decide (rd SHT_ENG_STAT_IMAGE_ID e s = 0)) | none => false))
noncomputable def clause3 : Bool := (let l : Fin 32 := 3; (match (ss : List (String × (State)))[2]? with | some (_, s) => (let e : Nat := physOf l s; (let x : Eng := engOf e s; decide (e < 34) && decide (s.sys.inReset = false) && decide (engSt e s = 4) && decide (x.handler = none) && decide (x.stall = none) && decide (s.sht.swap = none) && decide (startPending l s = false))) | none => false))
noncomputable def clause4 : Bool := (let l : Fin 32 := 3; (match (ss : List (String × (State)))[3]? with | some (_, s) => (let e : Nat := physOf l s; (let x : Eng := engOf e s; decide (e < 34) && decide (s.sys.inReset = false) && decide (engSt e s = 4) && decide (x.handler ≠ none) && decide (x.stall = none) && decide (s.sht.swap = none))) | none => false))
noncomputable def clause5 : Bool := (let v : Qword := 0; (match (s2 : List (String × (State)))[0]? with | some (_, s) => (let l : Nat := rd SHT_LOG_ADDR_LOG 0 s; (let k : Nat := rd SHT_LOG_ADDR_ENTRY 0 s; decide (s.sys.inReset = false) && decide (k < 8) && decide (engSt (physOf l s) s = 3) && decide (v.getLsbD 15 = false ∨ (ringBound (v.toNat % 256) s = false ∧ ∀ x : Nat, x < 4 → rd BOB_CTX_STAT_STATE x s = 0 ∨ rd BOB_CTX_CFG_SRC_Q x s ≠ v.toNat % 256)))) | none => false))
noncomputable def clause6 : Bool := (let v : Qword := 0xFFFFFFFFFFFFFFFF; (match (s2 : List (String × (State)))[3]? with | some (_, s) => (let l : Nat := rd SHT_LOG_ADDR_LOG 0 s; (let k : Nat := rd SHT_LOG_ADDR_ENTRY 0 s; decide (s.sys.inReset = false) && decide (k < 8) && decide (engSt (physOf l s) s = 3) && decide (v.getLsbD 15 = true) && decide (ringBound (v.toNat % 256) s = true))) | none => false))
noncomputable def clause7 : Bool := (let v : Qword := 0; (match (s2 : List (String × (State)))[40]? with | some (_, s) => (let l : Nat := rd SHT_LOG_ADDR_LOG 0 s; (let k : Nat := rd SHT_LOG_ADDR_ENTRY 0 s; decide (s.sys.inReset = false) && decide (k = 10) && decide (engSt (physOf l s) s = 3 ∨ v.toNat % 2 = logEntry l 10 s % 2))) | none => false))
noncomputable def clause8 : Bool := (let v : Qword := 0xFFFFFFFFFFFFFFFF; (match (s2 : List (String × (State)))[41]? with | some (_, s) => (let l : Nat := rd SHT_LOG_ADDR_LOG 0 s; (let k : Nat := rd SHT_LOG_ADDR_ENTRY 0 s; decide (s.sys.inReset = false) && decide (k = 10) && decide (engSt (physOf l s) s ≠ 3) && decide (v.toNat % 2 ≠ logEntry l 10 s % 2))) | none => false))
noncomputable def clause9 : Bool := (match (s2 : List (String × (State)))[40]? with | some (_, s) => (let k : Nat := rd SHT_LOG_ADDR_ENTRY 0 s; decide (s.sys.inReset = false) && decide (k = 10)) | none => false)
noncomputable def clause10 : Bool := (match (s2 : List (String × (State)))[44]? with | some (_, s) => (let k : Nat := rd SHT_LOG_ADDR_ENTRY 0 s; decide (s.sys.inReset = false) && decide (10 < k)) | none => false)
noncomputable def clause12 : Bool := (match (s2 : List (String × (State)))[0]? with | some (_, s) => (let k : Nat := rd SHT_LOG_ADDR_ENTRY 0 s; decide (s.sys.inReset = false) && decide (k < 10)) | none => false)
noncomputable def clause13 : Bool := (match (s2 : List (String × (State)))[32]? with | some (_, s) => (let l : Nat := rd SHT_LOG_ADDR_LOG 0 s; (let k : Nat := rd SHT_LOG_ADDR_ENTRY 0 s; decide (s.sys.inReset = false) && decide ((k = 8 ∨ k = 9)) && decide (engSt (physOf l s) s = 3))) | none => false)
noncomputable def clause14 : Bool := (match (s2 : List (String × (State)))[1]? with | some (_, s) => (let l : Nat := rd SHT_LOG_ADDR_LOG 0 s; (let k : Nat := rd SHT_LOG_ADDR_ENTRY 0 s; decide (s.sys.inReset = false) && decide (k < 10) && decide (engSt (physOf l s) s ≠ 3))) | none => false)
theorem witness_EngineRunAndLogData_1 : [clause1, clause2, clause3, clause4, clause5, clause6, clause7, clause8].all id = true := by decide +kernel
theorem witness_EngineRunAndLogData_2 : [clause9, clause10, clause12, clause13, clause14].all id = true := by decide +kernel
end WEngineRunAndLogData

namespace WHandlersAndBudget
def im : Img := { id := 1, instr := 100, tickEn := true, tick := 40, handlers := [some 70, none, some 80], carryBase := 0, carryLen := 0 }
def xx : Eng := { eV [9, 1, 3, 0x800000000000, 0x546] [] with st := 0x75, img := some im }
def base : State := wr SYS_PICK_NUM_NUM 0 0x123 (setEng 3 xx (wr SHT_ENG_STAT_IMAGE_ID 3 1 (wr SHT_ENG_STAT_ENG_STATE 3 4 (wr SHT_ENG_STAT_SERVES 3 1 (wr SHT_ENG_STAT_LOG 3 3 r0)))))
def lg (l : LogEng) (s : State) : State := { s with sht := { s.sht with log := s.sht.log.put {} 3 l } }
def py (s : State) : State := { s with sht := { s.sht with log := s.sht.log.put {} 3 { (logEngOf 3 s) with entries := [(10, 1)] } } }
def ss : List (String × State) := named "ss" [lg { pend := [{ pick := 7, at_ := 5 }] } base, lg { pend := [{ pick := 6, at_ := 3, started := true },{ pick := 7, at_ := 5 }] } base,
 { lg { entries := [(0, 2^15 + 70)] } base with queues := [(70, { items := [{ pri := 5, word := encodeWord 0xABC },{ pri := 4, word := encodeWord 1 }] })] }, { lg { entries := [(0, 2^15 + 70 + 2 * 2^12), (2, 2^15 + 71 + 2^13)] } base with queues := [(71, { items := [{ pri := 5, word := encodeWord 0xABC }] })] }]
def pkL (n : Nat) (l : List Nat) : PickCtx := { n := n, tick := 5, ports := [], engines := l, hands := l }
def tk (l : List PickCtx) (s : State) : State := { s with trd := { s.trd with picks := l } }
def s2 : List (String × State) := named "s2" [tk [pkL 7 [3]] base, tk [{ pkL 6 [3] with handlers := true }, pkL 7 [3]] (lg { pend := [{ pick := 6, at_ := 1 }] } base)]
def s3 : List (String × State) := named "s3" <| List.map py [lg { pend := [{ pick := 7, at_ := 5 }] } (tk [pkL 7 [3,4]] base), wr SHT_LCNT_OVERRUNS 3 5 (lg { release := true, pend := [{ pick := 6, at_ := 3, started := true, beyond := true },{ pick := 7, at_ := 5 }] } (tk [pkL 7 [3,4]] base))]
noncomputable def clause1 : Bool := (let e : Fin 34 := 3; (match (ss : List (String × (State)))[0]? with | some (_, s) => (let x : Eng := engOf e s; (match servedBy e s with | some l => (match x.img with | some im => decide (engSt e s = 4) && decide (x.handler = none) && decide (s.sht.swap = none) && (match (logEngOf l s).pend.find? (fun t => !t.started && im.tickEn) with | some _ => true | _ => false) | _ => false) | _ => false)) | none => false))
noncomputable def clause2 : Bool := (let e : Fin 34 := 3; (match (ss : List (String × (State)))[2]? with | some (_, s) => (let x : Eng := engOf e s; (match servedBy e s with | some l => (match x.img with | some im => decide (engSt e s = 4) && decide (x.handler = none) && decide (s.sht.swap = none) && (match dueBinding l im s with | some (q, _) => (match (queueOf q s).items with | it :: _ => (match decodeWord it.word with | .clean _ => decide ((logEngOf l s).pend.find? (fun t => !t.started && im.tickEn) = none) && decide (it.linkBad = false) | _ => false) | _ => false) | _ => false) | _ => false) | _ => false)) | none => false))
noncomputable def clause3 : Bool := (match ((s2 ++ s3) : List (String × (State)))[0]? with | some (_, s) => (let l : Nat := 3; (let r : Nat := 3; (match s.trd.picks.filter (fun y => !y.handlers) with | [x] => decide (x.ports.all (fun y => portWorkDone y s) = true) && decide (x.hands = [(l, r)]) && decide ((logEngOf l s).pend.length < 2) | _ => false))) | none => false)
noncomputable def clause4 : Bool := (let l : Fin 32 := 3; (match ((s2 ++ s3) : List (String × (State)))[2]? with | some (_, s) => (match (logEngOf l s).pend.find? (fun t => !t.beyond) with | some _ => decide (psync l s = true) | _ => false) | none => false))
theorem witness_HandlersAndBudget : [clause1, clause2, clause3, clause4].all id = true := by decide +kernel
end WHandlersAndBudget

namespace WImageLoadsAndSwaps
def src : Nat := 0x1600000
def ws0 (crc : Nat) : List Nat := [0x535758 * 2^24 + 1 * 2^16 + (rd SYS_ID_STEP_MAJOR 0 r0) * 2^8, 5 * 2^32 + 2 * 2^16 + 1 * 2^8, 14 * 2^24, 0, 2^33 + 1 * 2^34 + crc, 0, 0, 0, 0, 0x111, 0x222, 2 * 2^31 + 100, 7, 8]
def crcOf : Nat := crc32 (((ws0 0).zipIdx).flatMap (fun x => wordBytes (if x.2 = 4 then x.1 / 2^32 * 2^32 else x.1)))
def put (f : List Nat → List Nat) (s : State) : State := ((f (ws0 crcOf)).zipIdx).foldl (fun s x => { s with warp := { s.warp with words := s.warp.words.put bareWord (warpPlace (src + x.2) s) (encodeWord x.1) } }) s
def loaded (sp : Bool) (f : List Nat → List Nat) : State := { wr SHT_IMG_STAT_BUSY 0 1 (wr SHT_ENG_STAT_ENG_STATE 33 1 (put f r0)) with sht := { r0.sht with load := some { engine := 33, src := src, spare := sp } } }
def vq (e : Nat) : Qword := BitVec.ofNat 64 (e * 2 ^ SHT_IMG_CTL_ENGINE.lo + src * 2 ^ SHT_IMG_CTL_SRC.lo)
def vs : List (String × Qword) := [("33", vq 33), ("40", vq 40)]
def ss : List (String × State) := named "ss" [r0, wr SHT_ENG_STAT_ENG_STATE 33 2 r0, wr SHT_ENG_STAT_ENG_STATE 33 3 r0, loaded true id, loaded false id, loaded true (fun l => l.set 9 5), loaded false (fun l => l.set 0 5), loaded true (fun l => l.set 11 0), { r0 with sht := { r0.sht with load := some { engine := 32, src := src, spare := true } } }]
def vw (l sp m r : Nat) : Qword := BitVec.ofNat 64 (l * 2 ^ SHT_SWAP_LOG.lo + sp * 2 ^ SHT_SWAP_SPARE.lo + m * 2 ^ SHT_SWAP_MODE.lo + r * 2 ^ SHT_SWAP_RETIRE.lo)
def vsw : List (String × Qword) := [("a", vw 3 33 0 0), ("b", vw 3 33 1 1), ("c", vw 3 33 2 0)]
def im : Img := { id := 1, instr := 100, tickEn := true, tick := 40, handlers := [some 70, none, some 80], carryBase := 0, carryLen := 0 }
def xx : Eng := { eV [9, 1, 3, 0x800000000000, 0x546] [] with st := 0x75, img := some im }
def base : State := setEng 33 { xx with w := sm [1,2,3] } (setEng 3 xx (wr SHT_ENG_STAT_ENG_STATE 33 2 (wr SHT_ENG_STAT_IMAGE_ID 3 1 (wr SHT_ENG_STAT_ENG_STATE 3 4 (wr SHT_ENG_STAT_SERVES 3 1 (wr SHT_ENG_STAT_LOG 3 3 (wr SHT_RUN_RUN 0 8 r0)))))))
def sw (w : EngSwap) (s : State) : State := { s with sht := { s.sht with swap := some w } }
def w0 : EngSwap := { log := 3, spare := 33, out := 3, migrate := true, retire := false }
def s2 : List (String × State) := named "s2" [base, wr SHT_ENG_STAT_ENG_STATE 3 3 base, wr SHT_ENG_STAT_ENG_STATE 3 6 base, sw w0 base, wr SHT_SWAP_STAT_WAITING 0 1 (sw w0 base), wr SHT_SWAP_STAT_WAITING 0 1 (sw { w0 with boundary := true } base), wr SHT_SWAP_STAT_WAITING 0 1 (sw { w0 with boundary := true, migrate := false } base),
 sw { w0 with copying := true, migrate := false, carry := false, was := 4, due := 1000 } (wr SHT_SWAP_STAT_COPYING 0 1 (wr SHT_ENG_STAT_ENG_STATE 3 9 base)), sw { w0 with copying := true, migrate := false, carry := false, was := 4, due := 1000, retire := true } (wr SHT_SWAP_STAT_COPYING 0 1 (wr SHT_ENG_STAT_ENG_STATE 3 9 base)) ]
noncomputable def clause1 : Bool := (match (vs : List (String × (Qword)))[0]? with | some (_, v) => (match (ss : List (String × (State)))[0]? with | some (_, s) => (let e : Nat := SHT_IMG_CTL_ENGINE.ofQ v; decide (s.sys.inReset = false) && decide (e < 34) && decide (s.sht.load = none) && decide (s.sht.swap = none) && decide (engSt e s = 0 ∨ engSt e s = 2 ∨ engSt e s = 3)) | none => false) | none => false)
noncomputable def clause2 : Bool := (match (vs : List (String × (Qword)))[0]? with | some (_, v) => (match (ss : List (String × (State)))[3]? with | some (_, s) => (let e : Nat := SHT_IMG_CTL_ENGINE.ofQ v; decide (s.sys.inReset = false) && decide (34 ≤ e ∨ s.sht.load ≠ none ∨ (∃ w, s.sht.swap = some w ∧ (w.out = e ∨ w.spare = e)) ∨ engSt e s = 1 ∨ 4 ≤ engSt e s)) | none => false) | none => false)
noncomputable def clause3 : Bool := (match (vs : List (String × (Qword)))[0]? with | some (_, v) => (match (ss : List (String × (State)))[5]? with | some (_, s) => (let e : Nat := SHT_IMG_CTL_ENGINE.ofQ v; (let src : Nat := SHT_IMG_CTL_SRC.ofQ v; (let sp : Bool := true; (match imgCheck src (imgSeen src s) with | some (err, at_) => decide (s.sht.load = some { engine := e, src := src, spare := sp }) && decide (e < 34) && decide (err < 16) && decide (at_ < 2 ^ 24) | _ => false)))) | none => false) | none => false)
noncomputable def clause4 : Bool := (match (vs : List (String × (Qword)))[0]? with | some (_, v) => (match (ss : List (String × (State)))[3]? with | some (_, s) => (let e : Nat := SHT_IMG_CTL_ENGINE.ofQ v; (let src : Nat := SHT_IMG_CTL_SRC.ofQ v; (let sp : Bool := true; decide (s.sht.load = some { engine := e, src := src, spare := sp }) && decide (e < 34) && decide (imgCheck src (imgSeen src s) = none)))) | none => false) | none => false)
noncomputable def clause5 : Bool := (match (vsw : List (String × (Qword)))[2]? with | some (_, v) => (match (s2 : List (String × (State)))[0]? with | some (_, s) => (let l : Nat := SHT_SWAP_LOG.ofQ v; (let sp : Nat := SHT_SWAP_SPARE.ofQ v; (let m : Nat := SHT_SWAP_MODE.ofQ v; (let e : Nat := physOf l s; decide (s.sys.inReset = false) && decide (2 ≤ m) && decide (v.getLsbD 12 = false) && decide (sp < 34) && decide (engSt sp s = 0 ∨ engSt sp s = 2) && decide (rd SHT_ENG_STAT_SERVES sp s = 0) && decide (s.sht.swap = none) && decide (engSt e s ≠ 8) && decide (engSt e s ≠ 1))))) | none => false) | none => false)
noncomputable def clause6 : Bool := (match (vsw : List (String × (Qword)))[0]? with | some (_, v) => (match (s2 : List (String × (State)))[0]? with | some (_, s) => (let l : Nat := SHT_SWAP_LOG.ofQ v; (let sp : Nat := SHT_SWAP_SPARE.ofQ v; (let m : Nat := SHT_SWAP_MODE.ofQ v; (let e : Nat := physOf l s; decide (s.sys.inReset = false) && decide (v.getLsbD 12 = false) && decide (sp < 34) && decide (engSt sp s = 2) && decide (rd SHT_ENG_STAT_SERVES sp s = 0) && decide (s.sht.swap = none) && decide (engSt e s = 4) && decide (m < 2) && decide ((psync l s = true → hasTick sp s = true)))))) | none => false) | none => false)
noncomputable def clause7 : Bool := (match (vsw : List (String × (Qword)))[0]? with | some (_, v) => (match (s2 : List (String × (State)))[1]? with | some (_, s) => (let l : Nat := SHT_SWAP_LOG.ofQ v; (let sp : Nat := SHT_SWAP_SPARE.ofQ v; (let m : Nat := SHT_SWAP_MODE.ofQ v; (let e : Nat := physOf l s; decide (s.sys.inReset = false) && decide (v.getLsbD 12 = false) && decide (sp < 34) && decide (engSt sp s = 2) && decide (rd SHT_ENG_STAT_SERVES sp s = 0) && decide (s.sht.swap = none) && decide (engSt e s = 3 ∨ engSt e s = 6) && decide (e < 34) && decide (m < 2) && decide ((psync l s = true → hasTick sp s = true)))))) | none => false) | none => false)
noncomputable def clause8 : Bool := (match (vsw : List (String × (Qword)))[0]? with | some (_, v) => (match (s2 : List (String × (State)))[3]? with | some (_, s) => (match ((s.sht.swap.toList ++ [w0]).map (fun w => ("w", w)) : List (String × (EngSwap)))[0]? with | some (_, w) => (let sp : Nat := SHT_SWAP_SPARE.ofQ v; decide (s.sys.inReset = false) && decide (v.getLsbD 12 = false) && decide (s.sht.swap = some w) && decide (sp < 34) && decide (engSt sp s = 2) && decide (rd SHT_ENG_STAT_SERVES sp s = 0)) | none => false) | none => false) | none => false)
noncomputable def clause9 : Bool := (match (s2 : List (String × (State)))[4]? with | some (_, s) => (match ((s.sht.swap.toList ++ [w0]).map (fun w => ("w", w)) : List (String × (EngSwap)))[0]? with | some (_, w) => decide (s.sys.inReset = false) && decide (s.sht.swap = some w) && decide (w.copying = false) && decide (rdB SHT_SWAP_STAT_WAITING 0 s = true) && decide (w.out < 34) && decide (w.spare < 34) | none => false) | none => false)
noncomputable def clause10 : Bool := (match (s2 : List (String × (State)))[0]? with | some (_, s) => decide (s.sys.inReset = false) && decide (s.sht.swap = none) && decide (rdB SHT_SWAP_STAT_WAITING 0 s = false) | none => false)
noncomputable def clause11 : Bool := (match (s2 : List (String × (State)))[5]? with | some (_, s) => (match ((s.sht.swap.toList ++ [w0]).map (fun w => ("w", w)) : List (String × (EngSwap)))[0]? with | some (_, w) => decide (s.sht.swap = some w) && decide (w.boundary = true) && decide (w.copying = false) && decide (w.out < 34) && decide (w.was = 0) | none => false) | none => false)
noncomputable def clause12 : Bool := (match (s2 : List (String × (State)))[7]? with | some (_, s) => (match ((s.sht.swap.toList ++ [w0]).map (fun w => ("w", w)) : List (String × (EngSwap)))[0]? with | some (_, w) => decide (s.sht.swap = some w) && decide (w.copying = true) && decide (w.out < 34) && decide (w.spare < 34) && decide (w.out ≠ w.spare) && decide (w.log < 32) && decide (w.migrate = false) && decide (w.carry = false) && decide (w.was = 4) && decide (bitOf (rd SHT_RUN_RUN 0 s) w.log = true) && decide ((engOf w.spare s).img ≠ none) && decide ((∀ x : Nat, x < 34 → rd SHT_ENG_STAT_SERVES x s = 1 → rd SHT_ENG_STAT_LOG x s = w.log → x = w.out)) | none => false) | none => false)
theorem witness_ImageLoadsAndSwaps_1 : [clause1, clause2, clause3, clause4, clause5, clause6, clause7, clause8].all id = true := by decide +kernel
theorem witness_ImageLoadsAndSwaps_2 : [clause9, clause10, clause11, clause12].all id = true := by decide +kernel
end WImageLoadsAndSwaps

namespace WDraftControl
def T0 : Treadle := { r0.trd with weaving := true, running := true, pc := 5, insns := 7, cost := 40, progStart := 1000, loops := [(3, 2), (1, 5)], flags := 0x21, pickN := 77 }
def dr (w : Nat) (t : Treadle) : State := wr TRD_BANK_CFG_LENGTH 0 20 (wr TRD_BANK_CFG_ENTRY 0 2 (wr SYS_STATE_STATE 0 4 { r0 with trd := { t with draft := [(t.pc, w)] } }))

def ss : List (String × State) := named "ss" ([encTrdNop, encLoop 0, encLoop 1024, encEndl, encJump 7, encJflg 5 9, encJflg 4 9].flatMap (fun w => [dr w T0, dr w { T0 with loops := [(3,1)] }, dr w { T0 with insns := 255 }, dr w { T0 with pc := 20 }, dr w { T0 with running := false, startDue := some 5000, firstPick := true }, dr w { T0 with running := false, startDue := some 5000 }]))
noncomputable def clause1 : Bool := (match (ss : List (String × (State)))[0]? with | some (_, s) => (let at_ : Nat → Bool := fun w => decide (s.trd.running = true ∧ s.trd.ppsWait = none ∧ s.trd.pc < rd TRD_BANK_CFG_LENGTH (bankOf s) s ∧ draftAt (bankOf s) s.trd.pc s = w ∧ s.trd.insns < 255); decide (at_ encTrdNop = true)) | none => false)
noncomputable def clause2 : Bool := (match (ss : List (String × (State)))[6]? with | some (_, s) => (let at_ : Nat → Bool := fun w => decide (s.trd.running = true ∧ s.trd.ppsWait = none ∧ s.trd.pc < rd TRD_BANK_CFG_LENGTH (bankOf s) s ∧ draftAt (bankOf s) s.trd.pc s = w ∧ s.trd.insns < 255); (let count : BitVec 16 := 0; decide (at_ (encLoop count) = true))) | none => false)
noncomputable def clause3 : Bool := (match (ss : List (String × (State)))[18]? with | some (_, s) => (let at_ : Nat → Bool := fun w => decide (s.trd.running = true ∧ s.trd.ppsWait = none ∧ s.trd.pc < rd TRD_BANK_CFG_LENGTH (bankOf s) s ∧ draftAt (bankOf s) s.trd.pc s = w ∧ s.trd.insns < 255); (match s.trd.loops with | (_, n) :: _ => decide (at_ encEndl = true) && decide (1 < n) | _ => false)) | none => false)
noncomputable def clause4 : Bool := (match (ss : List (String × (State)))[19]? with | some (_, s) => (let at_ : Nat → Bool := fun w => decide (s.trd.running = true ∧ s.trd.ppsWait = none ∧ s.trd.pc < rd TRD_BANK_CFG_LENGTH (bankOf s) s ∧ draftAt (bankOf s) s.trd.pc s = w ∧ s.trd.insns < 255); (match s.trd.loops with | (_, n) :: _ => decide (at_ encEndl = true) && decide (n ≤ 1) | _ => false)) | none => false)
noncomputable def clause5 : Bool := (match (ss : List (String × (State)))[24]? with | some (_, s) => (let at_ : Nat → Bool := fun w => decide (s.trd.running = true ∧ s.trd.ppsWait = none ∧ s.trd.pc < rd TRD_BANK_CFG_LENGTH (bankOf s) s ∧ draftAt (bankOf s) s.trd.pc s = w ∧ s.trd.insns < 255); (let target : BitVec 12 := 7; decide (at_ (encJump target) = true))) | none => false)
noncomputable def clause6 : Bool := (match (ss : List (String × (State)))[30]? with | some (_, s) => (let at_ : Nat → Bool := fun w => decide (s.trd.running = true ∧ s.trd.ppsWait = none ∧ s.trd.pc < rd TRD_BANK_CFG_LENGTH (bankOf s) s ∧ draftAt (bankOf s) s.trd.pc s = w ∧ s.trd.insns < 255); (let flag : BitVec 4 := 5; (let target : BitVec 12 := 9; decide (at_ (encJflg flag target) = true) && decide (bitOf s.trd.flags flag.toNat = true)))) | none => false)
noncomputable def clause7 : Bool := (match (ss : List (String × (State)))[36]? with | some (_, s) => (let at_ : Nat → Bool := fun w => decide (s.trd.running = true ∧ s.trd.ppsWait = none ∧ s.trd.pc < rd TRD_BANK_CFG_LENGTH (bankOf s) s ∧ draftAt (bankOf s) s.trd.pc s = w ∧ s.trd.insns < 255); (let flag : BitVec 4 := 4; (let target : BitVec 12 := 9; decide (at_ (encJflg flag target) = true) && decide (bitOf s.trd.flags flag.toNat = false)))) | none => false)
noncomputable def clause8 : Bool := (match (ss : List (String × (State)))[3]? with | some (_, s) => decide (s.trd.running = true) && decide (s.trd.ppsWait = none) && decide (s.trd.pc = rd TRD_BANK_CFG_LENGTH (bankOf s) s) && decide (s.trd.insns < 255) | none => false)
noncomputable def clause9 : Bool := (match (ss : List (String × (State)))[4]? with | some (_, s) => (match s.trd.startDue with | some _ => decide (s.trd.weaving = true) && decide (s.trd.running = false) && decide (s.trd.hostBeat = false) | _ => false) | none => false)
noncomputable def clause10 : Bool := (match (ss : List (String × (State)))[2]? with | some (_, s) => decide (s.trd.running = true) && decide (s.trd.ppsWait = none) && decide (s.trd.pc < rd TRD_BANK_CFG_LENGTH (bankOf s) s) && decide (draftAt (bankOf s) s.trd.pc s = encTrdNop) && decide (s.trd.insns = 255) && decide (s.trd.set = none) && decide (s.trd.loNamed = none) && decide (s.trd.firstPick = false) | none => false)
theorem witness_DraftControl_1 : [clause1, clause2, clause3, clause4, clause5, clause6, clause7, clause8].all id = true := by decide +kernel
theorem witness_DraftControl_2 : [clause9, clause10].all id = true := by decide +kernel
end WDraftControl

namespace WDraftInstructions
def T0 : Treadle := { r0.trd with weaving := true, running := true, pc := 5, insns := 7, cost := 40, progStart := 1000, loops := [(3, 2), (1, 5)], flags := 0x21, pickN := 77 }
def dr (w : Nat) (t : Treadle) : State := wr TRD_BANK_CFG_LENGTH 0 20 (wr TRD_BANK_CFG_ENTRY 0 2 (wr SYS_STATE_STATE 0 4 { r0 with trd := { t with draft := [(t.pc, w)] } }))

def cs : ChangeSet := { beatPick := 7 }
def ss : List (String × State) := named "ss" ([encKind 2 0x8421, encSlot 33 0x8421, encGzt 3 0x8421, encLine true 0 0x8421, encLine false 6 0x8421, encLo 21, encStripe 43 0xABC, encStripe 0 0].flatMap (fun w => [dr w T0, wr TRD_PORT_LINE_STG 0 7 (dr w T0), dr w { T0 with set := some cs }, dr w { T0 with set := some { cs with prepared := true } }]))
def qfL (s : State) : State := { s with queues := [(61, { items := [{ pri := 5, word := encodeWord 1 }, { pri := 2, word := encodeWord 2 }] })] }
def s2 : List (String × State) := named "s2" ([encPick, encNote 1 8 0x55, encPpsa 500, encBeat, encSwap].flatMap (fun w => [dr w T0, wr SYS_DISC_CTL_PPS_EN 0 1 (dr w T0), dr w { T0 with set := some cs }, dr w { T0 with beatTaken := true }, dr w { T0 with set := some { cs with prepared := true } }, qfL (dr w T0), wr WFQ_CFG_CAP 61 2 (qfL (dr w T0)), dr w { T0 with ppsWait := some (700, 500) }]))
noncomputable def clause1 : Bool := (match (ss : List (String × (State)))[0]? with | some (_, s) => (let at_ : Nat → Bool := fun w => decide (s.trd.running = true ∧ s.trd.ppsWait = none ∧ s.trd.pc < rd TRD_BANK_CFG_LENGTH (bankOf s) s ∧ draftAt (bankOf s) s.trd.pc s = w ∧ s.trd.insns < 255); (let mask : BitVec 16 := 0x8421; (let k2 : BitVec 2 := 2; (let g : BitVec 2 := 3; (let k6 : BitVec 6 := 33; (match (([(Sys2Proof.Machine.execKind k2 mask, encKind k2 mask, TRD_PORT_KIND, k2.toNat), (Sys2Proof.Machine.execSlot k6 mask, encSlot k6 mask, TRD_PORT_SLOT, k6.toNat), (Sys2Proof.Machine.execGzt g mask, encGzt g mask, TRD_PORT_GZT, g.toNat)] : List ((State → Host.Outcome State Fault Refusal) × Nat × Fld × Nat)))[0]? with | some c => decide (at_ c.2.1 = true) | none => false)))))) | none => false)
noncomputable def clause2 : Bool := (match (ss : List (String × (State)))[12]? with | some (_, s) => (let at_ : Nat → Bool := fun w => decide (s.trd.running = true ∧ s.trd.ppsWait = none ∧ s.trd.pc < rd TRD_BANK_CFG_LENGTH (bankOf s) s ∧ draftAt (bankOf s) s.trd.pc s = w ∧ s.trd.insns < 255); (let mask : BitVec 16 := 0x8421; (let inc : Bool := true; (let l : BitVec 3 := 0; decide (at_ (encLine inc l mask) = true) && decide (s.trd.set = none))))) | none => false)
noncomputable def clause3 : Bool := (match (ss : List (String × (State)))[15]? with | some (_, s) => (let at_ : Nat → Bool := fun w => decide (s.trd.running = true ∧ s.trd.ppsWait = none ∧ s.trd.pc < rd TRD_BANK_CFG_LENGTH (bankOf s) s ∧ draftAt (bankOf s) s.trd.pc s = w ∧ s.trd.insns < 255); (let mask : BitVec 16 := 0x8421; (let inc : Bool := true; (let l : BitVec 3 := 0; decide (at_ (encLine inc l mask) = true) && decide (setPrepared s = true))))) | none => false)
noncomputable def clause4 : Bool := (match (ss : List (String × (State)))[20]? with | some (_, s) => (let at_ : Nat → Bool := fun w => decide (s.trd.running = true ∧ s.trd.ppsWait = none ∧ s.trd.pc < rd TRD_BANK_CFG_LENGTH (bankOf s) s ∧ draftAt (bankOf s) s.trd.pc s = w ∧ s.trd.insns < 255); (let e : BitVec 6 := 21; decide (at_ (encLo e) = true))) | none => false)
noncomputable def clause5 : Bool := (match (ss : List (String × (State)))[24]? with | some (_, s) => (let at_ : Nat → Bool := fun w => decide (s.trd.running = true ∧ s.trd.ppsWait = none ∧ s.trd.pc < rd TRD_BANK_CFG_LENGTH (bankOf s) s ∧ draftAt (bankOf s) s.trd.pc s = w ∧ s.trd.insns < 255); (let ln : BitVec 7 := 43; (let st : BitVec 12 := 0xABC; decide (at_ (encStripe ln st) = true)))) | none => false)
noncomputable def clause6 : Bool := (match (s2 : List (String × (State)))[0]? with | some (_, s) => (let at_ : Nat → Bool := fun w => decide (s.trd.running = true ∧ s.trd.ppsWait = none ∧ s.trd.pc < rd TRD_BANK_CFG_LENGTH (bankOf s) s ∧ draftAt (bankOf s) s.trd.pc s = w ∧ s.trd.insns < 255); decide (at_ encPick = true) && decide (s.trd.set = none) && decide (s.trd.loNamed = none) && decide (s.trd.firstPick = false)) | none => false)
noncomputable def clause7 : Bool := (match (s2 : List (String × (State)))[2]? with | some (_, s) => (let at_ : Nat → Bool := fun w => decide (s.trd.running = true ∧ s.trd.ppsWait = none ∧ s.trd.pc < rd TRD_BANK_CFG_LENGTH (bankOf s) s ∧ draftAt (bankOf s) s.trd.pc s = w ∧ s.trd.insns < 255); (match s.trd.set with | some c => decide (at_ encPick = true) && decide (c.prepared = false) && decide (s.trd.loNamed = none) && decide (s.trd.firstPick = false) | _ => false)) | none => false)
noncomputable def clause8 : Bool := (match (s2 : List (String × (State)))[8]? with | some (_, s) => (let at_ : Nat → Bool := fun w => decide (s.trd.running = true ∧ s.trd.ppsWait = none ∧ s.trd.pc < rd TRD_BANK_CFG_LENGTH (bankOf s) s ∧ draftAt (bankOf s) s.trd.pc s = w ∧ s.trd.insns < 255); (let q : BitVec 2 := 1; (let pri : BitVec 4 := 8; (let code : BitVec 16 := 0x55; (let n : Nat := 60 + q.toNat; decide (at_ (encNote q pri code) = true) && decide (rdB WRP_INJ_ADDR_ARM 0 s = false) && decide (1 ≤ qRoom n s)))))) | none => false)
noncomputable def clause9 : Bool := (match (s2 : List (String × (State)))[14]? with | some (_, s) => (let at_ : Nat → Bool := fun w => decide (s.trd.running = true ∧ s.trd.ppsWait = none ∧ s.trd.pc < rd TRD_BANK_CFG_LENGTH (bankOf s) s ∧ draftAt (bankOf s) s.trd.pc s = w ∧ s.trd.insns < 255); (let q : BitVec 2 := 1; (let pri : BitVec 4 := 8; (let code : BitVec 16 := 0x55; (let n : Nat := 60 + q.toNat; decide (at_ (encNote q pri code) = true) && decide (qRoom n s = 0) && decide (s.trd.noteDropped = false)))))) | none => false)
noncomputable def clause10 : Bool := (match (s2 : List (String × (State)))[16]? with | some (_, s) => (let at_ : Nat → Bool := fun w => decide (s.trd.running = true ∧ s.trd.ppsWait = none ∧ s.trd.pc < rd TRD_BANK_CFG_LENGTH (bankOf s) s ∧ draftAt (bankOf s) s.trd.pc s = w ∧ s.trd.insns < 255); (let ofs : BitVec 29 := 500; decide (at_ (encPpsa ofs) = true) && decide (rdB SYS_DISC_CTL_PPS_EN 0 s = false))) | none => false)
noncomputable def clause11 : Bool := (match (s2 : List (String × (State)))[17]? with | some (_, s) => (let at_ : Nat → Bool := fun w => decide (s.trd.running = true ∧ s.trd.ppsWait = none ∧ s.trd.pc < rd TRD_BANK_CFG_LENGTH (bankOf s) s ∧ draftAt (bankOf s) s.trd.pc s = w ∧ s.trd.insns < 255); (let ofs : BitVec 29 := 500; decide (at_ (encPpsa ofs) = true) && decide (rdB SYS_DISC_CTL_PPS_EN 0 s = true) && decide (rdB SYS_DISC_STAT_HOLDOVER 0 s = false))) | none => false)
noncomputable def clause12 : Bool := (match (s2 : List (String × (State)))[7]? with | some (_, s) => (match s.trd.ppsWait with | some (_, _) => true | _ => false) | none => false)
noncomputable def clause13 : Bool := (match (s2 : List (String × (State)))[26]? with | some (_, s) => (let at_ : Nat → Bool := fun w => decide (s.trd.running = true ∧ s.trd.ppsWait = none ∧ s.trd.pc < rd TRD_BANK_CFG_LENGTH (bankOf s) s ∧ draftAt (bankOf s) s.trd.pc s = w ∧ s.trd.insns < 255); decide (at_ encBeat = true) && decide (s.trd.beatTaken = false) && (match s.trd.set with | some _ => true | _ => false)) | none => false)
noncomputable def clause14 : Bool := (match (s2 : List (String × (State)))[24]? with | some (_, s) => (let at_ : Nat → Bool := fun w => decide (s.trd.running = true ∧ s.trd.ppsWait = none ∧ s.trd.pc < rd TRD_BANK_CFG_LENGTH (bankOf s) s ∧ draftAt (bankOf s) s.trd.pc s = w ∧ s.trd.insns < 255); decide (at_ encBeat = true) && decide (s.trd.beatTaken = false) && decide (s.trd.set = none) && decide ((∀ p : Nat, p < 16 → lineStg p s = lineOf p s))) | none => false)
noncomputable def clause15 : Bool := (match (s2 : List (String × (State)))[27]? with | some (_, s) => (let at_ : Nat → Bool := fun w => decide (s.trd.running = true ∧ s.trd.ppsWait = none ∧ s.trd.pc < rd TRD_BANK_CFG_LENGTH (bankOf s) s ∧ draftAt (bankOf s) s.trd.pc s = w ∧ s.trd.insns < 255); decide (at_ encBeat = true) && decide (s.trd.beatTaken = true)) | none => false)
noncomputable def clause16 : Bool := (match (s2 : List (String × (State)))[32]? with | some (_, s) => (let at_ : Nat → Bool := fun w => decide (s.trd.running = true ∧ s.trd.ppsWait = none ∧ s.trd.pc < rd TRD_BANK_CFG_LENGTH (bankOf s) s ∧ draftAt (bankOf s) s.trd.pc s = w ∧ s.trd.insns < 255); decide (at_ encSwap = true) && decide (setPrepared s = false)) | none => false)
noncomputable def clause17 : Bool := (match (s2 : List (String × (State)))[36]? with | some (_, s) => (let at_ : Nat → Bool := fun w => decide (s.trd.running = true ∧ s.trd.ppsWait = none ∧ s.trd.pc < rd TRD_BANK_CFG_LENGTH (bankOf s) s ∧ draftAt (bankOf s) s.trd.pc s = w ∧ s.trd.insns < 255); decide (at_ encSwap = true) && decide (setPrepared s = true)) | none => false)
theorem witness_DraftInstructions_1 : [clause1, clause2, clause3, clause4, clause5, clause6, clause7, clause8].all id = true := by decide +kernel
theorem witness_DraftInstructions_2 : [clause9, clause10, clause11, clause12, clause13, clause14, clause15, clause16].all id = true := by decide +kernel
theorem witness_DraftInstructions_3 : clause17 = true := by decide +kernel
end WDraftInstructions

namespace WDraftStoreAndScan
def bk (b a : Nat) (s : State) : State := wr TRD_DRAFT_ADDR_BANK 0 b (wr TRD_DRAFT_ADDR_ADDR 0 a (wr TRD_BANK_CFG_VALID 0 1 (wr TRD_BANK_CFG_VALID 1 1 { s with trd := { s.trd with draft := [(7, 0x040000000000), (4096 + 7, 5)], scans := [{ bank := 1, started := 3 }] } })))
def W4 (s : State) : State := wr SYS_STATE_STATE 0 4 { s with trd := { s.trd with weaving := true } }
def good (s : State) : State := wr TRD_BANK_CFG_STEP 1 (rd SYS_ID_STEP_MAJOR 0 r0) <| wr TRD_BANK_CFG_LENGTH 1 1 (wr TRD_BANK_CFG_CHECKING 1 1 { s with trd := { s.trd with draft := [(4096, 0x040000000000)] } })
def ss : List (String × State) := named "ss" [bk 0 7 r0, bk 1 4095 r0, W4 (bk 0 7 r0), W4 (bk 1 7 r0), good (bk 1 7 r0), wr TRD_BANK_CFG_CHECKING 1 1 (bk 1 7 r0), wr TRD_BANK_CFG_LENGTH 1 3 (wr TRD_BANK_CFG_CHECKING 1 1 (good (bk 1 7 r0))), wr TRD_BANK_CFG_LENGTH 1 8 (wr TRD_BANK_CFG_CHECKING 1 1 ((bk 1 7 r0)))]
noncomputable def clause1 : Bool := (match (ss : List (String × (State)))[0]? with | some (_, s) => (let bank : Nat := rd TRD_DRAFT_ADDR_BANK 0 s; decide (bank < 2) && decide (s.sys.inReset = false)) | none => false)
noncomputable def clause2 : Bool := (match (ss : List (String × (State)))[0]? with | some (_, s) => (let bank : Nat := rd TRD_DRAFT_ADDR_BANK 0 s; decide (bank < 2) && decide (s.sys.inReset = false) && decide (weaving s = false) && decide (swapPrepared s = false) && decide (rdB TRD_BANK_CFG_CHECKING bank s = false)) | none => false)
noncomputable def clause3 : Bool := (match (ss : List (String × (State)))[2]? with | some (_, s) => (let bank : Nat := rd TRD_DRAFT_ADDR_BANK 0 s; decide (bank < 2) && decide (s.sys.inReset = false) && decide (weaving s = true) && decide (bank = bankOf s)) | none => false)
noncomputable def clause4 : Bool := (match (ss : List (String × (State)))[0]? with | some (_, s) => (let v : Qword := 0xFFFFFFFFFFFFFFFD; (let b : Fin 2 := 1; (let bank : Nat := rd TRD_DRAFT_ADDR_BANK 0 s; decide (bank < 2) && decide (s.sys.inReset = false) && decide (swapPrepared s = false) && decide (rdB TRD_BANK_CFG_CHECKING b s = false) && decide (v.getLsbD 1 = false) && decide ((rd TRD_BANK_CFG_ENTRY b s ≠ TRD_BANK_CFG_ENTRY.ofQ v ∨ rd TRD_BANK_CFG_LENGTH b s ≠ TRD_BANK_CFG_LENGTH.ofQ v ∨ rd TRD_BANK_CFG_STEP b s ≠ TRD_BANK_CFG_STEP.ofQ v))))) | none => false)
noncomputable def clause5 : Bool := (match (ss : List (String × (State)))[0]? with | some (_, s) => (let b : Fin 2 := 1; (let bank : Nat := rd TRD_DRAFT_ADDR_BANK 0 s; decide (bank < 2) && decide (s.sys.inReset = false) && decide (swapPrepared s = false) && decide (rdB TRD_BANK_CFG_CHECKING b s = false))) | none => false)
noncomputable def clause6 : Bool := (match (ss : List (String × (State)))[4]? with | some (_, s) => (let b : Fin 2 := 1; (let bank : Nat := rd TRD_DRAFT_ADDR_BANK 0 s; decide (bank < 2) && decide (rdB TRD_BANK_CFG_CHECKING b s = true) && decide (scanResult b s = none))) | none => false)
noncomputable def clause7 : Bool := (match (ss : List (String × (State)))[5]? with | some (_, s) => (let b : Fin 2 := 1; (let bank : Nat := rd TRD_DRAFT_ADDR_BANK 0 s; decide (bank < 2) && (match scanResult b s with | some (code, at_) => decide (code < 16) && decide (at_ < 4096) && decide (rdB TRD_BANK_CFG_CHECKING b s = true) | _ => false))) | none => false)
theorem witness_DraftStoreAndScan : [clause1, clause2, clause3, clause4, clause5, clause6, clause7].all id = true := by decide +kernel
end WDraftStoreAndScan

namespace WPicksAndRequests
def T0 : Treadle := { r0.trd with weaving := true, running := true, pc := 5, insns := 7, cost := 40, progStart := 1000, loops := [(3, 2), (1, 5)], flags := 0x21, pickN := 77 }
def dr (w : Nat) (t : Treadle) : State := wr TRD_BANK_CFG_LENGTH 0 20 (wr TRD_BANK_CFG_ENTRY 0 2 (wr SYS_STATE_STATE 0 4 { r0 with trd := { t with draft := [(t.pc, w)] } }))

def rdy (s : State) : State := wr TRD_BANK_CFG_VALID 0 1 (wr TRD_BANK_CFG_VALID 1 1 s)
def cs : ChangeSet := { beatPick := 7 }
def ss : List (String × State) := named "ss" [r0, rdy r0, dr 0 T0, rdy (dr 0 T0), dr 0 { T0 with set := some { cs with prepared := true }, swapStaged := true }, dr 0 { T0 with set := some { cs with tries := 5 }, swapStaged := true }, wr SYS_PICK_NUM_NUM 0 99 (wr TRD_PORT_LINE_STG 3 5 (dr 0 { T0 with set := some { cs with tries := 2 } })), wr TRD_PORT_LINE_STG 3 5 (dr 0 { T0 with swapStaged := true }), wr TRD_CTL_BANK 0 1 (rdy r0)]
def pe (t : Treadle) : State := dr 0 { t with running := false, progEnd := some 2000, draft := [] }
def cbk : CodeBank := { chipsM1 := 9, chipLen := 4, shift := 0, words := [(1,5), (8192, 3)] }
def pr (s : State) : State := enforce (shedFld 19) 9 (wr (shedFld 19) 9 30000 (wr TRD_PORT_LINE 2 3 (wr TRD_PORT_KIND 2 1 (wr TRD_PORT_KIND 5 1 (wr TRD_PORT_SLOT 2 4 (wr SRC_LAUNCH_OFFSET 2 4321 (wr SRC_LAUNCH_EXTEND 2 7 (wr SRC_STAT_SRCEN 0 1 (wr SRC_CTL_PERMIT 0 1 (wr PRT_STAT_STATE 2 1 (wr PRT_STAT_STATE 5 1 { s with reed := { s.reed with slots := [(4, { gen := 1, inForce := some cbk })] } })))))))))))
def pkC (n t c : Nat) : PickCtx := { n := n, tick := t, ports := [], engines := [], hands := [], complete := if c = 0 then none else some c }
def lastP (t : State) : PickCtx := t.trd.picks.getLast?.getD (pkC 0 0 0)
def setT (c : ChangeSet) (s : State) : State := onTrd (fun t => { t with set := some c }) s
def s2 : List (String × State) := named "s2" [pe T0, pe { T0 with firstPick := true }, pe { T0 with lastTick := some 3000, carried := [(3,5,6)], places := [(1,2,3)] }, pr (pe { T0 with lastTick := some 300, lastSheds := [(2, 600), (3, 900)] }), pr (pe T0), pr (pe { T0 with lastTick := some 100000000000 }), pr (pe { T0 with lastTick := some 100000000000, places := [(1,2,3)], firstPick := false }),
 pr (pe { T0 with lastTick := some 300, picks := [pkC 70 500 0, pkC 71 600 0] }), pr (pe { T0 with anchorG := 3000000000, anchorB := 77, picks := [pkC 70 500 900001, pkC 71 600 0] }), pr (pe { T0 with anchorG := 30, anchorB := 77, doneBase := 6000, picks := [pkC 70 500 90001, pkC 71 600 0] }), pr (pe { T0 with anchorG := 30, anchorB := 77, picks := [pkC 70 500 3000000000, pkC 71 600 0], set := some { cs with tries := 3 } }),
 wr TRD_PORT_KIND 2 2 (pr (pe T0)), wr SRC_STAT_SRCEN 0 0 (pr (pe T0)), (let s := pr (pe T0); { s with src := { s.src with blankUntil := [(2, 10000000000000)] } }), (let s := pr (pe T0); { s with src := { s.src with blankArm := [(2, true)] } }),
 setT { cs with triedFailed := true, tries := 4 } (pr (pe T0)), setT { cs with triedFailed := true, tries := 15 } (pr (pe T0)), setT { cs with triedFailed := true, tries := 16 } (pr (pe T0)), setT { cs with triedFailed := true, tries := 40 } (pr (pe T0)),
 setT { cs with prepared := true, tries := 4 } (pr (pe T0)), wr SYS_PICK_PERIOD_PERIOD 0 777777 (setT { cs with prepared := true, affected := 255 } (wr TRD_PORT_LINE_STG 3 5 (pr (pe { T0 with swapStaged := true })))), setT { cs with prepared := true, tries := 31, affected := 0x61 } (wr TRD_PORT_LINE_STG 3 5 (wr TRD_PORT_LINE_STG 2 3 (pr (pe { T0 with swapStaged := true })))), setT { cs with prepared := true, affected := 0x82 } (let s := pr (pe T0); { s with spc := { s.spc with loStg := [(3, 5)] }, ports := { s.ports with gzStg := [(4, 6)] } })]
def pkL (n : Nat) : PickCtx := { n := n, tick := 500, ports := [], engines := [], hands := [], handlers := true }
def s3 : List (String × State) := named "s3" [pe { T0 with picks := [pkL 76] }, { pe { T0 with picks := [{ pkL 76 with deadline := some 900 }] } with now := 1000 }, { pe { T0 with picks := [{ pkL 75 with complete := some 3 }, { pkL 76 with deadline := some 1900 }] } with now := 1000 }]
noncomputable def clause1 : Bool := (match (ss : List (String × (State)))[2]? with | some (_, s) => decide (bankOf s < 2) && decide (s.sys.inReset = false) && decide (weaving s = true) && decide (s.trd.weaving = true) | none => false)
noncomputable def clause2 : Bool := (match (ss : List (String × (State)))[2]? with | some (_, s) => decide (bankOf s < 2) && decide (s.sys.inReset = false) && decide (weaving s = true) && decide (setPrepared s = false) | none => false)
noncomputable def clause3 : Bool := (match (ss : List (String × (State)))[1]? with | some (_, s) => decide (bankOf s < 2) && decide (s.sys.inReset = false) && decide (weaving s = false) && decide (draftReady s = true) | none => false)
noncomputable def clause4 : Bool := (match (ss : List (String × (State)))[0]? with | some (_, s) => decide (bankOf s < 2) && decide (s.sys.inReset = false) && decide (weaving s = false) && decide (draftReady s = false) | none => false)
noncomputable def clause5 : Bool := (match (ss : List (String × (State)))[0]? with | some (_, s) => decide (bankOf s < 2) && decide (s.sys.inReset = false) | none => false)
noncomputable def clause6 : Bool := (match (ss : List (String × (State)))[2]? with | some (_, s) => decide (bankOf s < 2) && decide (s.sys.inReset = false) && decide (weaving s = true) && decide (s.trd.set = none) | none => false)
noncomputable def clause7 : Bool := (match (ss : List (String × (State)))[5]? with | some (_, s) => decide (bankOf s < 2) && decide (s.sys.inReset = false) && (match s.trd.set with | some c => decide (weaving s = true) && decide (c.prepared = false) | _ => false) | none => false)
noncomputable def clause8 : Bool := (match (ss : List (String × (State)))[4]? with | some (_, s) => decide (bankOf s < 2) && decide (s.sys.inReset = false) && (match s.trd.set with | some c => decide (weaving s = true) && decide (c.prepared = true) | _ => false) | none => false)
noncomputable def clause9 : Bool := (match (s2 : List (String × (State)))[7]? with | some (_, s) => (let smax : Nat := (lastSmax s); (match (((pickPlan s).toList.map (fun x => ("ref", x.ref))) : List (String × (Nat)))[0]? with | some (_, ref) => (match s.trd.progEnd with | some _ => (let nominal : Nat := s.trd.anchorG + (s.trd.pickN + 2 ^ 48 - s.trd.anchorB) % 2 ^ 48 * periodOf s; (let floor : Nat := smax + selvOf s; decide (weaving s = true) && decide (s.trd.weaving = true) && decide (s.trd.running = false) && decide (s.trd.ppsWait = none) && decide ((∀ x ∈ s.trd.lastSheds, isBlanked x.1 s = false → x.2 ≤ smax)) && decide ((smax = 0 ∨ ∃ x ∈ s.trd.lastSheds, isBlanked x.1 s = false ∧ x.2 = smax)) && decide ((s.trd.lastTick = none → ref = nominal)) && decide ((∀ l : Nat, s.trd.lastTick = some l → ref = maxN nominal (l + floor))) && decide ((∃ x ∈ s.trd.picks.dropLast, x.complete = none)))) | _ => false) | none => false)) | none => false)
noncomputable def clause10 : Bool := (match (s2 : List (String × (State)))[0]? with | some (_, s) => (let smax : Nat := (lastSmax s); (match (((pickPlan s).toList.map (fun x => ("ref", x.ref))) : List (String × (Nat)))[0]? with | some (_, ref) => (match s.trd.progEnd with | some _ => (let nominal : Nat := s.trd.anchorG + (s.trd.pickN + 2 ^ 48 - s.trd.anchorB) % 2 ^ 48 * periodOf s; (let floor : Nat := smax + selvOf s; decide (weaving s = true) && decide (s.trd.weaving = true) && decide (s.trd.running = false) && decide (s.trd.ppsWait = none) && decide ((∀ x ∈ s.trd.lastSheds, isBlanked x.1 s = false → x.2 ≤ smax)) && decide ((smax = 0 ∨ ∃ x ∈ s.trd.lastSheds, isBlanked x.1 s = false ∧ x.2 = smax)) && decide ((s.trd.lastTick = none → ref = nominal)) && decide ((∀ l : Nat, s.trd.lastTick = some l → ref = maxN nominal (l + floor))) && decide ((∀ x ∈ s.trd.picks.dropLast, x.complete ≠ none)))) | _ => false) | none => false)) | none => false)
noncomputable def clause11 : Bool := (match (s2 : List (String × (State)))[0]? with | some (_, s) => (let smax : Nat := (lastSmax s); (match (((pickPlan s).toList.map (fun x => ("ref", x.ref))) : List (String × (Nat)))[0]? with | some (_, ref) => (match s.trd.progEnd with | some _ => (let nominal : Nat := s.trd.anchorG + (s.trd.pickN + 2 ^ 48 - s.trd.anchorB) % 2 ^ 48 * periodOf s; (let floor : Nat := smax + selvOf s; (let limit : Nat := nominal + stretchOf s; decide (weaving s = true) && decide (s.trd.weaving = true) && decide (s.trd.running = false) && decide (s.trd.ppsWait = none) && decide ((∀ x ∈ s.trd.lastSheds, isBlanked x.1 s = false → x.2 ≤ smax)) && decide ((smax = 0 ∨ ∃ x ∈ s.trd.lastSheds, isBlanked x.1 s = false ∧ x.2 = smax)) && decide ((s.trd.lastTick = none → ref = nominal)) && decide ((∀ l : Nat, s.trd.lastTick = some l → ref = maxN nominal (l + floor))) && (let r : Nat := ((pickPlan s).bind (·.ready)).getD 0; (let c : Nat := maxN ref r; decide ((∀ x ∈ s.trd.picks.dropLast, x.complete ≠ none)) && decide (c ≤ limit)))))) | _ => false) | none => false)) | none => false)
noncomputable def clause13 : Bool := (match (s2 : List (String × (State)))[5]? with | some (_, s) => (let smax : Nat := (lastSmax s); (match (((pickPlan s).toList.map (fun x => ("ref", x.ref))) : List (String × (Nat)))[0]? with | some (_, ref) => (match s.trd.progEnd with | some _ => (let nominal : Nat := s.trd.anchorG + (s.trd.pickN + 2 ^ 48 - s.trd.anchorB) % 2 ^ 48 * periodOf s; (let floor : Nat := smax + selvOf s; (let limit : Nat := nominal + stretchOf s; decide (weaving s = true) && decide (s.trd.weaving = true) && decide (s.trd.running = false) && decide (s.trd.ppsWait = none) && decide ((∀ x ∈ s.trd.lastSheds, isBlanked x.1 s = false → x.2 ≤ smax)) && decide ((smax = 0 ∨ ∃ x ∈ s.trd.lastSheds, isBlanked x.1 s = false ∧ x.2 = smax)) && decide ((s.trd.lastTick = none → ref = nominal)) && decide ((∀ l : Nat, s.trd.lastTick = some l → ref = maxN nominal (l + floor))) && (let r : Nat := ((pickPlan s).bind (·.ready)).getD 0; (let c : Nat := maxN ref r; decide ((∀ x ∈ s.trd.picks.dropLast, x.complete ≠ none)) && decide (limit < c)))))) | _ => false) | none => false)) | none => false)
noncomputable def clause14 : Bool := (match (s2 : List (String × (State)))[5]? with | some (_, s) => (let smax : Nat := (lastSmax s); (match (((pickPlan s).toList.map (fun x => ("ref", x.ref))) : List (String × (Nat)))[0]? with | some (_, ref) => (match s.trd.progEnd with | some _ => (let nominal : Nat := s.trd.anchorG + (s.trd.pickN + 2 ^ 48 - s.trd.anchorB) % 2 ^ 48 * periodOf s; (let floor : Nat := smax + selvOf s; (let limit : Nat := nominal + stretchOf s; decide (weaving s = true) && decide (s.trd.weaving = true) && decide (s.trd.running = false) && decide (s.trd.ppsWait = none) && decide ((∀ x ∈ s.trd.lastSheds, isBlanked x.1 s = false → x.2 ≤ smax)) && decide ((smax = 0 ∨ ∃ x ∈ s.trd.lastSheds, isBlanked x.1 s = false ∧ x.2 = smax)) && decide ((s.trd.lastTick = none → ref = nominal)) && decide ((∀ l : Nat, s.trd.lastTick = some l → ref = maxN nominal (l + floor))) && (let r : Nat := ((pickPlan s).bind (·.ready)).getD 0; (let c : Nat := maxN ref r; decide ((∀ x ∈ s.trd.picks.dropLast, x.complete ≠ none)) && decide (limit < c) && decide ((∀ w : Nat, w < 4 → rdB DRM_RPL_EN w s = false))))))) | _ => false) | none => false)) | none => false)
noncomputable def clause15 : Bool := (match (s3 : List (String × (State)))[1]? with | some (_, s) => (match s.trd.picks.find? (fun x => pickAllDone x s) with | some x => (let n : Nat := maxN s.now (pickWorkEnd x s); (match x.deadline with | some d => decide (d < n) | _ => false)) | _ => false) | none => false)
noncomputable def clause16 : Bool := (match (s3 : List (String × (State)))[0]? with | some (_, s) => (match s.trd.picks.find? (fun x => pickAllDone x s) with | some x => (let n : Nat := maxN s.now (pickWorkEnd x s); decide ((∀ d : Nat, x.deadline = some d → n ≤ d))) | _ => false) | none => false)
theorem witness_PicksAndRequests_1 : [clause1, clause2, clause3, clause4, clause5, clause6, clause7, clause8].all id = true := by decide +kernel
theorem witness_PicksAndRequests_2 : [clause9, clause10, clause11, clause13, clause14, clause15, clause16].all id = true := by decide +kernel
end WPicksAndRequests

namespace WConverterSwaps
def allServ (s : State) : State := (List.range 64).foldl (fun s j => wr CNV_STAT_STATE j 1 s) s
def b1 : State := wr CNV_GRP_STAT_SPARE 1 65 (wr CNV_STAT_STATE 65 3 (allServ r0))
def p6 (s : State) : State := wr PRT_STAT_STATE 4 1 (wr PRT_STAT_STATE 6 1 s)
def swp (k : Nat) (s : State) : State := wr CNV_GRP_STAT_BUSY 1 1 (wr CNV_STAT_STATE 65 4 { s with ports := { s.ports with swaps := s.ports.swaps.put none 1 (some { slot := k, spare := 65, at_ := 300, byCmd := false }) } })
def ss : List (String × State) := named "ss" [b1, wr CNV_GRP_STAT_SPARE 1 0xFF b1, swp 3 b1, wr PRT_STAT_STATE 4 4 (swp 3 b1), (let z := wr CNV_STAT_STATE 19 5 (wr CNV_GRP_CTL_AUTO_SPARE 1 1 (p6 b1)); { z with ports := { z.ports with swapWait := [19] } }), swp 3 (wr CNV_STAT_STATE 19 5 b1), p6 b1, wr CNV_STAT_STATE 19 5 (wr CNV_GRP_CTL_AUTO_SPARE 1 1 (p6 b1)), wr CNV_STAT_STATE 19 5 (swp 3 b1)]
noncomputable def clause1 : Bool := (let g : Fin 4 := 1; (let v : Qword := 0; (match (ss : List (String × (State)))[0]? with | some (_, s) => (let sp : Nat := rd CNV_GRP_STAT_SPARE g s; (let k : Nat := CNV_GRP_CTL_SLOT.ofQ v; decide (sp < 68) && decide (cnvSt sp s = cREADY) && decide (swapOf g s = none) && decide (portSt (4 * g + k / 4) s ≠ pGATED) && decide (s.sys.inReset = false))) | none => false)))
noncomputable def clause2 : Bool := (let g : Fin 4 := 1; (match (ss : List (String × (State)))[1]? with | some (_, s) => (let sp : Nat := rd CNV_GRP_STAT_SPARE g s; decide (sp = 0xFF) && decide (s.sys.inReset = false)) | none => false))
noncomputable def clause3 : Bool := (let g : Fin 4 := 1; (match (ss : List (String × (State)))[2]? with | some (_, s) => (match swapOf g s with | some x => (let p : Nat := 4 * g + x.slot / 4; (let i : Nat := x.slot % 4; (let old : Nat := convOf p i s; decide (x.slot < 16) && decide (x.spare < 68) && decide (old < 68) && decide (old ≠ x.spare) && decide (portSt p s ≠ pGATED)))) | _ => false) | none => false))
noncomputable def clause4 : Bool := (let g : Fin 4 := 1; (match (ss : List (String × (State)))[3]? with | some (_, s) => (match swapOf g s with | some x => (let p : Nat := 4 * g + x.slot / 4; (let i : Nat := x.slot % 4; (let old : Nat := convOf p i s; decide (x.slot < 16) && decide (x.spare < 68) && decide (old < 68) && decide (old ≠ x.spare) && decide (portSt p s = pGATED) && decide (cnvSt old s ≠ cFAILED)))) | _ => false) | none => false))
noncomputable def clause5 : Bool := (match (ss : List (String × (State)))[0]? with | some (_, s) => (let j : Fin 68 := 16; (match slotOfConv j s with | some _ => decide (cnvSt j s = cSERVING) | _ => false)) | none => false)
noncomputable def clause6 : Bool := (let g : Fin 4 := 1; (match (ss : List (String × (State)))[4]? with | some (_, s) => (let sp : Nat := rd CNV_GRP_STAT_SPARE g s; (match failedSlot g s with | some k => decide (rd CNV_GRP_CTL_AUTO_SPARE g s = 1) && decide (sp < 68) && decide (cnvSt sp s = cREADY) && decide (swapOf g s = none) && decide (portSt (4 * g + k / 4) s ≠ pGATED) | _ => false)) | none => false))
theorem witness_ConverterSwaps : [clause1, clause2, clause3, clause4, clause5, clause6].all id = true := by decide +kernel
end WConverterSwaps

namespace WPortsAndCorrections
def allServ (s : State) : State := (List.range 64).foldl (fun s j => wr CNV_STAT_STATE j 1 s) s
def b1 : State := (List.range 16).foldl (fun s p => wr PRT_STAT_STATE p 0 s) (allServ r0)
def okg (s : State) : State := enforce SYS_LINE_SHED_SHED_EVEN 24 (wr SYS_LINE_SHED_SHED_EVEN 24 5000 (wr GAU_SPAN_CELLS 6 10 (wr GAU_SHAPE_K 6 4 (wr GAU_SHAPE_W 6 8 (wr GAU_SHAPE_G 6 4 s)))))
def W4 (s : State) : State := wr SYS_STATE_STATE 0 4 s
def stL (n : Nat) (s : State) : State := wr PRT_STAT_STATE 6 n s
def ss : List (String × State) := named "ss" ([0,1,2,3,4].flatMap (fun n => [stL n b1, W4 (stL n b1), wr PRT_CTL_RUN 6 1 (stL n b1), wr PRT_STAT_START_PENDING 6 1 (wr PRT_CTL_RUN 6 1 (stL n b1)), wr PRT_CTL_FRUGAL_MEMBER 6 1 (stL n b1), wr SYS_PROFILE_PROFILE 0 3 (wr PRT_CTL_FRUGAL_MEMBER 6 1 (wr CNV_GRP_STAT_SPARE 1 65 (stL n b1)))]) ++ [okg b1, wr PRT_CTL_FRUGAL_MEMBER 6 1 (okg b1), wr PRT_STAT_STATE 6 2 (okg b1)])
def s2 : List (String × State) := named "s2" [b1, wr PRT_SKEW_SKEW_XQ 6 77 (wr CNV_CORR_OFFSET 25 5 b1)]
noncomputable def clause1 : Bool := (let p : Fin 16 := 6; (let v : Qword := 0; (match (ss : List (String × (State)))[30]? with | some (_, s) => decide (PRT_CTL_FRUGAL_MEMBER.ofQ v = rd PRT_CTL_FRUGAL_MEMBER p s) && decide (portSt p s = pSTOPPED) && decide (geomErr p s = 0) && decide (heddleLoad (some p) s ≤ 16 * periodOf s) && decide (startUnready p s = false) && decide (convCause p s = false) && decide (s.sys.inReset = false) | none => false)))
noncomputable def clause2 : Bool := (let p : Fin 16 := 6; (let v : Qword := 0; (match (ss : List (String × (State)))[0]? with | some (_, s) => decide (PRT_CTL_FRUGAL_MEMBER.ofQ v = rd PRT_CTL_FRUGAL_MEMBER p s) && decide (portSt p s = pSTOPPED) && decide (geomErr p s ≠ 0) && decide (s.sys.inReset = false) | none => false)))
noncomputable def clause3 : Bool := (let p : Fin 16 := 6; (let v : Qword := 0; (match (ss : List (String × (State)))[24]? with | some (_, s) => decide (PRT_CTL_FRUGAL_MEMBER.ofQ v = rd PRT_CTL_FRUGAL_MEMBER p s) && decide (portSt p s = pGATED) && decide (s.sys.inReset = false) | none => false)))
noncomputable def clause4 : Bool := (let p : Fin 16 := 6; (let v : Qword := 0; (match (ss : List (String × (State)))[12]? with | some (_, s) => decide (PRT_CTL_FRUGAL_MEMBER.ofQ v = rd PRT_CTL_FRUGAL_MEMBER p s) && decide (portSt p s = pCLOSING) && decide (s.sys.inReset = false) | none => false)))
noncomputable def clause5 : Bool := (let p : Fin 16 := 6; (let v : Qword := 0; (match (ss : List (String × (State)))[7]? with | some (_, s) => decide (PRT_CTL_FRUGAL_MEMBER.ofQ v = rd PRT_CTL_FRUGAL_MEMBER p s) && decide (portSt p s = pRUNNING) && decide (weaving s = true) && decide (s.sys.inReset = false) | none => false)))
noncomputable def clause6 : Bool := (let p : Fin 16 := 6; (let v : Qword := 0; (match (ss : List (String × (State)))[6]? with | some (_, s) => decide (PRT_CTL_FRUGAL_MEMBER.ofQ v = rd PRT_CTL_FRUGAL_MEMBER p s) && decide (portSt p s = pRUNNING) && decide (weaving s = false) && decide (rd PRT_STAT_START_PENDING p s = 0) && decide ((areaOf p s).state ≠ 1) && decide (s.sys.inReset = false) | none => false)))
noncomputable def clause7 : Bool := (let p : Fin 16 := 6; (let v : Qword := 0; (match (ss : List (String × (State)))[15]? with | some (_, s) => decide (PRT_CTL_FRUGAL_MEMBER.ofQ v = rd PRT_CTL_FRUGAL_MEMBER p s) && decide (portSt p s = pCLOSING) && decide (rd PRT_STAT_START_PENDING p s = 1) && decide (s.sys.inReset = false) | none => false)))
noncomputable def clause8 : Bool := (let p : Fin 16 := 6; (let v : Qword := 0; (match (ss : List (String × (State)))[12]? with | some (_, s) => decide (PRT_CTL_FRUGAL_MEMBER.ofQ v = rd PRT_CTL_FRUGAL_MEMBER p s) && decide (portSt p s = pCLOSING) && decide (portOwes p s = false) && decide ((areaOf p s).state ≠ 1) && decide (convCause p s = false) | none => false)))
noncomputable def clause9 : Bool := (let p : Fin 16 := 6; (let v : Qword := 0; (match (ss : List (String × (State)))[0]? with | some (_, s) => decide (PRT_CTL_FRUGAL_MEMBER.ofQ v = rd PRT_CTL_FRUGAL_MEMBER p s) && (let m : Bool := true; decide (b2n m ≠ rd PRT_CTL_FRUGAL_MEMBER p s) && decide (rd PRT_CTL_RUN p s = 0) && decide (portSt p s = pSTOPPED) && decide (frugal s = false) && decide ((m = true → frugalMembers s < 4)) && decide (s.sys.inReset = false)) | none => false)))
noncomputable def clause10 : Bool := (let p : Fin 16 := 6; (let v : Qword := 0; (match (ss : List (String × (State)))[8]? with | some (_, s) => decide (PRT_CTL_FRUGAL_MEMBER.ofQ v = rd PRT_CTL_FRUGAL_MEMBER p s) && (let m : Bool := true; decide (b2n m ≠ rd PRT_CTL_FRUGAL_MEMBER p s) && decide (rd PRT_CTL_RUN p s = 1) && decide (portSt p s = pRUNNING) && decide (s.sys.inReset = false)) | none => false)))
noncomputable def clause11 : Bool := (let p : Fin 16 := 6; (let v : Qword := 3; (match (ss : List (String × (State)))[5]? with | some (_, s) => decide (PRT_CTL_FRUGAL_MEMBER.ofQ v = rd PRT_CTL_FRUGAL_MEMBER p s) && decide (rd PRT_CTL_FRUGAL_MEMBER p s = 1) && decide (rd PRT_CTL_RUN p s = 0) && decide (portSt p s = pSTOPPED) && decide (frugal s = true) && decide ((∀ i : Nat, i < 4 → convOf p i s < 68 ∧ cnvSt (convOf p i s) s = cSERVING)) && decide ((rd CNV_GRP_STAT_SPARE (p.val / 4) s < 68 ∨ rd CNV_GRP_STAT_SPARE (p.val / 4) s = 0xFF)) && decide (s.sys.inReset = false) | none => false)))
noncomputable def clause12 : Bool := (let p : Fin 16 := 6; (match (s2 : List (String × (State)))[0]? with | some (_, s) => decide ((∀ i : Nat, i < 4 → convOf p i s < 68)) | none => false))
theorem witness_PortsAndCorrections_1 : [clause1, clause2, clause3, clause4, clause5, clause6, clause7, clause8].all id = true := by decide +kernel
theorem witness_PortsAndCorrections_2 : [clause9, clause10, clause11, clause12].all id = true := by decide +kernel
end WPortsAndCorrections

namespace WGainZoneAndLoadWindows
def W4 (s : State) : State := wr SYS_STATE_STATE 0 4 { s with trd := { s.trd with weaving := true } }
def prep (s : State) : State := { s with reed := { s.reed with prep := some { slot := 3, bank := { chipsM1 := 9, chipLen := 4, shift := 0, words := [] }, deferred := false, started := 5 } } }
def ss : List (String × State) := named "ss" ([0,5,8,9,15].flatMap (fun e => [wr PRT_GZ_ADDR_TABLE 6 2 (wr PRT_GZ_ADDR_ENTRY 6 e r0), wr PRT_STAT_STATE 6 1 (W4 (wr PRT_GZ_ADDR_TABLE 6 2 (wr PRT_GZ_ADDR_ENTRY 6 e r0)))]) ++ [0,5,8276,8277,8278,9000,16383].flatMap (fun a => [wr RED_LOAD_ADDR_ADDR 0 a r0, prep (wr RED_LOAD_ADDR_ADDR 0 a r0)]))
noncomputable def clause1 : Bool := (match (ss : List (String × (State)))[0]? with | some (_, s) => (let p : Fin 16 := 6; (let e : Nat := rd PRT_GZ_ADDR_ENTRY p s; decide (e < 16) && decide (e ≤ 8) && decide (s.sys.inReset = false))) | none => false)
noncomputable def clause2 : Bool := (match (ss : List (String × (State)))[0]? with | some (_, s) => (let p : Fin 16 := 6; (let e : Nat := rd PRT_GZ_ADDR_ENTRY p s; decide (e < 16) && decide (e ≤ 8) && decide (weaving s = false) && decide (s.sys.inReset = false))) | none => false)
noncomputable def clause3 : Bool := (match (ss : List (String × (State)))[1]? with | some (_, s) => (let p : Fin 16 := 6; (let e : Nat := rd PRT_GZ_ADDR_ENTRY p s; decide (e < 16) && decide (e ≤ 8) && decide (weaving s = true) && decide (portSt p s = pRUNNING) && decide (setPrepared s = false) && decide (s.sys.inReset = false))) | none => false)
noncomputable def clause4 : Bool := (match (ss : List (String × (State)))[6]? with | some (_, s) => (let p : Fin 16 := 6; (let e : Nat := rd PRT_GZ_ADDR_ENTRY p s; decide (e < 16) && decide (8 < e) && decide (s.sys.inReset = false))) | none => false)
noncomputable def clause5 : Bool := (match (ss : List (String × (State)))[0]? with | some (_, s) => (let a : Nat := rd RED_LOAD_ADDR_ADDR 0 s; decide (a < 2 ^ 14) && decide (s.sys.inReset = false)) | none => false)
noncomputable def clause6 : Bool := (match (ss : List (String × (State)))[0]? with | some (_, s) => (let a : Nat := rd RED_LOAD_ADDR_ADDR 0 s; decide (a < 2 ^ 14) && decide (a < 8278) && decide (s.reed.prep = none) && decide (replicaHolds s = false) && decide (s.sys.inReset = false)) | none => false)
noncomputable def clause7 : Bool := (match (ss : List (String × (State)))[11]? with | some (_, s) => (let a : Nat := rd RED_LOAD_ADDR_ADDR 0 s; decide (a < 2 ^ 14) && decide (s.reed.prep ≠ none) && decide (s.sys.inReset = false)) | none => false)
theorem witness_GainZoneAndLoadWindows : [clause1, clause2, clause3, clause4, clause5, clause6, clause7].all id = true := by decide +kernel
end WGainZoneAndLoadWindows

namespace WSlotsAndCellResults
def prep (d : Bool) (s : State) : State := { s with reed := { s.reed with prep := some { slot := 3, bank := { chipsM1 := 9, chipLen := 4, shift := 0, words := [(1,5)] }, deferred := d, started := 5 } } }
def ld (s : State) : State := wr RED_SLOT_CFG_CHIPS_M1 0 15 (wr RED_SLOT_CFG_CHIP_LEN 0 8 { s with reed := { s.reed with buf := [(0, 77), (4, 8), (8000, 4), (8192, 3)] } })
def old : State := { ld r0 with reed := { (ld r0).reed with slots := [(3, { gen := 1, inForce := some cb0 })] } }
def ss : List (String × State) := named "ss" [ld r0, wv [] (ld r0), wr RED_SLOT_CFG_CHIPS_M1 0 8191 (ld r0), wv [pk 7 [{ yy 6 with slot := 3, gen := 0 }]] old, prep true r0, prep false (wv [] r0), prep false (ld r0), prep true (wv [pk 7 [{ yy 6 with slot := 3, gen := 0 }]] old), prep false old]
def sp (s : State) : State := wr PRT_STAT_STATE 6 1 (wr GAU_SPAN_FIRST 6 3 (wr GAU_SPAN_CELLS 6 10 (wr GAU_SHAPE_K 6 4 (wr GAU_SHAPE_W 6 8 (wr GAU_SHAPE_G 6 4 s)))))
def h (f : HdlPort) (s : State) : State := { s with heddle := { s.heddle with ports := s.heddle.ports.put {} 6 f } }
def yg : PortPick := { yy 6 with corr := (List.range 4).map (fun i => [3 * i, 32768, 40000, 20000, 9000, 0, 0, 0, 0, 0]), iq := [2^22 - 100, 5000, 2^22, 77, 0, 0, 0, 0] }
def gp (y : PortPick) : State := sp (wv [pk 7 [{ y with port := 6 }]] r0)
def s2 : List (String × State) := named "s2" [sp (wv [pk 7 [yy 6]] r0), sp (wv [pk 7 [{ yy 6 with restart := false, gaugeNext := 5 }]] r0), sp (wv [pk 6 [yy 5], pk 7 [{ yy 6 with darkSet := true, darkFrom := some 2, gaugeNext := 4 }]] r0), sp (wv [pk 7 [{ yy 6 with darkSet := true, darkFrom := some 2, gaugeNext := 4, restart := false }]] r0), h { fifoLen := 16384 } (sp (wv [pk 7 [yy 6]] r0)), h { fifoLen := 16384, overrunPick := some 7 } (sp (wv [pk 7 [yy 6]] r0)), sp (wv [pk 7 [{ yy 6 with gaugeNext := 9 }]] r0), gp yg, gp { yg with gz := [0, 2^23 + 40 + 2^24*2, 2^23 + 52 + 2^24*1] }, gp { yg with gz := [2, 2^23 + 5], restart := false }, gp { yg with shed := 40, gaugeNext := 5 }, gp { yg with shed := 25, gaugeNext := 2 }, gp { yg with noise := 2500, darkSet := true, darkFrom := some 9 }, gp { yg with bank := { cb0 with words := [(0, 0x7FFFFF7FFFFF)] } }, gp { yg with badX := some 20, gaugeNext := 1 }]
noncomputable def clause1 : Bool := (match (ss : List (String × (State)))[0]? with | some (_, s) => decide (s.reed.prep = none) && decide (nCodeOf (bankFromBuffer s) ≤ 8192) && decide (reedFrozen s = false) && decide (s.sys.inReset = false) | none => false)
noncomputable def clause2 : Bool := (match (ss : List (String × (State)))[4]? with | some (_, s) => decide (s.reed.prep ≠ none ∨ 8192 < nCodeOf (bankFromBuffer s)) && decide (s.sys.inReset = false) | none => false)
noncomputable def clause3 : Bool := (match (ss : List (String × (State)))[4]? with | some (_, s) => (match s.reed.prep with | some x => decide (x.deferred = true) | _ => false) | none => false)
noncomputable def clause4 : Bool := (match (ss : List (String × (State)))[5]? with | some (_, s) => (match s.reed.prep with | some x => decide (x.deferred = false) && decide (weaving s = true) && decide (x.force = false) | _ => false) | none => false)
noncomputable def clause5 : Bool := (match (ss : List (String × (State)))[6]? with | some (_, s) => (match s.reed.prep with | some x => decide (x.deferred = false) && decide (weaving s = false ∨ x.force = true) | _ => false) | none => false)
noncomputable def clause6 : Bool := (let p : Fin 16 := 6; (match (s2 : List (String × (State)))[0]? with | some (_, s) => (match gaugeDue p s with | some (_, y) => decide (y.gaugeNext < rd GAU_SPAN_CELLS p s) | _ => false) | none => false))
noncomputable def clause9 : Bool := (let p : Fin 16 := 6; (match (s2 : List (String × (State)))[0]? with | some (_, s) => (match gaugeDue p s with | some (_, y) => decide (y.gaugeNext < rd GAU_SPAN_CELLS p s) && (let m : Nat := 0; decide ((∀ r ∈ zoneRuns y, m < r.1 ∨ r.2 < m))) | _ => false) | none => false))
noncomputable def clause10 : Bool := (let p : Fin 16 := 6; (match (s2 : List (String × (State)))[8]? with | some (_, s) => (match gaugeDue p s with | some (_, y) => decide (y.gaugeNext < rd GAU_SPAN_CELLS p s) && (let m : Nat := 40; (match (zoneRuns y)[0]? with | some r => decide (r.1 ≤ m) && decide (m ≤ r.2) | none => false)) | _ => false) | none => false))
noncomputable def clause11 : Bool := (let p : Fin 16 := 6; (match (s2 : List (String × (State)))[9]? with | some (_, s) => (match gaugeDue p s with | some (_, y) => decide (y.gaugeNext < rd GAU_SPAN_CELLS p s) && (let m : Nat := 0; (match (zoneRuns y)[0]? with | some r => decide (r.1 ≤ m) && decide (m ≤ r.2) && decide (r.1 = 0) | none => false)) | _ => false) | none => false))
noncomputable def clause13 : Bool := (let p : Fin 16 := 6; (match (s2 : List (String × (State)))[8]? with | some (_, s) => (match gaugeDue p s with | some (_, y) => decide (y.gaugeNext < rd GAU_SPAN_CELLS p s) && (let m : Nat := 40; (match (zoneRuns y)[0]? with | some r => decide (r.1 ≤ m) && decide (m ≤ r.2) && decide (r.1 ≠ 0) | none => false)) | _ => false) | none => false))
noncomputable def clause14 : Bool := (let p : Fin 16 := 6; (let first : Nat := 0; (match ([("c", (List.range 100).map (fun i => BitVec.ofNat 56 (lcg i))), ("n", ([] : List (BitVec 56))), ("a", List.replicate 100 (BitVec.ofNat 56 (0x1FFF + 0x1FFF * 2^14 + 0x1FFF * 2^28 + 0x2000 * 2^42)))] : List (String × (List (BitVec 56))))[2]? with | some (_, codes) => (match (s2 : List (String × (State)))[13]? with | some (_, s) => (match gaugeDue p s with | some (_, y) => decide (y.gaugeNext < rd GAU_SPAN_CELLS p s) && (let pol : Nat := 0; (let z : Nat := 0; (let e : Int × Int := corrSum (samplesOf y first codes pol z (nCodeOf y.bank)) (replicaOf y.bank) (0, 0); (let u : Int := divRound e.1 (2 ^ (23 + y.bank.shift)); decide (satS 24 u ≠ u))))) | _ => false) | none => false) | none => false)))
noncomputable def clause15 : Bool := (let p : Fin 16 := 6; (let first : Nat := 0; (match ([("c", (List.range 100).map (fun i => BitVec.ofNat 56 (lcg i))), ("n", ([] : List (BitVec 56))), ("a", List.replicate 100 (BitVec.ofNat 56 (0x1FFF + 0x1FFF * 2^14 + 0x1FFF * 2^28 + 0x2000 * 2^42)))] : List (String × (List (BitVec 56))))[0]? with | some (_, codes) => (match (s2 : List (String × (State)))[0]? with | some (_, s) => (match gaugeDue p s with | some (_, y) => decide (y.gaugeNext < rd GAU_SPAN_CELLS p s) && (let pol : Nat := 0; (let z : Nat := 0; (let e : Int × Int := corrSum (samplesOf y first codes pol z (nCodeOf y.bank)) (replicaOf y.bank) (0, 0); (let u : Int := divRound e.1 (2 ^ (23 + y.bank.shift)); decide (satS 24 u = u))))) | _ => false) | none => false) | none => false)))
noncomputable def clause18 : Bool := (let p : Fin 16 := 6; (let first : Nat := 0; (match ([("c", (List.range 100).map (fun i => BitVec.ofNat 56 (lcg i))), ("n", ([] : List (BitVec 56))), ("a", List.replicate 100 (BitVec.ofNat 56 (0x1FFF + 0x1FFF * 2^14 + 0x1FFF * 2^28 + 0x2000 * 2^42)))] : List (String × (List (BitVec 56))))[0]? with | some (_, codes) => (match (s2 : List (String × (State)))[13]? with | some (_, s) => (match gaugeDue p s with | some (_, y) => decide (y.gaugeNext < rd GAU_SPAN_CELLS p s) && (let pol : Nat := 1; (let z : Nat := 17; (let e : Int × Int := corrSum (samplesOf y first codes pol z (nCodeOf y.bank)) (replicaOf y.bank) (0, 0); (let v : Int := divRound e.2 (2 ^ (23 + y.bank.shift)); decide (satS 24 v ≠ v))))) | _ => false) | none => false) | none => false)))
noncomputable def clause19 : Bool := (let p : Fin 16 := 6; (let first : Nat := 0; (match ([("c", (List.range 100).map (fun i => BitVec.ofNat 56 (lcg i))), ("n", ([] : List (BitVec 56))), ("a", List.replicate 100 (BitVec.ofNat 56 (0x1FFF + 0x1FFF * 2^14 + 0x1FFF * 2^28 + 0x2000 * 2^42)))] : List (String × (List (BitVec 56))))[0]? with | some (_, codes) => (match (s2 : List (String × (State)))[0]? with | some (_, s) => (match gaugeDue p s with | some (_, y) => decide (y.gaugeNext < rd GAU_SPAN_CELLS p s) && (let pol : Nat := 0; (let z : Nat := 0; (let e : Int × Int := corrSum (samplesOf y first codes pol z (nCodeOf y.bank)) (replicaOf y.bank) (0, 0); (let v : Int := divRound e.2 (2 ^ (23 + y.bank.shift)); decide (satS 24 v = v))))) | _ => false) | none => false) | none => false)))
noncomputable def clause24 : Bool := (let p : Fin 16 := 6; (match (s2 : List (String × (State)))[0]? with | some (_, s) => (match gaugeDue p s with | some (_, y) => (let h : HdlPort := hdlOf p s; decide (y.gaugeNext < rd GAU_SPAN_CELLS p s) && decide (h.fifoLen < 16384)) | _ => false) | none => false))
noncomputable def clause25 : Bool := (let p : Fin 16 := 6; (match (s2 : List (String × (State)))[4]? with | some (_, s) => (match gaugeDue p s with | some (_, y) => (let h : HdlPort := hdlOf p s; decide (y.gaugeNext < rd GAU_SPAN_CELLS p s) && decide (h.fifoLen = 16384)) | _ => false) | none => false))
theorem witness_SlotsAndCellResults_1 : [clause1, clause2, clause3, clause4, clause5, clause6, clause9, clause10].all id = true := by decide +kernel
theorem witness_SlotsAndCellResults_2 : [clause11, clause13, clause14, clause15, clause18, clause19, clause24, clause25].all id = true := by decide +kernel
end WSlotsAndCellResults

namespace WBreakLocator
def sp (s : State) : State := wr PRT_STAT_STATE 6 1 (wr GAU_SPAN_FIRST 6 3 (wr GAU_SPAN_CELLS 6 1200 (wr GAU_SHAPE_K 6 4 (wr GAU_SHAPE_W 6 8 (wr GAU_SHAPE_G 6 4 s)))))
def E (brk loss : Bool) (cr : Nat) : LineEnv := { learned := true, learnt := 8, env := [(0, 100), (1, 90), (2, 80)], segs := 3, brk := brk, loss := loss, clearRun := cr }
def y1 (a b c : Nat) : PortPick := { yy 6 with gaugeNext := 1200, darkSet := true, segSum := [(0, a), (1, b), (2, c)].filter (fun x => x.2 ≠ 0), segCnt := [(0,1),(1,1),(2,1)], mags := [(5, 100), (600, 50)] }
def le (e : LineEnv) (s : State) : State := { s with gauge := { s.gauge with lines := s.gauge.lines.put {} 50 e } }
def ss : List (String × State) := named "ss" ([(1,1,1),(100,1,1),(100,90,80),(100,90,1)].flatMap (fun (a,b,c) => [E false false 0, E true false 0, E true false 2, E true false 1].map (fun e => le e (sp (wv [pk 7 [y1 a b c]] r0)))) ++ [wr GAU_LINE_ADDR_LINE 0 50 (le (E true false 0) r0), wr GAU_LINE_ADDR_LINE 0 50 (le (E true false 0) (wv [] r0)), wr GAU_LINE_ADDR_LINE 0 50 (le (E true false 0) (wv [pk 7 [{ y1 1 1 1 with darkSet := false }]] r0)), wr GAU_LINE_ADDR_LINE 0 50 (wr SYS_STATE_STATE 0 3 (le (E true false 0) (wv [pk 7 [{ y1 1 1 1 with darkSet := false }]] r0)))])
noncomputable def clause1 : Bool := (let p : Fin 16 := 6; (match (ss : List (String × (State)))[0]? with | some (_, s) => decide ((∀ z ∈ s.trd.picks, ∀ l ∈ z.hands, l.1 < 32)) && (match gaugeDue p s with | some (_, y) => (let j : Nat := lineIdx p y.line; (let e : LineEnv := lineEnv j s; (let dropped : List Nat := (litSegs e y.noise (y.brk.getD 1 0)).filter (fun m => segDropped y e (y.brk.getD 0 0) (y.brk.getD 1 0) m); (let up : List Nat := (litSegs e y.noise (y.brk.getD 1 0)).filter (fun m => !(segDropped y e (y.brk.getD 0 0) (y.brk.getD 1 0) m)); decide (rd GAU_SPAN_CELLS p s ≤ y.gaugeNext) && decide (y.darkSet = true) && decide (e.gen = y.lineGen) && decide (e.learned = true) && decide (e.brk = false) && decide (e.loss = false) && decide (dropped ≠ []) && decide (up = []))))) | _ => false) | none => false))
noncomputable def clause2 : Bool := (let p : Fin 16 := 6; (match (ss : List (String × (State)))[4]? with | some (_, s) => decide ((∀ z ∈ s.trd.picks, ∀ l ∈ z.hands, l.1 < 32)) && (match gaugeDue p s with | some (_, y) => (let j : Nat := lineIdx p y.line; (let e : LineEnv := lineEnv j s; (let dropped : List Nat := (litSegs e y.noise (y.brk.getD 1 0)).filter (fun m => segDropped y e (y.brk.getD 0 0) (y.brk.getD 1 0) m); (let up : List Nat := (litSegs e y.noise (y.brk.getD 1 0)).filter (fun m => !(segDropped y e (y.brk.getD 0 0) (y.brk.getD 1 0) m)); decide (rd GAU_SPAN_CELLS p s ≤ y.gaugeNext) && decide (y.darkSet = true) && decide (e.gen = y.lineGen) && decide (e.learned = true) && decide (e.brk = false) && decide (e.loss = false) && decide (dropped ≠ []) && decide (up ≠ []) && decide (up.getLastD 0 < dropped.headD 0))))) | _ => false) | none => false))
noncomputable def clause3 : Bool := (let p : Fin 16 := 6; (match (ss : List (String × (State)))[10]? with | some (_, s) => decide ((∀ z ∈ s.trd.picks, ∀ l ∈ z.hands, l.1 < 32)) && (match gaugeDue p s with | some (_, y) => (let j : Nat := lineIdx p y.line; (let e : LineEnv := lineEnv j s; (let dropped : List Nat := (litSegs e y.noise (y.brk.getD 1 0)).filter (fun m => segDropped y e (y.brk.getD 0 0) (y.brk.getD 1 0) m); decide (rd GAU_SPAN_CELLS p s ≤ y.gaugeNext) && decide (y.darkSet = true) && decide (e.gen = y.lineGen) && decide (e.learned = true) && decide (e.brk = true) && decide (dropped = []) && decide (maxN (y.brk.getD 2 0) 1 ≤ e.clearRun + 1)))) | _ => false) | none => false))
noncomputable def clause4 : Bool := (match (ss : List (String × (State)))[0]? with | some (_, s) => decide ((∀ z ∈ s.trd.picks, ∀ l ∈ z.hands, l.1 < 32)) && decide (weaving s = true) | none => false)
noncomputable def clause5 : Bool := (match (ss : List (String × (State)))[16]? with | some (_, s) => decide ((∀ z ∈ s.trd.picks, ∀ l ∈ z.hands, l.1 < 32)) && decide (weaving s = false) | none => false)
theorem witness_BreakLocator : [clause1, clause2, clause3, clause4, clause5].all id = true := by decide +kernel
end WBreakLocator

namespace WHeddleUpdates
def sp (s : State) : State := wr PRT_STAT_STATE 6 1 (wr GAU_SHAPE_BASE 6 800 (wr GAU_SPAN_FIRST 6 3 (wr GAU_SPAN_CELLS 6 10 (wr GAU_SHAPE_K 6 4 (wr GAU_SHAPE_W 6 8 (wr GAU_SHAPE_G 6 4 s))))))
def h (f : HdlPort) (s : State) : State := { s with heddle := { s.heddle with ports := s.heddle.ports.put {} 6 f } }
def cl (l : List Nat) (s : State) : State := l.foldl (fun s a => { s with warp := { s.warp with words := s.warp.words.put bareWord (warpPlace a s) (encodeWord (a * 77)) } }) s
def base : State := cl ((List.range 12).map (fun i => 3200 + i)) (sp (wv [pk 7 [yy 6]] r0))
def res (c w : Nat) : CellRes := { pick := 7, tick := 500, cell := c, word := w, lost := false }
def wt (items : List Nat) (nt : Option Nat) : HdlWait := { items := items, quadAt := 802, quad := [1,2,3,4], notice := nt, value := 0, pick := 7, tick := 500, cell := 2 }
def qfL (q n : Nat) (s : State) : State := { s with queues := s.queues.put {} q { items := List.replicate n { pri := 5, word := encodeWord 1 } } }
def qd (a i i1 i2 en lp ql sa se pk sq : Nat) : List Nat := Quad.words { acc := a, integ := sx 48 i, inc1 := i1, inc2 := i2, env := en, lastPhase := lp, quality := ql, sat := sa = 1, seam := se = 1, peak := pk, sumsq := sq }
def quad (c : Nat) (l : List Nat) (s : State) : State := (List.range 4).foldl (fun s i => { s with warp := { s.warp with words := s.warp.words.put bareWord (warpPlace (4 * (800 + c) + i) s) (encodeWord (l.getD i 0)) } }) s
def grid (st : Nat) (s : State) : State := { s with heddle := { s.heddle with grid := [{ k := 0, t := 100000, step := st, weave := 0 }] } }
def rw_ (ph mg q : Nat) (d sa se : Bool) : Nat := cellWord ph mg q false d sa se
def nb (st : Nat) (y : PortPick) (cell w : Nat) (l : List Nat) (f : HdlPort) : State := quad cell l (h { f with fifo := [res cell w, res (cell+1) 5], fifoLen := 2, prevEpoch := y.epoch } (grid st (sp (wv [pk 7 [y]] r0))))
def yn (fe thr rank qh cap : Nat) : PortPick := { yy 6 with hdlCfg := [thr, 4, rank, qh, cap, fe, 0, 0] }
def tp : HdlPort := { tPrev := some 240000 }
def Q1 : List Nat := qd 1000 0xFFFFFFFF0000 30 0xFFF0 500 100 40 0 1 20 99
def Q2 : List Nat := qd 1000 5000 30 0x8000 500 100 40 1 0 20 99
def Q3 : List Nat := qd 1000 5000 0x8000 0x8000 500 100 40 1 0 20 99
def sn : List State := [nb 20000 (yn 0 1 0 2 0) 3 (rw_ 300 900 30 false true false) Q1 tp, nb 20000 (yn 0 1 1 2 0) 3 (rw_ 300 100 30 false true false) Q1 tp, nb 20000 (yn 0 1 2 2 0) 3 (rw_ 300 900 30 false true false) Q1 tp, nb 20000 (yn 0 1 3 2 0) 3 (rw_ 32868 900 30 false true true) Q1 tp, nb 20000 (yn 0 1 1 40 0) 3 (rw_ 300 900 30 false true true) Q1 tp,
 nb 20000 (yn 1 10 3 2 0) 3 (rw_ 300 900 30 false true true) Q1 tp, nb 20000 (yn 1 10 3 2 0) 3 (rw_ 300 900 30 false true true) Q1 { tp with markHeld := some 3 }, nb 20000 { yn 1 10 3 2 2 with notices := 2 } 3 (rw_ 300 900 30 false true true) Q1 tp, nb 20000 (yn 1 10 3 2 0) 3 (rw_ 300 900 30 false false true) Q2 tp, nb 20000 (yn 1 10 3 2 0) 3 (rw_ 300 900 30 false false true) Q3 tp, nb 20000 { yn 1 10 3 2 0 with period := 5 } 3 (rw_ 300 900 30 false false true) Q1 tp, nb 20000 (yn 1 10 3 2 0) 3 4 Q1 tp, nb 20000 { yn 1 10 3 2 0 with forced := true } 3 (rw_ 300 900 30 false false true) Q1 tp, nb 20000 { yn 1 10 3 2 0 with r151 := true } 3 (rw_ 300 900 30 false false true) Q1 tp,
 nb 15000 (yn 1 10 3 2 0) 3 (rw_ 300 900 30 false false true) Q1 tp, nb 5000 (yn 1 10 3 2 0) 3 (rw_ 300 900 30 false false true) Q1 { tp with cntK := some 28, cnt := 3 }, nb 5000 { yn 1 10 3 2 0 with forced := true } 3 (rw_ 300 900 30 false false true) Q3 tp, nb 5000 (yn 0 1 1 2 0) 3 4 Q1 tp, nb 5000 { yn 0 1 1 2 0 with r151 := true } 3 (rw_ 300 900 30 false false true) Q1 tp, nb 5000 (yn 1 10 3 2 0) 0 (rw_ 300 900 30 false false true) Q1 { tp with cntK := some 28, cnt := 3 }, nb 1000 (yn 1 10 3 2 0) 0 (rw_ 300 900 30 false false true) Q1 tp, nb 1000 (yn 1 10 3 2 0) 3 (rw_ 300 900 30 false false true) Q1 tp,
 nb 20000 (yn 1 10 3 2 0) 9 (rw_ 100 900 30 false false true) Q1 tp, nb 20000 { yn 1 1000 3 2 0 with noticed := true } 9 (rw_ 300 900 30 false false true) Q1 tp, nb 20000 { yn 0 10 3 2 0 with noticed := true } 9 (rw_ 300 900 30 false false true) Q1 { tp with markHeld := some 3 }, wr WFQ_CFG_CAP 22 2 (qfL 22 1 (nb 5000 (yn 1 10 3 2 0) 3 (rw_ 300 900 30 false false true) Q1 tp)), wr WFQ_CFG_CAP 6 2 (qfL 6 1 (nb 5000 (yn 1 10 3 2 0) 3 (rw_ 300 900 30 false false true) Q1 tp)), nb 5000 (yn 0 1 1 2 0) 3 (rw_ 300 900 30 false true false) Q1 {}]
def ss : List (String × State) := named "ss" [h { fifo := [res 0 0x123456789A8F, res 1 5], fifoLen := 2 } base, h { fifo := [res 1 (8 + 1024 * 3 + 2^20 * 99 + 2^33 * 77), res 1 5], fifoLen := 2 } base, h { fifo := [res 2 (8 + 1)], fifoLen := 1 } base,
 h { wait := some (wt [10,11,12] none) } base, wr WFQ_CFG_CAP 22 4 (qfL 22 2 (h { wait := some (wt [10,11,12] none) } base)), wr WFQ_CFG_CAP 22 4 (qfL 22 1 (h { wait := some (wt [10,11,12] none) } base)), h { markHeld := some 7, discarded := 70000 } base, h { markHeld := some 7, discarded := 3 } base] ++ named "sn" sn
noncomputable def clause1 : Bool := (let p : Fin 16 := 6; (let stalled : Bool := true; (match (ss : List (String × (State)))[0]? with | some (_, s) => (let h : HdlPort := hdlOf p s; decide (s.warp.fill = none) && decide (rdB WRP_INJ_ADDR_ARM 0 s = false) && decide (s.warp.rowMap = []) && decide (stalled = true ∨ s.dram.rplBuf = []) && (match h.fifo with | e :: _ => (match hdlPart p e.tick s with | some (_, _) => (let q : Nat := rd GAU_SHAPE_BASE p s + e.cell; decide (h.wait = none) && decide (e.lost = false) && decide (bitOf e.word 3 = true) && decide (h.tPrev = none) && decide (e.cell + 1 < rd GAU_SPAN_CELLS p s) && decide ((∀ w : Nat, w < 4 → rdB DRM_RPL_EN w s = false)) && decide (inPool (4 * q) = false) && decide ((∀ i : Nat, i < 4 → (match decodeWord (warpStored (4 * q + i) s) with | .clean _ => true | _ => false) = true))) | _ => false) | _ => false)) | none => false)))
noncomputable def clause2 : Bool := (let p : Fin 16 := 6; (let stalled : Bool := true; (match (ss : List (String × (State)))[0]? with | some (_, s) => (let h : HdlPort := hdlOf p s; decide (s.warp.fill = none) && decide (rdB WRP_INJ_ADDR_ARM 0 s = false) && decide (s.warp.rowMap = []) && decide (stalled = true ∨ s.dram.rplBuf = []) && (match h.fifo with | e :: _ => (match hdlPart p e.tick s with | some (_, y) => (let q : Nat := rd GAU_SHAPE_BASE p s + e.cell; (match decodeWord (warpStored (4 * q) s) with | .clean a0 => (match decodeWord (warpStored (4 * q + 1) s) with | .clean a1 => (match decodeWord (warpStored (4 * q + 2) s) with | .clean a2 => (match decodeWord (warpStored (4 * q + 3) s) with | .clean a3 => (let c : CellIn := cellIn e.word; (let b : Quad := quadOf a0 a1 a2 a3; (let sp : SpanInfo := spanOf y (prevOf h y) s; (let n : Nat := (if h.prevEpoch = y.epoch ∧ h.cntK = some (sp.first - 1) then h.cnt else 0); (let qh : Nat := maxN 2 (y.hdlCfg.getD 3 0); (let rank : Nat := y.hdlCfg.getD 2 0; (let m : HdlMode := (if c.restart = true ∨ y.r151 = true then .restart else if c.dark = true then .dark else if b.inc1 = 0x8000 then .reference else if 1536 * y.period < (2 * (sp.tn - sp.prev.getD sp.tn)).toNat then .long else if b.inc2 = 0x8000 then .fill else .normal); (let xr : Int := (if sx 16 (ux 16 ((c.phase : Int) - b.lastPhase)) = -32768 then 32768 else sx 16 (ux 16 ((c.phase : Int) - b.lastPhase))); (let f : Int := (if m = .restart ∨ m = .dark ∨ m = .reference ∨ c.quality < qh then 0 else if m = .normal ∧ rank ≠ 3 then (if rank = 0 then min xr (min (sx 16 b.inc1) (sx 16 b.inc2)) else if rank = 2 then max xr (max (sx 16 b.inc1) (sx 16 b.inc2)) else median3 xr (sx 16 b.inc1) (sx 16 b.inc2)) else xr); (let forced : Bool := ((y.forced && sp.prev.isSome) || sp.gap || decide (m = .restart ∨ m = .reference)); (let its : List Nat := (if e.cell = 0 ∧ sp.points ≠ [] then frameHeader p sp [n] s else []) ++ (List.range sp.points.length).map (fun i => if i = 0 then fineWord { b with integ := satS 48 (b.integ + shareTo f sp 0), quality := if forced = true then minN b.quality 1 else b.quality } n qh else fineWord { b with integ := satS 48 (shareTo f sp i - shareTo f sp (i - 1)), peak := 0, sumsq := 0, sat := false, seam := false, quality := if forced = true then 1 else 63 } 0 qh); decide (h.wait = none) && decide ((∀ k : Nat, k < 4 → rdB DRM_RPL_EN k s = false)) && decide (inPool (4 * q) = false) && decide (its.length ≤ qRoom (16 + p) s) && decide (sp.gap = false ∨ e.cell ≠ 0) && decide (e.cell + 1 < rd GAU_SPAN_CELLS p s)))))))))))) | _ => false) | _ => false) | _ => false) | _ => false)) | _ => false) | _ => false)) | none => false)))
noncomputable def clause3 : Bool := (let p : Fin 16 := 6; (let stalled : Bool := true; (match (ss : List (String × (State)))[33]? with | some (_, s) => (let h : HdlPort := hdlOf p s; decide (s.warp.fill = none) && decide (rdB WRP_INJ_ADDR_ARM 0 s = false) && decide (s.warp.rowMap = []) && decide (stalled = true ∨ s.dram.rplBuf = []) && (match h.fifo with | e :: _ => (match hdlPart p e.tick s with | some (_, y) => (let q : Nat := rd GAU_SHAPE_BASE p s + e.cell; (match decodeWord (warpStored (4 * q) s) with | .clean a0 => (match decodeWord (warpStored (4 * q + 1) s) with | .clean a1 => (match decodeWord (warpStored (4 * q + 2) s) with | .clean a2 => (match decodeWord (warpStored (4 * q + 3) s) with | .clean a3 => (let c : CellIn := cellIn e.word; (let b : Quad := quadOf a0 a1 a2 a3; (let sp : SpanInfo := spanOf y (prevOf h y) s; (let n : Nat := (if h.prevEpoch = y.epoch ∧ h.cntK = some (sp.first - 1) then h.cnt else 0); (let qh : Nat := maxN 2 (y.hdlCfg.getD 3 0); (let rank : Nat := y.hdlCfg.getD 2 0; (let m : HdlMode := (if c.restart = true ∨ y.r151 = true then .restart else if c.dark = true then .dark else if b.inc1 = 0x8000 then .reference else if 1536 * y.period < (2 * (sp.tn - sp.prev.getD sp.tn)).toNat then .long else if b.inc2 = 0x8000 then .fill else .normal); (let xr : Int := (if sx 16 (ux 16 ((c.phase : Int) - b.lastPhase)) = -32768 then 32768 else sx 16 (ux 16 ((c.phase : Int) - b.lastPhase))); (let f : Int := (if m = .restart ∨ m = .dark ∨ m = .reference ∨ c.quality < qh then 0 else if m = .normal ∧ rank ≠ 3 then (if rank = 0 then min xr (min (sx 16 b.inc1) (sx 16 b.inc2)) else if rank = 2 then max xr (max (sx 16 b.inc1) (sx 16 b.inc2)) else median3 xr (sx 16 b.inc1) (sx 16 b.inc2)) else xr); (let forced : Bool := ((y.forced && sp.prev.isSome) || sp.gap || decide (m = .restart ∨ m = .reference)); (let its : List Nat := (if e.cell = 0 ∧ sp.points ≠ [] then frameHeader p sp [n] s else []) ++ (List.range sp.points.length).map (fun i => if i = 0 then fineWord { b with integ := satS 48 (b.integ + shareTo f sp 0), quality := if forced = true then minN b.quality 1 else b.quality } n qh else fineWord { b with integ := satS 48 (shareTo f sp i - shareTo f sp (i - 1)), peak := 0, sumsq := 0, sat := false, seam := false, quality := if forced = true then 1 else 63 } 0 qh); decide (h.wait = none) && decide ((∀ k : Nat, k < 4 → rdB DRM_RPL_EN k s = false)) && decide (inPool (4 * q) = false) && decide (qRoom (16 + p) s < its.length) && decide (sp.gap = false ∨ e.cell ≠ 0)))))))))))) | _ => false) | _ => false) | _ => false) | _ => false)) | _ => false) | _ => false)) | none => false)))
noncomputable def clause4 : Bool := (let p : Fin 16 := 6; (let stalled : Bool := true; (match (ss : List (String × (State)))[28]? with | some (_, s) => (let h : HdlPort := hdlOf p s; decide (s.warp.fill = none) && decide (rdB WRP_INJ_ADDR_ARM 0 s = false) && decide (s.warp.rowMap = []) && decide (stalled = true ∨ s.dram.rplBuf = []) && (match h.fifo with | e :: _ => (match hdlPart p e.tick s with | some (_, y) => (let q : Nat := rd GAU_SHAPE_BASE p s + e.cell; (match decodeWord (warpStored (4 * q) s) with | .clean _ => (match decodeWord (warpStored (4 * q + 1) s) with | .clean _ => (match decodeWord (warpStored (4 * q + 2) s) with | .clean _ => (match decodeWord (warpStored (4 * q + 3) s) with | .clean _ => (let sp : SpanInfo := spanOf y (prevOf h y) s; decide (h.wait = none) && decide ((∀ k : Nat, k < 4 → rdB DRM_RPL_EN k s = false)) && decide (inPool (4 * q) = false) && decide (sp.gap = true) && decide (e.cell = 0) && decide (e.cell + 1 < rd GAU_SPAN_CELLS p s)) | _ => false) | _ => false) | _ => false) | _ => false)) | _ => false) | _ => false)) | none => false)))
noncomputable def clause5 : Bool := (let p : Fin 16 := 6; (let stalled : Bool := true; (match (ss : List (String × (State)))[30]? with | some (_, s) => (let h : HdlPort := hdlOf p s; decide (s.warp.fill = none) && decide (rdB WRP_INJ_ADDR_ARM 0 s = false) && decide (s.warp.rowMap = []) && decide (stalled = true ∨ s.dram.rplBuf = []) && (match h.fifo with | e :: _ => (match hdlPart p e.tick s with | some (_, y) => (let q : Nat := rd GAU_SHAPE_BASE p s + e.cell; (match decodeWord (warpStored (4 * q) s) with | .clean a0 => (match decodeWord (warpStored (4 * q + 1) s) with | .clean a1 => (match decodeWord (warpStored (4 * q + 2) s) with | .clean a2 => (match decodeWord (warpStored (4 * q + 3) s) with | .clean a3 => (let c : CellIn := cellIn e.word; (let b : Quad := quadOf a0 a1 a2 a3; (let sp : SpanInfo := spanOf y (prevOf h y) s; (let n : Nat := (if h.prevEpoch = y.epoch ∧ h.cntK = some (sp.first - 1) then h.cnt else 0); (let qh : Nat := maxN 2 (y.hdlCfg.getD 3 0); (let rank : Nat := y.hdlCfg.getD 2 0; (let m : HdlMode := (if c.restart = true ∨ y.r151 = true then .restart else if c.dark = true then .dark else if b.inc1 = 0x8000 then .reference else if 1536 * y.period < (2 * (sp.tn - sp.prev.getD sp.tn)).toNat then .long else if b.inc2 = 0x8000 then .fill else .normal); (let xr : Int := (if sx 16 (ux 16 ((c.phase : Int) - b.lastPhase)) = -32768 then 32768 else sx 16 (ux 16 ((c.phase : Int) - b.lastPhase))); (let f : Int := (if m = .restart ∨ m = .dark ∨ m = .reference ∨ c.quality < qh then 0 else if m = .normal ∧ rank ≠ 3 then (if rank = 0 then min xr (min (sx 16 b.inc1) (sx 16 b.inc2)) else if rank = 2 then max xr (max (sx 16 b.inc1) (sx 16 b.inc2)) else median3 xr (sx 16 b.inc1) (sx 16 b.inc2)) else xr); (let forced : Bool := ((y.forced && sp.prev.isSome) || sp.gap || decide (m = .restart ∨ m = .reference)); (let its : List Nat := (if e.cell = 0 ∧ sp.points ≠ [] then frameHeader p sp [n] s else []) ++ (List.range sp.points.length).map (fun i => if i = 0 then fineWord { b with integ := satS 48 (b.integ + shareTo f sp 0), quality := if forced = true then minN b.quality 1 else b.quality } n qh else fineWord { b with integ := satS 48 (shareTo f sp i - shareTo f sp (i - 1)), peak := 0, sumsq := 0, sat := false, seam := false, quality := if forced = true then 1 else 63 } 0 qh); (let thr : Nat := maxN 1 (y.hdlCfg.getD 0 0); decide (h.wait = none) && decide ((∀ k : Nat, k < 4 → rdB DRM_RPL_EN k s = false)) && decide (inPool (4 * q) = false) && decide (its = []) && decide (y.hdlCfg.getD 5 0 ≠ 1 ∨ f = 0 ∨ f.natAbs < thr) && decide (rd GAU_SPAN_CELLS p s ≤ e.cell + 1) && decide ((∀ v ∈ s.trd.picks, ∀ l ∈ v.hands, l.1 < 32)))))))))))))) | _ => false) | _ => false) | _ => false) | _ => false)) | _ => false) | _ => false)) | none => false)))
noncomputable def clause6 : Bool := (let p : Fin 16 := 6; (let stalled : Bool := true; (match (ss : List (String × (State)))[4]? with | some (_, s) => (let h : HdlPort := hdlOf p s; decide (s.warp.fill = none) && decide (rdB WRP_INJ_ADDR_ARM 0 s = false) && decide (s.warp.rowMap = []) && decide (stalled = true ∨ s.dram.rplBuf = []) && (match h.wait with | some w => decide (1 ≤ qRoom (16 + p) s) && decide (qRoom (16 + p) s < w.items.length) | _ => false)) | none => false)))
noncomputable def clause7 : Bool := (let p : Fin 16 := 6; (let stalled : Bool := true; (match (ss : List (String × (State)))[3]? with | some (_, s) => (let h : HdlPort := hdlOf p s; decide (s.warp.fill = none) && decide (rdB WRP_INJ_ADDR_ARM 0 s = false) && decide (s.warp.rowMap = []) && decide (stalled = true ∨ s.dram.rplBuf = []) && (match h.wait with | some w => (match hdlPart p w.tick s with | some (_, _) => decide (w.items.length ≤ qRoom (16 + p) s) && decide (w.notice = none) && decide (inPool (4 * w.quadAt) = false) && decide (w.cell + 1 < rd GAU_SPAN_CELLS p s) && decide ((∀ k : Nat, k < 4 → rdB DRM_RPL_EN k s = false)) | _ => false) | _ => false)) | none => false)))
noncomputable def clause8 : Bool := (let p : Fin 16 := 6; (let stalled : Bool := true; (match (ss : List (String × (State)))[6]? with | some (_, s) => (let h : HdlPort := hdlOf p s; decide (s.warp.fill = none) && decide (rdB WRP_INJ_ADDR_ARM 0 s = false) && decide (s.warp.rowMap = []) && decide (stalled = true ∨ s.dram.rplBuf = []) && (match h.markHeld with | some _ => decide (1 ≤ qRoom p s) | _ => false)) | none => false)))
theorem witness_HeddleUpdates : [clause1, clause2, clause3, clause4, clause5, clause6, clause7, clause8].all id = true := by decide +kernel
end WHeddleUpdates

namespace WSpectralUnit
def K : SpcKey := { line := 50, stripe := 1, lo := 3, lo0 := 0x1000123, lo1 := 0x55, seg := 100, win := 9, pshift := 2 }
def lnn : SpcLine := { firstS := 10, cellsS := 150, kS := 4, sc := 100, accum := 3 }
def sl (s : State) : State := { s with spc := { s.spc with lines := s.spc.lines.put {} 50 lnn } }
def y1 : PortPick := { yy 6 with kind := 2, key := some K }
def ar (a : SpcArea) (s : State) : State := { s with spc := { s.spc with areas := s.spc.areas.put {} 6 a } }
def base : State := sl (wv [pk 7 [y1]] r0)
def fitem (d : Nat) (s : State) : State := { s with queues := s.queues.put {} (doneQ s) { items := [{ pri := 5, word := encodeWord d }, { pri := 1, word := encodeWord 9 }] } }
def A : SpcArea := { state := 2, key := some K, count := 3, cells := 50, timeout := some 900, pick := 6, sweep := true }
def fl (f : Option SpcFlush) (q : List Nat) (s : State) : State := { s with spc := { s.spc with flush := f, flushQ := q } }
def stored (c : Nat) (s : State) : State := ((List.range 56).map (fun b => (binWord 6 c b, 1000 * b + 7)) ++ (List.range 8).map (fun i => (resWord 6 c (56 + i), if i = 7 then 2^17 + 5 else 9))).foldl (fun (s : State) (a : Nat × Nat) => { s with warp := { s.warp with words := s.warp.words.put bareWord (warpPlace a.1 s) (encodeWord a.2) } }) s
def yb (c : Nat) : PortPick := { yy 6 with kind := 2, key := some K, spcBegun := true, spcNext := c, spcCells := 3, redCfg := [0, 1, 2], corr := (List.range 4).map (fun i => [3 * i, 32768, 40000, 20000, 9000, 0, 0, 0, 0, 0]), iq := [2^22 - 100, 5000, 2^22, 77, 0, 0, 0, 0] }
def AA (n : Nat) : SpcArea := { state := 1, key := some K, cells := 3, count := n }
def bsn (c n : Nat) : State := stored c (ar (AA n) (sl (wv [pk 7 [yb c]] r0)))
def sn : List State := [bsn 1 1, bsn 2 0, bsn 2 2, wr SPC_CTL_FIT_EN 0 0 (bsn 2 2), wr SPC_CTL_FIT_EN 0 1 (wr SPC_CTL_FIT_TMO 0 20 (bsn 2 2)), wr SPC_CTL_FIT_EN 0 1 (wr WFQ_CFG_CAP (fitQ r0) 3 (bsn 2 2)), stored 0 (ar (AA 1) (sl (wv [pk 7 [{ yb 0 with spcBegun := false, key := some { K with stripe := 7 } }]] r0))), stored 0 (ar { AA 1 with key := some { K with stripe := 0 } } (sl (wv [pk 7 [{ yb 0 with spcBegun := false }]] r0))), stored 0 (ar { AA 1 with key := some { K with stripe := 1, line := 52 } } (sl (wv [pk 7 [{ yb 0 with spcBegun := false }]] r0)))]
def ss : List (String × State) := named "ss" [base, ar { state := 2 } base, fitem (6 * 2^44 + 50 * 2^37 + 2^25) (ar A base), fitem (5 * 2^44 + 50 * 2^37 + 2^25) (ar A base), ar A base, fl none [6, 3] (ar { A with state := 3, fitted := true } base), wr SYS_STATE_STATE 0 5 (fl none [6, 3] (ar { A with state := 3, fitted := true } base)), fl (some { port := 6, items := [1,2,3,4] }) [3] (ar { A with state := 3, fitted := true } base), wr WFQ_CFG_CAP 38 3 (fl (some { port := 6, items := [1,2,3,4] }) [3] (ar { A with state := 3, fitted := true } base))] ++ named "sn" sn
def W4 (s : State) : State := wv [] s
def s2 : List (String × State) := named "s2" ([0,5,126,127].flatMap (fun k => [r0, W4 r0, wr PRT_STAT_STATE 6 1 r0].map (fun s => wr SPC_LINE_ADDR_LINE 0 50 (wr SPC_LO_ADDR_ENTRY 0 (k / 2) (wr SPC_LO_ADDR_WORD 0 (k % 2) s)))))
noncomputable def clause1 : Bool := (let p : Fin 16 := 6; (match (ss : List (String × (State)))[0]? with | some (_, s) => (match spcDue p s with | some (_, y) => (match y.key with | some k0 => (let k : SpcKey := { k0 with stripe := (spcLine k0.line s).curStripe }; decide (y.spcBegun = false) && decide (y.spcNext = 0) && decide (s.warp.fill = none) && decide (rdB WRP_INJ_ADDR_ARM 0 s = false) && decide (s.warp.rowMap = []) && decide ((areaOf p s).state = 0) && decide (1 < stripeCells (spcLine k.line s) k.stripe)) | _ => false) | _ => false) | none => false))
noncomputable def clause2 : Bool := (let p : Fin 16 := 6; (match (ss : List (String × (State)))[1]? with | some (_, s) => (match spcDue p s with | some (_, y) => (match y.key with | some _ => decide (y.spcBegun = false) && decide (y.spcNext = 0) && decide (s.warp.fill = none) && decide (rdB WRP_INJ_ADDR_ARM 0 s = false) && decide (s.warp.rowMap = []) && decide ((areaOf p s).state = 2) && decide ((∀ z ∈ s.trd.picks, ∀ l ∈ z.hands, l.1 < 32)) | _ => false) | _ => false) | none => false))
noncomputable def clause3 : Bool := (let p : Fin 16 := 6; (match (ss : List (String × (State)))[9]? with | some (_, s) => (match ([("o", (List.range 56).map (fun b => 1000 * b + 7))] : List (String × (List Nat)))[0]? with | some (_, old) => (match spcDue p s with | some (_, y) => (match y.key with | some k => (let c : Nat := y.spcNext; (match decodeWord (warpStored (resWord p c 63) s) with | .clean _ => decide (y.spcBegun = true) && decide ((areaOf p s).state = 1) && decide ((areaOf p s).key = some k) && decide (y.spcFirst ≠ 1) && decide (s.warp.fill = none) && decide (rdB WRP_INJ_ADDR_ARM 0 s = false) && decide (s.warp.rowMap = []) && decide (c < 4096) && decide ((∀ b : Nat, b < 56 → decodeWord (warpStored (binWord p c b) s) = .clean (old.getD b 0))) && decide (c + 1 < (areaOf p s).cells) | _ => false)) | _ => false) | _ => false) | none => false) | none => false))
noncomputable def clause4 : Bool := (let p : Fin 16 := 6; (match (ss : List (String × (State)))[10]? with | some (_, s) => (match ([("o", (List.range 56).map (fun b => 1000 * b + 7))] : List (String × (List Nat)))[0]? with | some (_, old) => (match spcDue p s with | some (_, y) => (match y.key with | some k => (let c : Nat := y.spcNext; (match decodeWord (warpStored (resWord p c 63) s) with | .clean _ => decide (y.spcBegun = true) && decide ((areaOf p s).state = 1) && decide ((areaOf p s).key = some k) && decide (y.spcFirst ≠ 1) && decide (s.warp.fill = none) && decide (rdB WRP_INJ_ADDR_ARM 0 s = false) && decide (s.warp.rowMap = []) && decide (c < 4096) && decide ((∀ b : Nat, b < 56 → decodeWord (warpStored (binWord p c b) s) = .clean (old.getD b 0))) && decide (c + 1 = (areaOf p s).cells) && decide ((∀ z ∈ s.trd.picks, ∀ h ∈ z.hands, h.1 < 32)) | _ => false)) | _ => false) | _ => false) | none => false) | none => false))
noncomputable def clause5 : Bool := (let p : Fin 16 := 6; (match (ss : List (String × (State)))[16]? with | some (_, s) => (match spcDue p s with | some (_, y) => (match y.key with | some k0 => (let k : SpcKey := { k0 with stripe := (spcLine k0.line s).curStripe }; (match (areaOf p s).key with | some k1 => decide (y.spcBegun = false) && decide (y.spcNext = 0) && decide (s.warp.fill = none) && decide (rdB WRP_INJ_ADDR_ARM 0 s = false) && decide (s.warp.rowMap = []) && decide ((areaOf p s).state = 1) && decide (1 < (areaOf p s).cells) && decide (k1 = k) | _ => false)) | _ => false) | _ => false) | none => false))
noncomputable def clause6 : Bool := (let p : Fin 16 := 6; (match (ss : List (String × (State)))[15]? with | some (_, s) => (match spcDue p s with | some (_, y) => (match y.key with | some k0 => (let k : SpcKey := { k0 with stripe := (spcLine k0.line s).curStripe }; (match (areaOf p s).key with | some k1 => decide (y.spcBegun = false) && decide (y.spcNext = 0) && decide (s.warp.fill = none) && decide (rdB WRP_INJ_ADDR_ARM 0 s = false) && decide (s.warp.rowMap = []) && decide ((areaOf p s).state = 1) && decide (1 < (areaOf p s).cells) && decide (k1 ≠ k) && decide (1 < stripeCells (spcLine k.line s) k.stripe) | _ => false)) | _ => false) | _ => false) | none => false))
noncomputable def clause7 : Bool := (let p : Fin 16 := 6; (match (ss : List (String × (State)))[2]? with | some (_, s) => (match (queueOf (doneQ s) s).items with | it :: _ => (match decodeWord it.word with | .clean d => decide (it.linkBad = false) && decide (fitMatch d s = some p) | _ => false) | _ => false) | none => false))
noncomputable def clause8 : Bool := (match (ss : List (String × (State)))[3]? with | some (_, s) => (match (queueOf (doneQ s) s).items with | it :: _ => (match decodeWord it.word with | .clean d => decide (it.linkBad = false) && decide (fitMatch d s = none) | _ => false) | _ => false) | none => false)
noncomputable def clause9 : Bool := (let p : Fin 16 := 6; (match (ss : List (String × (State)))[2]? with | some (_, s) => (match (areaOf p s).timeout with | some _ => decide ((areaOf p s).state = 2) | _ => false) | none => false))
noncomputable def clause10 : Bool := (let p : Fin 16 := 6; (match (ss : List (String × (State)))[6]? with | some (_, s) => (let r : List Nat := [3]; (match (areaOf p s).key with | some _ => decide (s.spc.flush = none) && decide (s.spc.flushQ = p.val :: r) && decide (devState s = stHOLD) | _ => false)) | none => false))
noncomputable def clause11 : Bool := (let p : Fin 16 := 6; (match (ss : List (String × (State)))[5]? with | some (_, s) => (let r : List Nat := [3]; (match (areaOf p s).key with | some _ => decide (s.spc.flush = none) && decide (s.spc.flushQ = p.val :: r) && decide (devState s ≠ stHOLD) | _ => false)) | none => false))
noncomputable def clause12 : Bool := (let p : Fin 16 := 6; (match (ss : List (String × (State)))[7]? with | some (_, s) => (match s.spc.flush with | some f => decide (f.port = p) && decide (f.items.length ≤ qRoom (32 + p) s) | _ => false) | none => false))
noncomputable def clause13 : Bool := (let p : Fin 16 := 6; (match (ss : List (String × (State)))[8]? with | some (_, s) => (match s.spc.flush with | some f => decide (f.port = p) && decide (qRoom (32 + p) s < f.items.length) | _ => false) | none => false))
noncomputable def clause14 : Bool := (match (s2 : List (String × (State)))[0]? with | some (_, s) => (let k : Nat := 2 * rd SPC_LO_ADDR_ENTRY 0 s + rd SPC_LO_ADDR_WORD 0 s; decide (k < 128) && decide (s.sys.inReset = false)) | none => false)
noncomputable def clause15 : Bool := (match (s2 : List (String × (State)))[0]? with | some (_, s) => (let k : Nat := 2 * rd SPC_LO_ADDR_ENTRY 0 s + rd SPC_LO_ADDR_WORD 0 s; decide (k < 128) && decide (weaving s = false) && decide (s.sys.inReset = false)) | none => false)
noncomputable def clause16 : Bool := (match (s2 : List (String × (State)))[1]? with | some (_, s) => (let k : Nat := 2 * rd SPC_LO_ADDR_ENTRY 0 s + rd SPC_LO_ADDR_WORD 0 s; decide (k < 128) && decide (weaving s = true) && decide (setPrepared s = false) && decide (s.sys.inReset = false)) | none => false)
noncomputable def clause17 : Bool := (match (s2 : List (String × (State)))[0]? with | some (_, s) => (let k : Nat := 2 * rd SPC_LO_ADDR_ENTRY 0 s + rd SPC_LO_ADDR_WORD 0 s; (let j : Nat := rd SPC_LINE_ADDR_LINE 0 s; decide (k < 128) && decide (portIdle (j / 8) s = true) && decide (s.sys.inReset = false))) | none => false)
noncomputable def clause18 : Bool := (match (s2 : List (String × (State)))[2]? with | some (_, s) => (let k : Nat := 2 * rd SPC_LO_ADDR_ENTRY 0 s + rd SPC_LO_ADDR_WORD 0 s; (let j : Nat := rd SPC_LINE_ADDR_LINE 0 s; decide (k < 128) && decide (portIdle (j / 8) s = false) && decide (s.sys.inReset = false))) | none => false)
theorem witness_SpectralUnit_1 : [clause1, clause2, clause3, clause4, clause5, clause6, clause7, clause8].all id = true := by decide +kernel
theorem witness_SpectralUnit_2 : [clause9, clause10, clause11, clause12, clause13, clause14, clause15, clause16].all id = true := by decide +kernel
theorem witness_SpectralUnit_3 : [clause17, clause18].all id = true := by decide +kernel
end WSpectralUnit

namespace WWarpCode

noncomputable def clause1 : Bool := (let d : Nat := 0; decide (d < 2 ^ 48))
noncomputable def clause3 : Bool := (let d : Nat := 0; (match ((List.range 56).map (fun i => (toString i, Fin.ofNat 56 i)) : List (String × (Fin 56)))[0]? with | some (_, j) => (match ((List.range 56).map (fun i => (toString i, Fin.ofNat 56 i)) : List (String × (Fin 56)))[1]? with | some (_, k) => decide (d < 2 ^ 48) && decide (j ≠ k) | none => false) | none => false))
theorem witness_WarpCode : [clause1, clause3].all id = true := by decide +kernel
end WWarpCode

namespace WWarpUpkeepAndFills
def cl (l : List Nat) (s : State) : State := l.foldl (fun s a => { s with warp := { s.warp with words := s.warp.words.put bareWord (warpPlace a s) (encodeWord (a * 77)) } }) s
def up (a : Nat) (s : State) : State := { s with warp := { s.warp with words := s.warp.words.put bareWord (warpPlace a s) (warpStored a s ^^^ 4) } }
def wb (l : List WriteBack) (s : State) : State := { s with warp := { s.warp with wbs := l } }
def sc (n d : Nat) (s : State) : State := wr WRP_CTL_SCRUB_EN 0 1 { s with warp := { s.warp with scrubNext := n, scrubDue := d } }
def base : State := cl [20,21,22,23, 4*6291455, 4*6291455+1,4*6291455+2,4*6291455+3] r0
def q9 : List Nat := (List.range 256).map (fun k => rowWord 3 5 k)
def rp (s : State) : State := wr WRP_STAT_REPAIR_BUSY 0 1 { s with warp := { s.warp with repair := some { bank := 3, row := 5, spare := 0 } } }
def ss : List (String × State) := named "ss" [wb [{ word := 20, value := encodeWord 5 }, { word := 30, value := encodeWord 6 }, { word := 20, value := encodeWord 9 }] base, wr WRP_CTL_SCRUB_EN 0 0 r0, sc 5 600 base, sc 6291455 600 base, sc 5 600 (up 20 base), wr WRP_CTL_AUTO_REPAIR 0 1 { base with warp := { base.warp with declared := [20, 9000] } }, rp (cl (q9.take 10) r0), rp (up (rowWord 3 5 1) (cl (q9.take 10) r0)), wb [{ word := 20, value := encodeWord 5, owner := some (3, 77) }] base, wr WRP_FILL_BASE_FIRST_Q 0 0x580000 (wr WRP_FILL_BASE_LAST_Q 0 0x580010 r0), wr WRP_FILL_BASE_FIRST_Q 0 12 (wr WRP_FILL_BASE_LAST_Q 0 2 r0)]
def s2 : List (String × State) := named "s2" [wr WRP_STAT_FILL_BUSY 0 1 { base with warp := { base.warp with fill := some { first := 5, last := 9 } } }]
noncomputable def clause1 : Bool := (match (ss : List (String × (State)))[0]? with | some (_, s) => decide (s.warp.fill = none) && decide (rdB WRP_INJ_ADDR_ARM 0 s = false) && (match s.warp.wbs with | w :: _ => decide (wordOwner w.word s = w.owner) && decide (s.warp.rowMap = []) && decide (s.canon = true) | _ => false) | none => false)
noncomputable def clause2 : Bool := (match (ss : List (String × (State)))[8]? with | some (_, s) => decide (s.warp.fill = none) && decide (rdB WRP_INJ_ADDR_ARM 0 s = false) && (match s.warp.wbs with | w :: _ => decide (wordOwner w.word s ≠ w.owner) | _ => false) | none => false)
noncomputable def clause3 : Bool := (match (ss : List (String × (State)))[1]? with | some (_, s) => decide (s.warp.fill = none) && decide (rdB WRP_INJ_ADDR_ARM 0 s = false) && decide (rdB WRP_CTL_SCRUB_EN 0 s = false) | none => false)
noncomputable def clause4 : Bool := (match (ss : List (String × (State)))[2]? with | some (_, s) => decide (s.warp.fill = none) && decide (rdB WRP_INJ_ADDR_ARM 0 s = false) && (let i : Nat := s.warp.scrubNext; decide (i < 6291456) && decide (rdB WRP_CTL_SCRUB_EN 0 s = true) && decide (s.warp.rowMap = []) && decide ((∀ k : Nat, k < 4 → (match decodeWord (warpStored (4 * i + k) s) with | .clean _ => true | _ => false) = true))) | none => false)
noncomputable def clause5 : Bool := (match (ss : List (String × (State)))[4]? with | some (_, s) => decide (s.warp.fill = none) && decide (rdB WRP_INJ_ADDR_ARM 0 s = false) && (let i : Nat := s.warp.scrubNext; (match decodeWord (warpStored (4 * i) s) with | .corrected _ => decide (i < 6291455) && decide (rdB WRP_CTL_SCRUB_EN 0 s = true) && decide (s.warp.rowMap = []) && decide (s.warp.history = []) && decide ((∀ k : Nat, 1 ≤ k → k < 4 → (match decodeWord (warpStored (4 * i + k) s) with | .clean _ => true | _ => false) = true)) | _ => false)) | none => false)
noncomputable def clause6 : Bool := (match (ss : List (String × (State)))[5]? with | some (_, s) => decide (s.warp.fill = none) && decide (rdB WRP_INJ_ADDR_ARM 0 s = false) && (match s.warp.declared with | a :: _ => decide (s.warp.repair = none) && decide (rdB WRP_CTL_AUTO_REPAIR 0 s = true) && decide (sparesLeft (bankOfQuad (a / 4)) s ≠ 0) | _ => false) | none => false)
noncomputable def clause7 : Bool := (match (ss : List (String × (State)))[6]? with | some (_, s) => decide (s.warp.fill = none) && decide (rdB WRP_INJ_ADDR_ARM 0 s = false) && (match s.warp.repair with | some r => decide (s.canon = true) && decide (r.bank < 128) && decide (r.row < 768) && decide (s.warp.rowMap.get 0 (rowKey r.bank r.row) = 0) && decide ((∀ k : Nat, k < 256 → ((match decodeWord (warpStored (rowWord r.bank r.row k) s) with | .clean _ => true | _ => false) = true) ∨ warpStored (rowWord r.bank r.row k) s = bareWord)) | _ => false) | none => false)
noncomputable def clause8 : Bool := (match (ss : List (String × (State)))[7]? with | some (_, s) => decide (s.warp.fill = none) && decide (rdB WRP_INJ_ADDR_ARM 0 s = false) && (let k : Fin 256 := 1; (match s.warp.repair with | some r => (match decodeWord (warpStored (rowWord r.bank r.row k) s) with | .corrected _ => decide (s.canon = true) && decide (r.bank < 128) && decide (r.row < 768) && decide (inPool (rowWord r.bank r.row 0) = false) && decide (s.warp.rowMap.get 0 (rowKey r.bank r.row) = 0) | _ => false) | _ => false)) | none => false)
noncomputable def clause9 : Bool := (match (ss : List (String × (State)))[0]? with | some (_, s) => decide (s.warp.fill = none) && decide (rdB WRP_INJ_ADDR_ARM 0 s = false) && (let a : Nat := rd WRP_FILL_BASE_FIRST_Q 0 s; (let b : Nat := rd WRP_FILL_BASE_LAST_Q 0 s; decide (fillRefused a b s = false) && decide (s.sys.inReset = false))) | none => false)
noncomputable def clause10 : Bool := (match (ss : List (String × (State)))[10]? with | some (_, s) => decide (s.warp.fill = none) && decide (rdB WRP_INJ_ADDR_ARM 0 s = false) && (let a : Nat := rd WRP_FILL_BASE_FIRST_Q 0 s; (let b : Nat := rd WRP_FILL_BASE_LAST_Q 0 s; decide (b < a) && decide (s.sys.inReset = false))) | none => false)
noncomputable def clause11 : Bool := (match (s2 : List (String × (State)))[0]? with | some (_, s) => (match s.warp.fill with | some f => decide (f.done = []) && decide (s.warp.repair = none) && decide (s.warp.rowMap = []) && decide (f.last < 0x500000 ∨ 0x580000 ≤ f.first) && decide (rdB WRP_INJ_ADDR_ARM 0 s = false) | _ => false) | none => false)
theorem witness_WarpUpkeepAndFills_1 : [clause1, clause2, clause3, clause4, clause5, clause6, clause7, clause8].all id = true := by decide +kernel
theorem witness_WarpUpkeepAndFills_2 : [clause9, clause10, clause11].all id = true := by decide +kernel
end WWarpUpkeepAndFills

namespace WHostQueues
def ss0 (q : Nat) : List State := [r0, qf q 2 r0, wr WFQ_CFG_CAP q 2 (qf q 2 r0), rb q (qf q 2 r0), wr WFQ_CFG_LEVEL q 3 (qf q 2 r0), { r0 with queues := r0.queues.put {} q { items := qi 1, staleDue := some 700 } }, { r0 with queues := r0.queues.put {} q { items := [], staleDue := some 700 } }, wr WFQ_STAT_LOST q 255 (wr WFQ_POOL_CTL_RES_SUM 0 4090 (wr WFQ_CFG_RES q 5 r0))]
def ss : List (String × State) := named "ss" ([70,255,40,57].flatMap (fun q => (ss0 q).map (fun s => wr WFQ_HPOP_SEL_QUEUE 0 q s)))
def vs : List (String × Qword) := ([0xFFFFFFFFFFFFFFFF, 5 * 2 ^ WFQ_CFG_RES.lo + 7 * 2 ^ WFQ_CFG_CAP.lo, 20 * 2 ^ WFQ_CFG_RES.lo] ++ [70,255,40,57].flatMap (fun q => [q * 2 ^ WFQ_HPUSH_QUEUE.lo + 6 * 2 ^ WFQ_HPUSH_PRI.lo + 0x1234 * 2 ^ WFQ_HPUSH_ITEM.lo, q * 2 ^ WFQ_FLUSH_QUEUE.lo])).map (fun v => ("v" ++ toString v, BitVec.ofNat 64 v))
noncomputable def clause1 : Bool := (match (ss : List (String × (State)))[0]? with | some (_, s) => (match (vs : List (String × (Qword)))[0]? with | some (_, v) => (let q : Nat := WFQ_HPUSH_QUEUE.ofQ v; decide (64 ≤ q) && decide (1 ≤ qRoom q s) && decide (rdB WRP_INJ_ADDR_ARM 0 s = false) && decide (s.sys.inReset = false)) | none => false) | none => false)
noncomputable def clause2 : Bool := (match (ss : List (String × (State)))[0]? with | some (_, s) => (match (vs : List (String × (Qword)))[1]? with | some (_, v) => (let q : Nat := WFQ_HPUSH_QUEUE.ofQ v; decide (q < 64 ∨ qRoom q s = 0) && decide (s.sys.inReset = false)) | none => false) | none => false)
noncomputable def clause3 : Bool := (match (ss : List (String × (State)))[0]? with | some (_, s) => (let q : Nat := rd WFQ_HPOP_SEL_QUEUE 0 s; decide (ringBound q s = false) && decide ((queueOf q s).items = []) && decide (s.sys.inReset = false)) | none => false)
noncomputable def clause4 : Bool := (match (ss : List (String × (State)))[1]? with | some (_, s) => (let q : Nat := rd WFQ_HPOP_SEL_QUEUE 0 s; (match (queueOf q s).items with | it :: _ => (match decodeWord it.word with | .clean _ => decide (ringBound q s = false) && decide (it.linkBad = false) && decide (s.sys.inReset = false) | _ => false) | _ => false)) | none => false)
noncomputable def clause5 : Bool := (match (ss : List (String × (State)))[3]? with | some (_, s) => (let q : Nat := rd WFQ_HPOP_SEL_QUEUE 0 s; decide (ringBound q s = true) && decide (s.sys.inReset = false)) | none => false)
noncomputable def clause6 : Bool := (match (ss : List (String × (State)))[0]? with | some (_, s) => (match (vs : List (String × (Qword)))[0]? with | some (_, v) => (let q : Nat := WFQ_FLUSH_QUEUE.ofQ v; decide (ringBound q s = false) && decide (engineBound q s = false) && decide (s.sys.inReset = false)) | none => false) | none => false)
noncomputable def clause7 : Bool := (match (ss : List (String × (State)))[3]? with | some (_, s) => (match (vs : List (String × (Qword)))[4]? with | some (_, v) => (let q : Nat := WFQ_FLUSH_QUEUE.ofQ v; decide (ringBound q s = true) && decide (s.sys.inReset = false)) | none => false) | none => false)
noncomputable def clause8 : Bool := (match (ss : List (String × (State)))[0]? with | some (_, s) => (match (vs : List (String × (Qword)))[1]? with | some (_, v) => (let k : Fin 256 := 70; (let n : Nat := rd WFQ_POOL_CTL_RES_SUM 0 s - rd WFQ_CFG_RES k s + WFQ_CFG_RES.ofQ v; decide (n ≤ 4096) && decide (s.sys.inReset = false))) | none => false) | none => false)
noncomputable def clause9 : Bool := (match (ss : List (String × (State)))[0]? with | some (_, s) => (match (vs : List (String × (Qword)))[0]? with | some (_, v) => (let k : Fin 256 := 70; (let n : Nat := rd WFQ_POOL_CTL_RES_SUM 0 s - rd WFQ_CFG_RES k s + WFQ_CFG_RES.ofQ v; decide (4096 < n) && decide (s.sys.inReset = false))) | none => false) | none => false)
noncomputable def clause10 : Bool := (match (ss : List (String × (State)))[5]? with | some (_, s) => (let k : Fin 256 := 70; (match (queueOf k s).staleDue with | some _ => true | _ => false)) | none => false)
theorem witness_HostQueues_1 : [clause1, clause2, clause3, clause4, clause5, clause6, clause7, clause8].all id = true := by decide +kernel
theorem witness_HostQueues_2 : [clause9, clause10].all id = true := by decide +kernel
end WHostQueues

namespace WCommandQueue
def fe (s : State) : State := wr HST_CTL_CMD_EN 0 1 (wr HST_CMD_TAIL_TAIL 0 3 (dma s))
def cpl (st : Nat) (m : Bool) : Cpl := { opcode := 5, tag := 7, stream := 0, mbx := m, slot := 3, status := st, detail := 1, result := 0x55, inFlight := false }
def cw (c : Cpl) (s : State) : State := { s with host := { s.host with cplWait := [c] } }
def ce (s : State) : State := wr HST_CTL_CPL_EN 0 1 (dma s)
def ss : List (String × State) := named "ss" [r0, wr HST_CTL_CMD_LOG2 0 4 r0, fe r0, wr HST_CMD_HEAD_HEAD 0 2 (wr HST_CTL_CMD_LOG2 0 4 (fe r0)), cmds [cm 3 []] (fe r0), wr HST_CMD_HEAD_HEAD 0 15 (fe r0), wr HST_CMD_HEAD_HEAD 0 2 (wr HST_CTL_CMD_EN 0 1 r0), cw (cpl 0 false) (ce r0), cw (cpl 0x15 false) (ce r0), wr HST_CPL_TAIL_TAIL 0 255 (wr HST_CPL_HEAD_HEAD 0 7 (cw (cpl 0x15 false) (ce r0))), wr HST_CPL_TAIL_TAIL 0 254 (wr HST_CPL_HEAD_HEAD 0 255 (cw (cpl 0x15 false) (ce r0))), cw (cpl 0 true) r0, cw (cpl 0x15 true) r0, (let z := cw (cpl 0 false) (ce r0); { z with host := { z.host with cplWait := z.host.cplWait ++ [cpl 0x12 true], cmds := [cm 3 []] } }), wr HST_CPL_TAIL_TAIL 0 6 (wr HST_CPL_HEAD_HEAD 0 7 (cw (cpl 0x15 false) (ce r0))), (let z := wr HST_CPL_TAIL_TAIL 0 6 (wr HST_CPL_HEAD_HEAD 0 7 (cw (cpl 0x15 false) (ce r0))); { z with host := { z.host with cplFullRaised := true } }), wr HST_CTL_CPL_EN 0 1 (wr HST_CTL_CMD_EN 0 1 (wr HST_CPL_TAIL_TAIL 0 6 (wr HST_CPL_HEAD_HEAD 0 7 (wr HST_CMD_HEAD_HEAD 0 2 r0)))), cmds [cm 3 []] r0, { fe r0 with host := { (fe r0).host with cmds := [{ cm 5 [] with tag := 7 }] } }, wr HST_MBX_CTL_MBX_BUSY 0 1 r0, wr HST_MBX_CMD_QWORD 3 1 r0]
noncomputable def clause1 : Bool := (match (ss : List (String × (State)))[0]? with | some (_, s) => (let v : Qword := 0; decide (HST_CMD_TAIL_TAIL.ofQ v < cmdRingSize s) && decide (s.sys.inReset = false)) | none => false)
noncomputable def clause2 : Bool := (match (ss : List (String × (State)))[1]? with | some (_, s) => (let v : Qword := 0xFFFFFFFFFFFFFFFF; decide (cmdRingSize s ≤ HST_CMD_TAIL_TAIL.ofQ v) && decide (s.sys.inReset = false)) | none => false)
noncomputable def clause3 : Bool := (match (ss : List (String × (State)))[0]? with | some (_, s) => (let v : Qword := 0; decide (HST_CPL_HEAD_HEAD.ofQ v < cplRingSize s) && decide (s.sys.inReset = false)) | none => false)
noncomputable def clause4 : Bool := (match (ss : List (String × (State)))[0]? with | some (_, s) => (let v : Qword := 0xFFFFFFFFFFFFFFFF; decide (cplRingSize s ≤ HST_CPL_HEAD_HEAD.ofQ v) && decide (s.sys.inReset = false)) | none => false)
noncomputable def clause5 : Bool := (match (ss : List (String × (State)))[0]? with | some (_, s) => decide (canFetch s = false) | none => false)
noncomputable def clause6 : Bool := (match (ss : List (String × (State)))[2]? with | some (_, s) => decide (canFetch s = true) | none => false)
noncomputable def clause7 : Bool := (match (ss : List (String × (State)))[0]? with | some (_, s) => decide (s.host.cplWait = []) | none => false)
noncomputable def clause8 : Bool := (match (ss : List (String × (State)))[0]? with | some (_, s) => decide ((∀ e ∈ s.host.cplWait, e.mbx = false)) && decide (rd HST_CTL_CPL_EN 0 s = 0 ∨ dmaOk s = false ∧ cplRoom s = true) | none => false)
noncomputable def clause9 : Bool := (match (ss : List (String × (State)))[15]? with | some (_, s) => decide ((∀ e ∈ s.host.cplWait, e.mbx = false)) && decide (s.host.cplWait ≠ []) && decide (rd HST_CTL_CPL_EN 0 s = 1) && decide (cplRoom s = false) && decide (s.host.cplFullRaised = true) | none => false)
noncomputable def clause10 : Bool := (match (ss : List (String × (State)))[10]? with | some (_, s) => decide ((∀ e ∈ s.host.cplWait, e.mbx = false)) && decide (s.host.cplWait ≠ []) && decide (rd HST_CTL_CPL_EN 0 s = 1) && decide (cplRoom s = false) && decide (s.host.cplFullRaised = false) | none => false)
noncomputable def clause11 : Bool := (match (ss : List (String × (State)))[7]? with | some (_, s) => (match ([("n", (rd HST_CPL_TAIL_TAIL 0 s + 1) % cplRingSize s)] : List (String × (Nat)))[0]? with | some (_, n) => (match s.host.cplWait with | c :: _ => decide (c.mbx = false) && decide (rd HST_CTL_CPL_EN 0 s = 1) && decide (dmaOk s = true) && decide (cplRoom s = true) && decide (n = (rd HST_CPL_TAIL_TAIL 0 s + 1) % cplRingSize s) | _ => false) | none => false) | none => false)
noncomputable def clause12 : Bool := (match (ss : List (String × (State)))[11]? with | some (_, s) => (match s.host.cplWait with | c :: _ => decide (c.mbx = true) && decide (cplFull s = false) | _ => false) | none => false)
noncomputable def clause13 : Bool := (match (ss : List (String × (State)))[0]? with | some (_, s) => decide (s.sys.inReset = false) | none => false)
noncomputable def clause14 : Bool := (match (ss : List (String × (State)))[19]? with | some (_, s) => decide (rd HST_MBX_CTL_MBX_BUSY 0 s = 1) && decide (s.sys.inReset = false) | none => false)
noncomputable def clause15 : Bool := (match (ss : List (String × (State)))[0]? with | some (_, s) => decide (rd HST_MBX_CTL_MBX_BUSY 0 s = 0) && decide (s.sys.inReset = false) | none => false)
theorem witness_CommandQueue_1 : [clause1, clause2, clause3, clause4, clause5, clause6, clause7, clause8].all id = true := by decide +kernel
theorem witness_CommandQueue_2 : [clause9, clause10, clause11, clause12, clause13, clause14, clause15].all id = true := by decide +kernel
end WCommandQueue

namespace WBusAccesses
def up (a : Nat) (s : State) : State := { s with warp := { s.warp with words := s.warp.words.put bareWord (warpPlace a s) (encodeWord (a * 77)) } }
def ss : List (String × State) := named "ss" [up 0x1000007 (up 5 (up 0x1400009 r0)), wv [] r0, (List.range 16).foldl (fun s p => wr PRT_STAT_STATE p 1 (wr DRM_REGION_CTL_EN (p % 8) 1 s)) r0, (List.range 8).foldl (fun s p => wr DRM_REGION_CTL_EN p 1 (wr DRM_REGION_BASE p 0x4DEF0 (wr DRM_REGION_LIMIT p 0x8ACF1 s))) r0]
def rs : List (String × Fin 8192) := (([0, EVT_RAW.base / 8, SRC_LAUNCH.base / 8, DRM_REGION.base / 8, 194] ++ List.range 3072 ++ [3072, 3100, 4000, 8191]).map (fun i => (toString i, Fin.ofNat 8192 i))).filter (fun x => (regAt (8 * x.2)).isSome || x.2.val % 97 = 0)
noncomputable def clause1 : Bool := (match (ss : List (String × (State)))[0]? with | some (_, s) => (let v : Qword := 0; (match (rs : List (String × (Fin 8192)))[0]? with | some (_, r) => decide (s.sys.inReset = false) && (match regAt (8 * r) with | some (g, i) => decide (inMsix (8 * r) = false) && decide (writeA .pcie g.base i v s = none) && decide (writeB .pcie g.base i v s = none) && decide (writeC .pcie g.base i v s = none) && decide (writeD .pcie g.base i v s = none) | _ => false) | none => false)) | none => false)
noncomputable def clause2 : Bool := (match (ss : List (String × (State)))[0]? with | some (_, s) => (match (rs : List (String × (Fin 8192)))[0]? with | some (_, r) => decide (s.sys.inReset = false) && (match regAt (8 * r) with | some (g, _) => decide (inMsix (8 * r) = false) && decide (g.base ∉ windowBases) && decide (g.base ∉ [WFQ_HPOP.base, SYS_TIME_HI.base, WRP_BANK_DATA.base, DRM_MIG_STAT.base]) | _ => false) | none => false) | none => false)
noncomputable def clause3 : Bool := (match (ss : List (String × (State)))[0]? with | some (_, s) => (match (rs : List (String × (Fin 8192)))[1]? with | some (_, r) => decide (s.sys.inReset = false) && (let e : Fin 256 := 0; decide (8 * r.val = EVT_RAW.off (e.val / 64))) | none => false) | none => false)
noncomputable def clause4 : Bool := (match (ss : List (String × (State)))[0]? with | some (_, s) => (let v : Qword := 0; (match (rs : List (String × (Fin 8192)))[2]? with | some (_, r) => decide (s.sys.inReset = false) && (let p : Fin 16 := 0; decide (8 * r.val = SRC_LAUNCH.off p) && decide (portIdle p s = true ∨ (SRC_LAUNCH_OFFSET.ofQ v = rd SRC_LAUNCH_OFFSET p s ∧ SRC_LAUNCH_EXTEND.ofQ v = rd SRC_LAUNCH_EXTEND p s))) | none => false)) | none => false)
noncomputable def clause5 : Bool := (match (ss : List (String × (State)))[2]? with | some (_, s) => (let v : Qword := 0xFFFFFFFFFFFFFFFF; (match (rs : List (String × (Fin 8192)))[2]? with | some (_, r) => decide (s.sys.inReset = false) && (let p : Fin 16 := 0; decide (8 * r.val = SRC_LAUNCH.off p) && decide (portIdle p s = false) && decide (SRC_LAUNCH_OFFSET.ofQ v ≠ rd SRC_LAUNCH_OFFSET p s ∨ SRC_LAUNCH_EXTEND.ofQ v ≠ rd SRC_LAUNCH_EXTEND p s)) | none => false)) | none => false)
noncomputable def clause6 : Bool := (match (ss : List (String × (State)))[0]? with | some (_, s) => (match (rs : List (String × (Fin 8192)))[3]? with | some (_, r) => decide (s.sys.inReset = false) && (let q : Fin 8 := 0; decide (8 * r.val = DRM_REGION.off q) && decide (rdB DRM_REGION_CTL_EN q s = false)) | none => false) | none => false)
noncomputable def clause7 : Bool := (match (ss : List (String × (State)))[2]? with | some (_, s) => (let v : Qword := 0xFFFFFFFFFFFFFFFF; (match (rs : List (String × (Fin 8192)))[3]? with | some (_, r) => decide (s.sys.inReset = false) && (let q : Fin 8 := 0; decide (8 * r.val = DRM_REGION.off q) && decide (rdB DRM_REGION_CTL_EN q s = true) && decide ((∃ f ∈ DRM_REGION.fields, f.ofQ v ≠ rd f q s))) | none => false)) | none => false)
noncomputable def clause8 : Bool := (match (ss : List (String × (State)))[2]? with | some (_, s) => (let v : Qword := 0; (match (rs : List (String × (Fin 8192)))[3]? with | some (_, r) => decide (s.sys.inReset = false) && (let q : Fin 8 := 0; decide (8 * r.val = DRM_REGION.off q) && decide (rdB DRM_REGION_CTL_EN q s = true) && decide ((∀ f ∈ DRM_REGION.fields, f.ofQ v = rd f q s))) | none => false)) | none => false)
noncomputable def clause9 : Bool := (match (ss : List (String × (State)))[0]? with | some (_, s) => (match (rs : List (String × (Fin 8192)))[4]? with | some (_, r) => decide (s.sys.inReset = false) && decide (regAt (8 * r) = none) && decide (inMsix (8 * r) = false) | none => false) | none => false)
noncomputable def clause11 : Bool := (match (ss : List (String × (State)))[0]? with | some (_, s) => (match (rs : List (String × (Fin 8192)))[0]? with | some (_, r) => decide (s.sys.inReset = false) && decide (inMsix (8 * r) = false) | none => false) | none => false)
theorem witness_BusAccesses_1 : [clause1, clause2, clause3, clause4, clause5, clause6, clause7, clause8].all id = true := by decide +kernel
theorem witness_BusAccesses_2 : [clause9, clause11].all id = true := by decide +kernel
end WBusAccesses

namespace WEventsAndVectors
def mv (x : MsixVec) (s : State) : State := { s with host := { s.host with msix := s.host.msix.put {} 5 x, funcMask := false, busMaster := true } }
def fe (s : State) : State := wr HST_CTL_CMD_EN 0 1 (wr HST_CMD_TAIL_TAIL 0 3 (dma s))
def cpl (st : Nat) (m : Bool) : Cpl := { opcode := 5, tag := 7, stream := 0, mbx := m, slot := 3, status := st, detail := 1, result := 0x55, inFlight := false }
def cw (c : Cpl) (s : State) : State := { s with host := { s.host with cplWait := [c] } }
def ce (s : State) : State := wr HST_CTL_CPL_EN 0 1 (dma s)
def ss : List (String × State) := named "ss" [fe r0, cw (cpl 0 false) (ce r0), cw (cpl 0x15 true) (ce r0), wr EVT_RAW_RAW 1 0xFF00FF r0, wr EVT_EN_EN 1 0xFF (wr EVT_RAW_RAW 1 0xFF00FF r0), mv { holdUntil := some 800, due := true, ctrl := 0, addr := 0x1234, data := 7 } (dma r0), wr EVT_CTL_HOLDOFF 0 3 (mv { holdUntil := some 800, due := true, ctrl := 0, addr := 0x1234, data := 7 } (dma r0)), mv { holdUntil := some 800, due := true, ctrl := 1 } (dma r0), mv { holdUntil := some 800, due := false, ctrl := 1 } (dma r0), mv { pend := true, ctrl := 1, addr := 0x77 } (dma r0), mv { pend := true, ctrl := 1, addr := 0x77 } r0]
noncomputable def clause1 : Bool := (match (ss : List (String × (State)))[0]? with | some (_, s) => decide (s.sys.inReset = false) | none => false)
noncomputable def clause2 : Bool := (match (ss : List (String × (State)))[5]? with | some (_, s) => (let k : Fin 32 := 5; (match (msixOf k s).holdUntil with | some _ => true | _ => false)) | none => false)
noncomputable def clause4 : Bool := (match (ss : List (String × (State)))[9]? with | some (_, s) => (let k : Fin 32 := 5; decide ((∀ j : Nat, j < 32 → (j = k ↔ (msixOf j s).pend = true))) && decide ((msixOf k s).holdUntil = none) && decide (s.sys.inReset = false)) | none => false)
noncomputable def clause8 : Bool := (match (ss : List (String × (State)))[0]? with | some (_, s) => decide (rd HST_MBX_CTL_MBX_BUSY 0 s = 0) && decide (s.sys.inReset = false) | none => false)
noncomputable def clause9 : Bool := (match (ss : List (String × (State)))[0]? with | some (_, s) => decide (canFetch s = true) | none => false)
noncomputable def clause10 : Bool := (match (ss : List (String × (State)))[1]? with | some (_, s) => (match s.host.cplWait with | _ :: _ => decide (rd HST_CTL_CPL_EN 0 s = 1) && decide (dmaOk s = true) && decide (cplRoom s = true) | _ => false) | none => false)
theorem witness_EventsAndVectors : [clause1, clause2, clause4, clause8, clause9, clause10].all id = true := by decide +kernel
end WEventsAndVectors

namespace WDeliveryRings
def b : State := st 3 (dma r0)
def g0 : Ring := { queue := 70, base := 0x10000, size := 9, index := 0x5000 }
def rg (g : Ring) (s : State) : State := { s with rings := [g] }
def live (g : Ring) (n : Nat) : State := rg g (qf 70 n b)
def ss : List (String × State) := named "ss" [c1 0x20 [70, 0x10000, 9, 0x5000] b, rg g0 (c1 0x20 [70, 0x10000, 9, 0x5000] b), rg { g0 with prod := 5, posted := 5 } (c1 0x21 [70] b), c1 0x21 [70] b, live g0 3, live { g0 with prod := 512, posted := 512, cons := 511 } 3, live { g0 with prod := 7, posted := 5, batchAt := some 900 } 3, live { g0 with pollAt := some 900 } 3, live { g0 with reading := true } 0, live { g0 with reading := true, prod := 9, cons := 2, posted := 9 } 2, wr WFQ_CFG_LEVEL 70 2 (live { g0 with prod := 7, posted := 5, batchAt := some 900 } 3)]
noncomputable def clause1 : Bool := (match (ss : List (String × (State)))[0]? with | some (_, s) => (let tag : Byte := 9; (match (cmdS s : List (String × (Cmd)))[0]? with | some (_, c) => (let q : Fin 256 := 70; decide (s.starts 0x20 tag c) && decide (inIW s = true) && decide (c.op 0 = q) && decide (bindReason q s = 0) && decide (s.rings = []) && decide (dmaOk s = true) && decide ((∀ x : Nat, x < 4 → bobSt x s = bIDLE)) && decide ((∀ e ∈ s.host.cmds, e.phase = .running → e.opcode ≠ 0x20))) | none => false)) | none => false)
noncomputable def clause2 : Bool := (match (ss : List (String × (State)))[1]? with | some (_, s) => (let tag : Byte := 9; (match (cmdS s : List (String × (Cmd)))[0]? with | some (_, c) => (let q : Fin 256 := 70; decide (s.starts 0x20 tag c) && decide (inIW s = true) && decide (c.op 0 = q) && decide (ringBound q s = true)) | none => false)) | none => false)
noncomputable def clause3 : Bool := (match (ss : List (String × (State)))[2]? with | some (_, s) => (let tag : Byte := 9; (match (cmdS s : List (String × (Cmd)))[0]? with | some (_, c) => (let q : Fin 256 := 70; (match s.rings with | [g] => decide (s.starts 0x21 tag c) && decide (inIW s = true) && decide (c.op 0 = q) && decide (g.queue = q) && decide (g.ending = false) && decide (g.fresh = false) && decide (g.prod = g.posted) && decide ((∀ e ∈ s.host.cmds, e.phase = .running → e.opcode ≠ 0x20 ∧ e.opcode ≠ 0x21)) | _ => false)) | none => false)) | none => false)
noncomputable def clause4 : Bool := (match (ss : List (String × (State)))[3]? with | some (_, s) => (let tag : Byte := 9; (match (cmdS s : List (String × (Cmd)))[0]? with | some (_, c) => (let q : Fin 256 := 70; decide (s.starts 0x21 tag c) && decide (inIW s = true) && decide (c.op 0 = q) && decide (ringOf q s = none)) | none => false)) | none => false)
noncomputable def clause5 : Bool := (match (ss : List (String × (State)))[4]? with | some (_, s) => (let q : Fin 256 := 70; (match s.rings with | [g] => decide (g.queue = q) && decide (g.live s = true) && (match (queueOf q s).items with | it :: r => (match decodeWord it.word with | .clean _ => decide (g.room ≠ 0) && decide (r ≠ []) && decide (it.linkBad = false) && decide (g.posted = g.prod) && decide (g.prod < 2 ^ 48 - 1) | _ => false) | _ => false) | _ => false)) | none => false)
noncomputable def clause6 : Bool := (match (ss : List (String × (State)))[6]? with | some (_, s) => (let q : Fin 256 := 70; (match s.rings with | [g] => decide (g.queue = q) && decide (g.live s = true) && (match g.batchAt with | some _ => decide (g.prod ≠ g.posted) | _ => false) | _ => false)) | none => false)
noncomputable def clause7 : Bool := (match (ss : List (String × (State)))[7]? with | some (_, s) => (let q : Fin 256 := 70; (match s.rings with | [g] => decide (g.queue = q) && decide (g.live s = true) && (match g.pollAt with | some _ => decide (g.reading = false) | _ => false) | _ => false)) | none => false)
noncomputable def clause8 : Bool := (match (ss : List (String × (State)))[8]? with | some (_, s) => (let q : Fin 256 := 70; (let v : Qword := 0; (match s.rings with | [g] => decide (g.queue = q) && decide (g.reading = true) && decide ((g.prod + 2 ^ 48 - v.toNat % 2 ^ 48) % 2 ^ 48 ≤ 2 ^ g.size) | _ => false))) | none => false)
noncomputable def clause9 : Bool := (match (ss : List (String × (State)))[8]? with | some (_, s) => (let q : Fin 256 := 70; (let v : Qword := 5; (match s.rings with | [g] => decide (g.queue = q) && decide (g.reading = true) && decide (2 ^ g.size < (g.prod + 2 ^ 48 - v.toNat % 2 ^ 48) % 2 ^ 48) && decide (g.badLogged = false) | _ => false))) | none => false)
noncomputable def clause10 : Bool := (match (ss : List (String × (State)))[8]? with | some (_, s) => (let q : Fin 256 := 70; (match s.rings with | [g] => decide (g.queue = q) && decide (g.reading = true) | _ => false)) | none => false)
noncomputable def clause11 : Bool := (match (ss : List (String × (State)))[0]? with | some (_, s) => decide (s.sys.inReset = false) | none => false)
noncomputable def clause12 : Bool := (match (ss : List (String × (State)))[0]? with | some (_, s) => decide (s.sys.inReset = false) && decide (s.rings = []) | none => false)
theorem witness_DeliveryRings_1 : [clause1, clause2, clause3, clause4, clause5, clause6, clause7, clause8].all id = true := by decide +kernel
theorem witness_DeliveryRings_2 : [clause9, clause10, clause11, clause12].all id = true := by decide +kernel
end WDeliveryRings

namespace WCommandStatesAndRegisters
def ops : List Nat := [0x08,0x09,0x0A,0x0B,0x0C,0x10,0x11,0x12,0x13,0x14,0x16,0x18,0x19,0x1A,0x1B,0x1C,0x20,0x21,0x28,0x30,0x31]
def ss : List (String × State) := named "ss" (ops.flatMap (fun op => [2,3,4,5,6].map (fun d => st d (c1 op [] r0))) ++ [r0])
def allStopped (s : State) : State := (List.range 32).foldl (fun s l => wr SHT_ENG_STAT_ENG_STATE l 3 s) s
def regs : List Nat := [0, 8, 0x18, 0x38, 0xC08, 0xC20, 0x5C00, 0x5C20, 0x100, 0x200, 0x1000, 0x2000, 0x3000, 0x4000, 0x4808, 0x5000]
def s2 : List (String × State) := named "s2" ([c1 0 [] r0, c1 1 [] r0, c1 2 [0x6000] r0, c1 3 [0x7000] r0, c1 4 [0x6008] r0] ++ ((List.range 3).map (· + 144)).flatMap (fun r => if (regAt (8 * r)).isSome && r % 3 = 0 then [c1 2 [8 * r] r0, c1 3 [8 * r, 0x123456789ABCDEF0] r0, c1 4 [8 * r, 0xFF00FF00FF, 0x123456789ABCDEF0] r0] else []))
def s3 : List (String × State) := named "s3" [c1 0xA [2] (st 3 (allStopped r0)), c1 0xA [2] (st 3 (wr PRT_STAT_STATE 3 1 (allStopped r0))), c1 0x16 [77, 1] (st 4 r0), c1 0x16 [77, 0] (st 4 r0)]
noncomputable def clause1 : Bool := (match (ss : List (String × (State)))[105]? with | some (_, s) => (let tag : Byte := 9; decide (startable tag.toNat s = none)) | none => false)
noncomputable def clause2 : Bool := (match (ss : List (String × (State)))[0]? with | some (_, s) => (let tag : Byte := 9; (match (cmdS s : List (String × (Cmd)))[0]? with | some (_, c) => (let drift : List Int := []; (let pr : Bool := true; (let kn : Bool := true; (let rk : Fin 8 := 0; (let de : Fin 64 := 0; (let gi : Fin 256 := 0; (let tr : Fin 65536 := 0; (match (([(Sys2Proof.Machine.execWeaveStart tag, 0x08, [3, 4]), (Sys2Proof.Machine.execWeaveStop tag, 0x09, [4]), (Sys2Proof.Machine.execProfileSet tag, 0x0A, [3]), (Sys2Proof.Machine.execHoldEnter tag, 0x0B, [3, 6]), (Sys2Proof.Machine.execHoldExit tag drift, 0x0C, [5]), (Sys2Proof.Machine.execPortStart tag, 0x10, [3, 4]), (Sys2Proof.Machine.execPortStop tag, 0x11, [3, 4, 6]), (Sys2Proof.Machine.execEngineStart tag, 0x12, [3, 4]), (Sys2Proof.Machine.execEngineStop tag, 0x13, [3, 4, 6]), (Sys2Proof.Machine.execCmdBeat tag, 0x14, [4]), (Sys2Proof.Machine.execTimeSet tag, 0x16, [3, 4, 5]), (Sys2Proof.Machine.execCodePrepare tag, 0x18, [3, 4]), (Sys2Proof.Machine.execImageLoad tag, 0x19, [3, 4]), (Sys2Proof.Machine.execEngineSwap tag, 0x1A, [3, 4]), (Sys2Proof.Machine.execConvSwap tag, 0x1B, [3, 4]), (Sys2Proof.Machine.execWarpFill tag, 0x1C, [3, 4]), (Sys2Proof.Machine.execRingBind tag, 0x20, [3, 4]), (Sys2Proof.Machine.execRingUnbind tag, 0x21, [3, 4]), (Sys2Proof.Machine.execCalRun tag, 0x28, [3, 4]), (Sys2Proof.Machine.execMemVacate tag, 0x30, [3, 4]), (Sys2Proof.Machine.execMemRestore tag pr kn rk de gi tr, 0x31, [3, 4])] : List ((State → Host.Outcome State Fault Refusal) × Nat × List Nat)))[0]? with | some x => decide (s.starts x.2.1 tag c) && decide (devState s ∉ x.2.2) | none => false)))))))) | none => false)) | none => false)
noncomputable def clause3 : Bool := (match (s2 : List (String × (State)))[0]? with | some (_, s) => (let tag : Byte := 9; (match (cmdS s : List (String × (Cmd)))[0]? with | some (_, c) => decide (s.starts 0x00 tag c) | none => false)) | none => false)
noncomputable def clause4 : Bool := (match (s2 : List (String × (State)))[1]? with | some (_, s) => (let tag : Byte := 9; (match (cmdS s : List (String × (Cmd)))[0]? with | some (_, c) => decide (s.starts 0x01 tag c) | none => false)) | none => false)
noncomputable def clause5 : Bool := (match (s2 : List (String × (State)))[2]? with | some (_, s) => (let tag : Byte := 9; (match (cmdS s : List (String × (Cmd)))[0]? with | some (_, c) => decide (s.starts 0x02 tag c) && decide (0x6000 ≤ c.op 0) | none => false)) | none => false)
noncomputable def clause6 : Bool := (match (s2 : List (String × (State)))[3]? with | some (_, s) => (let tag : Byte := 9; (match (cmdS s : List (String × (Cmd)))[0]? with | some (_, c) => decide (s.starts 0x03 tag c) && decide (0x6000 ≤ c.op 0) | none => false)) | none => false)
noncomputable def clause7 : Bool := (match (s2 : List (String × (State)))[4]? with | some (_, s) => (let tag : Byte := 9; (match (cmdS s : List (String × (Cmd)))[0]? with | some (_, c) => decide (s.starts 0x04 tag c) && decide (0x6000 ≤ c.op 0) | none => false)) | none => false)
noncomputable def clause8 : Bool := (match (s2 : List (String × (State)))[5]? with | some (_, s) => (let tag : Byte := 9; (match (cmdS s : List (String × (Cmd)))[0]? with | some (_, c) => (match regAt (c.op 0) with | some (g, _) => decide (c.op 0 < 0x6000) && decide (s.sys.inReset = false) && decide (c.mbx = false) && decide (g.base ∉ [WFQ_HPOP.base, SYS_TIME_HI.base, WRP_BANK_DATA.base, DRM_MIG_STAT.base]) && decide (g.base ∉ windowBases) && decide (s.starts 0x02 tag c) | _ => false) | none => false)) | none => false)
noncomputable def clause11 : Bool := (match s3[0]? with | some (_, s) => (let tag : Byte := 9; (match (cmdS s : List (String × (Cmd)))[0]? with | some (_, c) => decide (s.starts 0x0A tag c) && decide (devState s = stIDLE) && decide (c.op 0 < 3) && decide ((∀ p : Nat, p < 16 → portSt p s = pSTOPPED)) && decide ((∀ l : Nat, l < 32 → engSt (physOf l s) s = eSTOPPED)) | none => false)) | none => false)
noncomputable def clause12 : Bool := (match s3[1]? with | some (_, s) => (let tag : Byte := 9; (match (cmdS s : List (String × (Cmd)))[0]? with | some (_, c) => decide (s.starts 0x0A tag c) && decide (devState s = stIDLE) && decide (profileFree s = false) | none => false)) | none => false)
noncomputable def clause13 : Bool := (match s3[2]? with | some (_, s) => (let tag : Byte := 9; (match (cmdS s : List (String × (Cmd)))[0]? with | some (_, c) => decide (s.starts 0x16 tag c) && decide (devState s = stIDLE ∨ devState s = stWEAVING ∨ devState s = stHOLD) && decide (s.tod.armed = none ∨ c.aux = 0 ∧ (∀ e ∈ s.host.cmds, e.phase = .running → e.opcode ≠ 0x16)) && decide (c.op 0 < 2 ^ 40) && decide (c.op 1 = 1) | none => false)) | none => false)
noncomputable def clause14 : Bool := (match s3[3]? with | some (_, s) => (let tag : Byte := 9; (match (cmdS s : List (String × (Cmd)))[0]? with | some (_, c) => decide (s.starts 0x16 tag c) && decide (devState s = stIDLE ∨ devState s = stWEAVING ∨ devState s = stHOLD) && decide (s.tod.armed = none ∨ c.aux = 0 ∧ (∀ e ∈ s.host.cmds, e.phase = .running → e.opcode ≠ 0x16)) && decide (c.op 0 < 2 ^ 40) && decide (c.op 1 = 0) | none => false)) | none => false)
theorem witness_CommandStatesAndRegisters_1 : [clause1, clause2, clause3, clause4, clause5, clause6, clause7, clause8].all id = true := by decide +kernel
theorem witness_CommandStatesAndRegisters_2 : [clause11, clause12, clause13, clause14].all id = true := by decide +kernel
/-- A write and a read-modify-write of HST_MBX_CMD[0], a register whose writes have no rule of their own. -/
theorem witness_CommandStatesAndRegisters_write : regAt 0x480 = some (HST_MBX_CMD, 0) ∧
    HST_MBX_CMD.base ∉ [WFQ_HPOP.base, SYS_TIME_HI.base, WRP_BANK_DATA.base, DRM_MIG_STAT.base] ∧ HST_MBX_CMD.base ∉ windowBases ∧
    (∀ f ∈ HST_MBX_CMD.fields, f.ty = .rw) ∧ r0.sys.inReset = false ∧
    (cm 3 [0x480, 7]).mbx = false ∧ (c1 3 [0x480, 7] r0).starts 0x03 9 (cm 3 [0x480, 7]) ∧
    (cm 4 [0x480, 15, 7]).mbx = false ∧ (c1 4 [0x480, 15, 7] r0).starts 0x04 9 (cm 4 [0x480, 15, 7]) := ⟨rfl, by decide +kernel⟩
theorem witness_CommandStatesAndRegisters_plain (s : State) (v : Qword) :
    writeA .pcie HST_MBX_CMD.base 0 v s = none ∧ writeB .pcie HST_MBX_CMD.base 0 v s = none ∧
    writeC .pcie HST_MBX_CMD.base 0 v s = none ∧ writeD .pcie HST_MBX_CMD.base 0 v s = none := by
  refine ⟨rfl, rfl, rfl, rfl⟩

end WCommandStatesAndRegisters

namespace WWeaveAndHold
def rdy (s : State) : State := wr TRD_BANK_CFG_LENGTH 0 4 (wr TRD_BANK_CFG_ENTRY 0 2 (wr TRD_BANK_CFG_VALID 0 1 s))
def run (op : Nat) (s : State) : State := cmds [{ cm op [] with phase := .running }] s
def dirty (s : State) : State := wr TRD_PORT_KIND 3 2 (wr TRD_PORT_SLOT 3 9 (qf 70 2 { s with trd := { s.trd with flags := 5, lastTick := some 4, carried := [(1,2,3)] } }))
def cl (s : State) : State := { s with trd := { s.trd with closing := true, weaving := false } }
def ss : List (String × State) := named "ss" [c1 8 [] (rdy (st 3 r0)), c1 8 [] (rdy (dirty (st 3 r0))), c1 8 [] (st 3 r0), wr TRD_CTL_BANK 0 1 (c1 8 [] (rdy (st 3 r0))), c1 9 [] (wv [pk 7 [yy 6]] r0), cl (run 9 (wv [{ pk 7 [yy 6] with complete := some 5 }] r0)), cl (run 9 (wv [] r0)), c1 0xB [] (st 3 r0), run 0xB (st 3 (dirty r0)), c1 0xC [] (wr DRM_STAT_HELD 0 1 (st 5 r0)), c1 0xC [] (wr SYS_FAULT_ACTIVE 0 4 (wr DRM_STAT_HELD 0 1 (st 5 r0)))]
noncomputable def clause1 : Bool := (match (ss : List (String × (State)))[0]? with | some (_, s) => (let tag : Byte := 9; (match (cmdS s : List (String × (Cmd)))[0]? with | some (_, c) => decide (s.starts 0x08 tag c) && decide (devState s = stIDLE) && decide ((∀ e ∈ s.host.cmds, e.phase = .running → e.opcode ≠ 0x08)) && decide (weaveRefusal s = (0, 0)) && decide (bankOf s < 2) | none => false)) | none => false)
noncomputable def clause2 : Bool := (match (ss : List (String × (State)))[2]? with | some (_, s) => (let tag : Byte := 9; (match (cmdS s : List (String × (Cmd)))[0]? with | some (_, c) => decide (s.starts 0x08 tag c) && decide (devState s = stIDLE) && decide ((∀ e ∈ s.host.cmds, e.phase = .running → e.opcode ≠ 0x08)) && (match weaveRefusal s with | (k, _) => decide (k ≠ 0)) | none => false)) | none => false)
noncomputable def clause3 : Bool := (match (ss : List (String × (State)))[4]? with | some (_, s) => (let tag : Byte := 9; (match (cmdS s : List (String × (Cmd)))[0]? with | some (_, c) => decide (s.starts 0x09 tag c) && decide (devState s = stWEAVING) && decide (s.trd.closing = false) && decide (s.trd.set = none) | none => false)) | none => false)
noncomputable def clause4 : Bool := (match (ss : List (String × (State)))[5]? with | some (_, s) => (match (cmdS s : List (String × (Cmd)))[0]? with | some (_, c) => decide (s.host.cmds.filter (fun e => decide (e.opcode = 0x09 ∧ e.phase = .running)) = [c]) && decide (weaving s = true) && decide (s.trd.closing = true) && decide (s.trd.picks.all (fun x => x.complete.isSome) = true) && decide (s.host.deferredWeave = none) | none => false) | none => false)
noncomputable def clause5 : Bool := (match (ss : List (String × (State)))[7]? with | some (_, s) => (let tag : Byte := 9; (match (cmdS s : List (String × (Cmd)))[0]? with | some (_, c) => decide (s.starts 0x0B tag c) && decide (devState s = stIDLE) && decide (rd DRM_STAT_HELD 0 s = 0) | none => false)) | none => false)
noncomputable def clause6 : Bool := (match (ss : List (String × (State)))[8]? with | some (_, s) => (match (cmdS s : List (String × (Cmd)))[0]? with | some (_, c) => decide (s.host.cmds.filter (fun e => decide (e.opcode = 0x0B ∧ e.phase = .running)) = [c]) && decide (dramQuiet s = true) && decide (devState s = stIDLE) | none => false) | none => false)
noncomputable def clause7 : Bool := (match (ss : List (String × (State)))[9]? with | some (_, s) => (let tag : Byte := 9; (match (cmdS s : List (String × (Cmd)))[0]? with | some (_, c) => decide (s.starts 0x0C tag c) && decide (devState s = stHOLD) && decide (faultActive s = 0) | none => false)) | none => false)
noncomputable def clause8 : Bool := (match (ss : List (String × (State)))[10]? with | some (_, s) => (let tag : Byte := 9; (match (cmdS s : List (String × (Cmd)))[0]? with | some (_, c) => decide (s.starts 0x0C tag c) && decide (devState s = stHOLD) && decide (faultActive s ≠ 0) | none => false)) | none => false)
theorem witness_WeaveAndHold : [clause1, clause2, clause3, clause4, clause5, clause6, clause7, clause8].all id = true := by decide +kernel
end WWeaveAndHold

namespace WMaskCommands
def allServ (s : State) : State := (List.range 64).foldl (fun s j => wr CNV_STAT_STATE j 1 s) s
def b1 : State := (List.range 16).foldl (fun s p => wr PRT_STAT_STATE p 0 s) (allServ r0)
def okg (s : State) : State := enforce SYS_LINE_SHED_SHED_EVEN 24 (wr SYS_LINE_SHED_SHED_EVEN 24 5000 (wr GAU_SPAN_CELLS 6 10 (wr GAU_SHAPE_K 6 4 (wr GAU_SHAPE_W 6 8 (wr GAU_SHAPE_G 6 4 s)))))
def im : Img := { id := 1, instr := 100, tickEn := true, tick := 0, handlers := [], carryBase := 0, carryLen := 0 }
def se (n id : Nat) (s : State) : State := setEng 3 { pc := 5, img := some im } (wr SHT_ENG_STAT_IMAGE_ID 3 id (wr SHT_ENG_STAT_ENG_STATE 3 n (wr SHT_ENG_STAT_SERVES 3 1 (wr SHT_ENG_STAT_LOG 3 3 s))))
def cl (s : State) : State := { s with trd := { s.trd with closing := true, weaving := false } }
def ss : List (String × State) := named "ss" [c1 0x10 [64] (st 3 (okg b1)), c1 0x10 [64] (wr PRT_STAT_STATE 6 4 (st 3 (okg b1))), c1 0x11 [64] (st 3 b1), c1 0x11 [64] (wr PRT_STAT_STATE 6 1 (wv [] b1)), c1 0x12 [8] (st 3 (se 3 1 r0)), c1 0x12 [8] (st 3 (se 3 0 r0)), c1 0x13 [8] (st 3 (wr SHT_RUN_RUN 0 9 (se 3 0 r0))), c1 0x14 [] (wv [] r0), c1 0x14 [] (cl (wv [] r0))]
noncomputable def clause1 : Bool := (match (ss : List (String × (State)))[0]? with | some (_, s) => (let tag : Byte := 9; (match (cmdS s : List (String × (Cmd)))[0]? with | some (_, c) => decide ((∀ e ∈ s.host.cmds, e.phase = .running → e.opcode < 0x10 ∨ 0x13 < e.opcode)) && decide (c.got = 0) && decide (c.refused = 0) && decide (c.cancelled = 0) && decide (devState s = stIDLE ∨ devState s = stWEAVING) && (let p : Fin 16 := 6; decide (c.op 0 = 2 ^ p.val) && decide (s.starts 0x10 tag c) && decide (portSt p s = pSTOPPED) && decide (geomErr p s = 0) && decide (heddleLoad (some p) s ≤ 16 * periodOf s) && decide (startUnready p s = false) && decide (convCause p s = false)) | none => false)) | none => false)
noncomputable def clause2 : Bool := (match (ss : List (String × (State)))[1]? with | some (_, s) => (let tag : Byte := 9; (match (cmdS s : List (String × (Cmd)))[0]? with | some (_, c) => decide ((∀ e ∈ s.host.cmds, e.phase = .running → e.opcode < 0x10 ∨ 0x13 < e.opcode)) && decide (c.got = 0) && decide (c.refused = 0) && decide (c.cancelled = 0) && decide (devState s = stIDLE ∨ devState s = stWEAVING) && (let p : Fin 16 := 6; decide (c.op 0 = 2 ^ p.val) && decide (s.starts 0x10 tag c) && decide (portSt p s = pGATED)) | none => false)) | none => false)
noncomputable def clause3 : Bool := (match (ss : List (String × (State)))[2]? with | some (_, s) => (let tag : Byte := 9; (match (cmdS s : List (String × (Cmd)))[0]? with | some (_, c) => decide ((∀ e ∈ s.host.cmds, e.phase = .running → e.opcode < 0x10 ∨ 0x13 < e.opcode)) && decide (c.got = 0) && decide (c.refused = 0) && decide (c.cancelled = 0) && decide (devState s = stIDLE ∨ devState s = stWEAVING) && (let p : Fin 16 := 6; decide (c.op 0 = 2 ^ p.val) && decide (s.starts 0x11 tag c) && decide (portSt p s = pSTOPPED)) | none => false)) | none => false)
noncomputable def clause4 : Bool := (match (ss : List (String × (State)))[3]? with | some (_, s) => (let tag : Byte := 9; (match (cmdS s : List (String × (Cmd)))[0]? with | some (_, c) => decide ((∀ e ∈ s.host.cmds, e.phase = .running → e.opcode < 0x10 ∨ 0x13 < e.opcode)) && decide (c.got = 0) && decide (c.refused = 0) && decide (c.cancelled = 0) && decide (devState s = stIDLE ∨ devState s = stWEAVING) && (let p : Fin 16 := 6; decide (c.op 0 = 2 ^ p.val) && decide (s.starts 0x11 tag c) && decide (portSt p s = pRUNNING) && decide (weaving s = true)) | none => false)) | none => false)
noncomputable def clause5 : Bool := (match (ss : List (String × (State)))[4]? with | some (_, s) => (let tag : Byte := 9; (match (cmdS s : List (String × (Cmd)))[0]? with | some (_, c) => decide ((∀ e ∈ s.host.cmds, e.phase = .running → e.opcode < 0x10 ∨ 0x13 < e.opcode)) && decide (c.got = 0) && decide (c.refused = 0) && decide (c.cancelled = 0) && decide (devState s = stIDLE ∨ devState s = stWEAVING) && (let l : Fin 32 := 3; (let e : Nat := physOf l s; decide (c.op 0 = 2 ^ l.val) && decide (e < 34) && decide (s.starts 0x12 tag c) && decide (engSt e s = eSTOPPED) && decide (rd SHT_ENG_STAT_IMAGE_ID e s ≠ 0) && decide (psync l s = false))) | none => false)) | none => false)
noncomputable def clause6 : Bool := (match (ss : List (String × (State)))[5]? with | some (_, s) => (let tag : Byte := 9; (match (cmdS s : List (String × (Cmd)))[0]? with | some (_, c) => decide ((∀ e ∈ s.host.cmds, e.phase = .running → e.opcode < 0x10 ∨ 0x13 < e.opcode)) && decide (c.got = 0) && decide (c.refused = 0) && decide (c.cancelled = 0) && decide (devState s = stIDLE ∨ devState s = stWEAVING) && (let l : Fin 32 := 3; (let e : Nat := physOf l s; decide (c.op 0 = 2 ^ l.val) && decide (e < 34) && decide (s.starts 0x12 tag c) && decide (engSt e s = eSTOPPED) && decide (rd SHT_ENG_STAT_IMAGE_ID e s = 0))) | none => false)) | none => false)
noncomputable def clause7 : Bool := (match (ss : List (String × (State)))[6]? with | some (_, s) => (let tag : Byte := 9; (match (cmdS s : List (String × (Cmd)))[0]? with | some (_, c) => decide ((∀ e ∈ s.host.cmds, e.phase = .running → e.opcode < 0x10 ∨ 0x13 < e.opcode)) && decide (c.got = 0) && decide (c.refused = 0) && decide (c.cancelled = 0) && decide (devState s = stIDLE ∨ devState s = stWEAVING) && (let l : Fin 32 := 3; (let e : Nat := physOf l s; decide (c.op 0 = 2 ^ l.val) && decide (e < 34) && decide (s.starts 0x13 tag c) && decide (engSt e s = eSTOPPED) && decide (startPending l s = false))) | none => false)) | none => false)
noncomputable def clause8 : Bool := (match (ss : List (String × (State)))[7]? with | some (_, s) => (let tag : Byte := 9; (match (cmdS s : List (String × (Cmd)))[0]? with | some (_, c) => decide ((∀ e ∈ s.host.cmds, e.phase = .running → e.opcode < 0x10 ∨ 0x13 < e.opcode)) && decide (c.got = 0) && decide (c.refused = 0) && decide (c.cancelled = 0) && decide (devState s = stIDLE ∨ devState s = stWEAVING) && decide (s.starts 0x14 tag c) && decide (devState s = stWEAVING) && decide (s.trd.weaving = true) && decide (bankOf s < 2) | none => false)) | none => false)
noncomputable def clause9 : Bool := (match (ss : List (String × (State)))[8]? with | some (_, s) => (let tag : Byte := 9; (match (cmdS s : List (String × (Cmd)))[0]? with | some (_, c) => decide ((∀ e ∈ s.host.cmds, e.phase = .running → e.opcode < 0x10 ∨ 0x13 < e.opcode)) && decide (c.got = 0) && decide (c.refused = 0) && decide (c.cancelled = 0) && decide (devState s = stIDLE ∨ devState s = stWEAVING) && decide (s.starts 0x14 tag c) && decide (devState s = stWEAVING) && decide (s.trd.weaving = false) | none => false)) | none => false)
theorem witness_MaskCommands_1 : [clause1, clause2, clause3, clause4, clause5, clause6, clause7, clause8].all id = true := by decide +kernel
theorem witness_MaskCommands_2 : clause9 = true := by decide +kernel
end WMaskCommands

namespace WRequestCommands
def sw (w : EngSwap) (s : State) : State := { s with sht := { s.sht with swap := some w } }
def prep (s : State) : State := { s with reed := { s.reed with prep := some { slot := 3, bank := cb0, deferred := false, started := 5 } } }
def im : Img := { id := 1, instr := 100, tickEn := true, tick := 40, handlers := [some 70, none, some 80], carryBase := 0, carryLen := 0 }
def se (s : State) : State := setEng 33 { img := some im } (setEng 3 { img := some im } (wr SHT_ENG_STAT_ENG_STATE 33 2 (wr SHT_ENG_STAT_IMAGE_ID 3 1 (wr SHT_ENG_STAT_ENG_STATE 3 4 (wr SHT_ENG_STAT_SERVES 3 1 (wr SHT_ENG_STAT_LOG 3 3 s))))))
def vw (l sp m r : Nat) : Nat := (l * 2 ^ SHT_SWAP_LOG.lo + sp * 2 ^ SHT_SWAP_SPARE.lo + m * 2 ^ SHT_SWAP_MODE.lo + r * 2 ^ SHT_SWAP_RETIRE.lo)
def allServ (s : State) : State := (List.range 64).foldl (fun s j => wr CNV_STAT_STATE j 1 s) s
def b1 : State := wr CNV_GRP_STAT_SPARE 1 65 (wr CNV_STAT_STATE 65 3 (allServ r0))
def dmL (a b : Nat) : State := wr (chFld 0) 0 a (wr (chFld 1) 0 b (wr DRM_ORG_RANKS 0 2 (wr DRM_ORG_RANKS 1 2 (wr DRM_ORG_RANK_GIB 0 1 (wr DRM_ORG_RANK_GIB 1 1 (wr DRM_ORG_DENSITY 0 3 (wr DRM_ORG_DENSITY 1 3 (wr DRM_CAP_FRAMES 0 100 { r0 with dram := { r0.dram with poolRank := [(1, 4)], homeRk := [(0, 2), (1, 2)], gib := 1, hasSpare := true, spare := 5 } }))))))))
def dop (s : State) : State := { s with dram := { s.dram with op := some { kind := 1, ch := 0, rank := 1, toSpare := false, byCmd := false } } }
def swp (s : State) : State := { s with ports := { s.ports with swaps := s.ports.swaps.put none 1 (some { slot := 5, spare := 65, at_ := 300, byCmd := false }) } }
def rdc (s : State) : State := wr CNV_STAT_STATE 1 3 s
def ss : List (String × State) := named "ss" <| List.map (st 3) [c1 0x18 [3] r0, c1 0x18 [3] (prep r0), c1 0x19 [0x1600000, 3] (wr SHT_ENG_STAT_ENG_STATE 3 3 r0), c1 0x19 [0x1600000, 3] (se r0), c1 0x1A [vw 3 33 0 0] (se r0), c1 0x1B [0x10003] (wr PRT_STAT_STATE 4 1 b1), c1 0x1B [0x10003] b1, c1 0x1B [0x10003] (swp b1), c1 0x1C [0x580000, 0x580010] r0, c1 0x1C [5, 2] r0, c1 0x28 [0x301] (rdc r0), c1 0x28 [0x100] (rdc b1), c1 0x28 [4] r0, c1 0 [] r0, c1 1 [] r0, c1 0x16 [77, 0] r0, c1 0x16 [77, 1] r0, c1 0x30 [1] (dmL 1 1), c1 0x30 [0] (dop (dmL 1 1)), c1 0x31 [0] (wr DRM_ORG_RANK_GIB 1 32 (wr DRM_ORG_DENSITY 1 16 (dmL 3 1)))]
noncomputable def clause1 : Bool := (match (ss : List (String × (State)))[0]? with | some (_, s) => (let tag : Byte := 9; (match (cmdS s : List (String × (Cmd)))[0]? with | some (_, c) => (let k : Nat := c.op 0; decide (devState s = stIDLE ∨ devState s = stWEAVING) && decide (s.starts 0x18 tag c) && decide (k < 64) && decide (s.reed.prep = none) && decide (nCodeOf (bankFromBuffer s) ≤ 8192) && decide (reedFrozen s = false)) | none => false)) | none => false)
noncomputable def clause2 : Bool := (match (ss : List (String × (State)))[1]? with | some (_, s) => (let tag : Byte := 9; (match (cmdS s : List (String × (Cmd)))[0]? with | some (_, c) => (let k : Nat := c.op 0; decide (devState s = stIDLE ∨ devState s = stWEAVING) && decide (s.starts 0x18 tag c) && decide (k < 64) && decide (s.reed.prep ≠ none)) | none => false)) | none => false)
noncomputable def clause3 : Bool := (match (ss : List (String × (State)))[2]? with | some (_, s) => (let tag : Byte := 9; (match (cmdS s : List (String × (Cmd)))[0]? with | some (_, c) => decide (devState s = stIDLE ∨ devState s = stWEAVING) && (let e : Nat := 3; decide (s.starts 0x19 tag c) && decide (c.op 1 = e) && decide (e < 34) && decide (s.sht.load = none) && decide (s.sht.swap = none) && decide (engSt e s = eSTOPPED)) | none => false)) | none => false)
noncomputable def clause4 : Bool := (match (ss : List (String × (State)))[3]? with | some (_, s) => (let tag : Byte := 9; (match (cmdS s : List (String × (Cmd)))[0]? with | some (_, c) => decide (devState s = stIDLE ∨ devState s = stWEAVING) && (let e : Nat := 3; decide (s.starts 0x19 tag c) && decide (c.op 1 = e) && decide (e < 34) && decide (engSt e s = eRUNNING)) | none => false)) | none => false)
noncomputable def clause5 : Bool := (match (ss : List (String × (State)))[4]? with | some (_, s) => (let tag : Byte := 9; (match (cmdS s : List (String × (Cmd)))[0]? with | some (_, c) => (let k : Nat := c.op 0; decide (devState s = stIDLE ∨ devState s = stWEAVING) && (let v : Qword := BitVec.ofNat 64 k; (let l : Nat := SHT_SWAP_LOG.ofQ v; (let sp : Nat := SHT_SWAP_SPARE.ofQ v; decide (s.starts 0x1A tag c) && decide (engSwapReason l sp (SHT_SWAP_MODE.ofQ v) s = 0))))) | none => false)) | none => false)
noncomputable def clause6 : Bool := (match (ss : List (String × (State)))[5]? with | some (_, s) => (let tag : Byte := 9; (match (cmdS s : List (String × (Cmd)))[0]? with | some (_, c) => (let k : Nat := c.op 0; decide (devState s = stIDLE ∨ devState s = stWEAVING) && (let g : Nat := slice k 16 2; (let j : Nat := slice k 0 4; (let sp : Nat := rd CNV_GRP_STAT_SPARE g s; decide (s.starts 0x1B tag c) && decide (sp < 68) && decide (swapReason g j s = 0))))) | none => false)) | none => false)
noncomputable def clause7 : Bool := (match (ss : List (String × (State)))[7]? with | some (_, s) => (let tag : Byte := 9; (match (cmdS s : List (String × (Cmd)))[0]? with | some (_, c) => (let k : Nat := c.op 0; decide (devState s = stIDLE ∨ devState s = stWEAVING) && (let g : Nat := slice k 16 2; (let j : Nat := slice k 0 4; (let sp : Nat := rd CNV_GRP_STAT_SPARE g s; decide (s.starts 0x1B tag c) && decide (sp < 68) && decide (swapReason g j s ≠ 0))))) | none => false)) | none => false)
noncomputable def clause8 : Bool := (match (ss : List (String × (State)))[8]? with | some (_, s) => (let tag : Byte := 9; (match (cmdS s : List (String × (Cmd)))[0]? with | some (_, c) => (let k : Nat := c.op 0; decide (devState s = stIDLE ∨ devState s = stWEAVING) && decide (s.starts 0x1C tag c) && decide (fillRefused k (c.op 1) s = false)) | none => false)) | none => false)
noncomputable def clause9 : Bool := (match (ss : List (String × (State)))[9]? with | some (_, s) => (let tag : Byte := 9; (match (cmdS s : List (String × (Cmd)))[0]? with | some (_, c) => (let k : Nat := c.op 0; decide (devState s = stIDLE ∨ devState s = stWEAVING) && decide (s.starts 0x1C tag c) && decide (c.op 1 < k)) | none => false)) | none => false)
noncomputable def clause10 : Bool := (match (ss : List (String × (State)))[10]? with | some (_, s) => (let tag : Byte := 9; (match (cmdS s : List (String × (Cmd)))[0]? with | some (_, c) => (let k : Nat := c.op 0; decide (devState s = stIDLE ∨ devState s = stWEAVING) && (let kind : Nat := slice k 0 4; (let idx : Nat := slice k 8 8; decide (s.starts 0x28 tag c) && decide (calRunReason kind idx s = 0) && decide ((∀ e ∈ s.host.cmds, e.phase = .running → e.opcode ≠ 0x28)) && decide (s.cal.pairs.any (fun x => decide (x.kind = kind ∧ x.idx = idx)) = false)))) | none => false)) | none => false)
noncomputable def clause11 : Bool := (match (ss : List (String × (State)))[12]? with | some (_, s) => (let tag : Byte := 9; (match (cmdS s : List (String × (Cmd)))[0]? with | some (_, c) => (let k : Nat := c.op 0; decide (devState s = stIDLE ∨ devState s = stWEAVING) && (let kind : Nat := slice k 0 4; decide (s.starts 0x28 tag c) && decide (4 ≤ kind))) | none => false)) | none => false)
noncomputable def clause12 : Bool := (match (ss : List (String × (State)))[13]? with | some (_, s) => (let tag : Byte := 9; (match (cmdS s : List (String × (Cmd)))[0]? with | some (_, c) => decide (devState s = stIDLE ∨ devState s = stWEAVING) && decide (s.starts 0x00 tag c) | none => false)) | none => false)
noncomputable def clause13 : Bool := (match (ss : List (String × (State)))[14]? with | some (_, s) => (let tag : Byte := 9; (match (cmdS s : List (String × (Cmd)))[0]? with | some (_, c) => decide (devState s = stIDLE ∨ devState s = stWEAVING) && decide (s.starts 0x01 tag c) | none => false)) | none => false)
noncomputable def clause14 : Bool := (match (ss : List (String × (State)))[16]? with | some (_, s) => (let tag : Byte := 9; (match (cmdS s : List (String × (Cmd)))[0]? with | some (_, c) => decide (devState s = stIDLE ∨ devState s = stWEAVING) && decide (s.starts 0x16 tag c) && decide (s.tod.armed = none ∨ c.aux = 0 ∧ (∀ e ∈ s.host.cmds, e.phase = .running → e.opcode ≠ 0x16)) && decide (c.op 1 = 1) | none => false)) | none => false)
noncomputable def clause15 : Bool := (match (ss : List (String × (State)))[15]? with | some (_, s) => (let tag : Byte := 9; (match (cmdS s : List (String × (Cmd)))[0]? with | some (_, c) => decide (devState s = stIDLE ∨ devState s = stWEAVING) && decide (s.starts 0x16 tag c) && decide (s.tod.armed = none ∨ c.aux = 0 ∧ (∀ e ∈ s.host.cmds, e.phase = .running → e.opcode ≠ 0x16)) && decide (c.op 1 = 0) | none => false)) | none => false)
noncomputable def clause16 : Bool := (match (ss : List (String × (State)))[17]? with | some (_, s) => (let tag : Byte := 9; (match (cmdS s : List (String × (Cmd)))[0]? with | some (_, c) => (let k : Nat := c.op 0; decide (devState s = stIDLE ∨ devState s = stWEAVING) && decide (k < 2) && decide (s.starts 0x30 tag c) && decide (s.dram.op = none) && decide (chState 0 s = chSERVING) && decide (chState 1 s = chSERVING) && decide ((declaredChan k s).length ≤ (freeFrames (vacateRanks k s) s).length)) | none => false)) | none => false)
noncomputable def clause17 : Bool := (match (ss : List (String × (State)))[18]? with | some (_, s) => (let tag : Byte := 9; (match (cmdS s : List (String × (Cmd)))[0]? with | some (_, c) => (let k : Nat := c.op 0; decide (devState s = stIDLE ∨ devState s = stWEAVING) && decide (k < 2) && decide (s.starts 0x30 tag c) && decide (s.dram.op ≠ none)) | none => false)) | none => false)
noncomputable def clause18 : Bool := (match (ss : List (String × (State)))[19]? with | some (_, s) => (let tag : Byte := 9; (match (cmdS s : List (String × (Cmd)))[0]? with | some (_, c) => (let k : Nat := c.op 0; decide (devState s = stIDLE ∨ devState s = stWEAVING) && decide (k < 2) && (let pr : Bool := true; (let kn : Bool := true; (let rk : Fin 8 := 2; (let de : Fin 64 := 16; (let gi : Fin 256 := 32; (let tr : Fin 65536 := 100; (match spdOf pr kn rk de gi tr with | some x => decide (s.starts 0x31 tag c) && decide (s.dram.op = none) && decide (chState k s = chVACANT) && decide (orgSame k x s = true) | _ => false)))))))) | none => false)) | none => false)
theorem witness_RequestCommands_1 : [clause1, clause2, clause3, clause4, clause5, clause6, clause7, clause8].all id = true := by decide +kernel
theorem witness_RequestCommands_2 : [clause9, clause10, clause11, clause12, clause13, clause14, clause15, clause16].all id = true := by decide +kernel
theorem witness_RequestCommands_3 : [clause17, clause18].all id = true := by decide +kernel
end WRequestCommands

namespace WDramUpkeep
def D : State := reg0 0 1 3 (dm 1 1)
def rk (x : RankRef) (s : State) : State := onD (fun d => { d with ranks := d.ranks.put {} 1 x }) s
def enc (n : Nat) : Burst := encodeBurst ((List.range 64).map (fun i => (i * n) % 256))
def pt (n : Nat) (s : State) : State := wr DRM_CTL_SCRUB_EN 0 1 (dramPut n (enc 5) (onD (fun d => { d with patrol := n }) s))
def fill (l : List Nat) (s : State) : State := l.foldl (fun s b => dramPut b (enc b) s) s
def qd (o : Nat) (c : Nat) : State := rk { owed := o, count := c, due := 5000 } (onD (fun d => { d with rplBuf := [{ win := 0, pick := 3, addr := 2031 * 2 ^ 20, value := 7 }] }) (reg0 0 2045 3 (dm 1 1)))
def ss : List (String × State) := named "ss" [r0, rk {} D, qd 2 9, qd 4 9, qd 4 253, onD (fun d => { d with patrol := 99999 }) (wr DRM_CTL_SCRUB_EN 0 1 D), onD (fun d => { d with patrol := 0 }) (wr DRM_CTL_SCRUB_EN 0 1 r0), rk { owed := 4, count := 255 } D, rk { owed := 2, count := 253 } D, rk { owed := 2, count := 250, applied := 1 } D, rk { owed := 0, count := 255, applied := 1, drifted := false } D, wr DRM_STAT_HELD 0 1 D, onD (fun d => { d with wbs := [(5, enc 1), (9, enc 2), (5, enc 3)] }) D, rk { parFails := 3 } D, wr DRM_CTL_AUTO_RANK 0 1 (rk { parFails := 3 } D), wr DRM_CTL_SCRUB_EN 0 0 D, pt 5 D, pt 32767 D, fill ((List.range 64).map (fun i => 64 * 3 + i)) (onD (fun d => { d with retiring := [{ page := 3, pool := 1 }, { page := 9, pool := 2 }] }) D)]
noncomputable def clause1 : Bool := (match (ss : List (String × (State)))[0]? with | some (_, s) => (let k : Fin 8 := 1; decide (rankLive k s = false)) | none => false)
noncomputable def clause3 : Bool := (match (ss : List (String × (State)))[2]? with | some (_, s) => (let k : Fin 8 := 1; (let x : RankRef := rankRef k s; decide (rankLive k s = true) && decide (rplQueued k s = true) && decide (x.owed < 4))) | none => false)
noncomputable def clause4 : Bool := (match (ss : List (String × (State)))[3]? with | some (_, s) => (let k : Fin 8 := 1; (let x : RankRef := rankRef k s; decide (rankLive k s = true) && decide (rplQueued k s = true) && decide (4 ≤ x.owed))) | none => false)
noncomputable def clause5 : Bool := (match (ss : List (String × (State)))[1]? with | some (_, s) => (let k : Fin 8 := 1; (let x : RankRef := rankRef k s; decide (rankLive k s = true) && decide (rplQueued k s = false) && decide ((x.count + x.owed + 1) / 256 = x.count / 256))) | none => false)
noncomputable def clause6 : Bool := (match (ss : List (String × (State)))[7]? with | some (_, s) => (let k : Fin 8 := 1; (let x : RankRef := rankRef k s; (let d : BitVec 16 := 20; decide (rankLive k s = true) && decide (rplQueued k s = false) && decide (x.count / 256 < (x.count + x.owed + 1) / 256) && decide (12 < d.toInt.natAbs) && decide (x.drifted = false)))) | none => false)
noncomputable def clause7 : Bool := (match (ss : List (String × (State)))[1]? with | some (_, s) => (let k : Fin 8 := 1; decide (rankLive k s = true)) | none => false)
noncomputable def clause8 : Bool := (match (ss : List (String × (State)))[2]? with | some (_, s) => (let k : Fin 8 := 1; (let x : RankRef := rankRef k s; decide (rankLive k s = true) && decide (x.owed ≠ 0))) | none => false)
noncomputable def clause9 : Bool := (match (ss : List (String × (State)))[1]? with | some (_, s) => (let k : Fin 8 := 1; (let x : RankRef := rankRef k s; decide (rankLive k s = true) && decide (x.owed = 0))) | none => false)
noncomputable def clause11 : Bool := (match (ss : List (String × (State)))[12]? with | some (_, s) => (match s.dram.wbs with | (sb, _) :: _ => decide (dramHeld s = false) && decide (regionState (sb / 16384) s ≠ rgFILLING) && decide ((burstLoc sb s).1 < lostLoc) | _ => false) | none => false)
noncomputable def clause13 : Bool := (match (ss : List (String × (State)))[0]? with | some (_, s) => (let k : Fin 8 := 1; (let x : RankRef := rankRef k s; decide (x.parFails < 3))) | none => false)
noncomputable def clause14 : Bool := (match (ss : List (String × (State)))[13]? with | some (_, s) => (let k : Fin 8 := 1; (let x : RankRef := rankRef k s; decide (3 ≤ x.parFails) && decide (rdB DRM_CTL_AUTO_RANK 0 s = true) && decide (rankIsOut k s = false) && decide (k.val ∈ servingRanks s) && decide (s.dram.op = none))) | none => false)
noncomputable def clause15 : Bool := (match (ss : List (String × (State)))[15]? with | some (_, s) => decide (rdB DRM_CTL_SCRUB_EN 0 s = false) | none => false)
noncomputable def clause16 : Bool := (match (ss : List (String × (State)))[16]? with | some (_, s) => (match patrolBurst s.dram.patrol s with | some sb => decide (rdB DRM_CTL_SCRUB_EN 0 s = true) && decide (dramHeld s = false) && decide (decodeBurst (dramRaw sb s) = .clean) | _ => false) | none => false)
noncomputable def clause17 : Bool := (match (ss : List (String × (State)))[0]? with | some (_, s) => decide (rdB DRM_CTL_SCRUB_EN 0 s = true) && decide (dramHeld s = false) && decide (patrolBurst s.dram.patrol s = none) && decide (s.dram.patrol = 0) | none => false)
noncomputable def clause18 : Bool := (match (ss : List (String × (State)))[5]? with | some (_, s) => decide (rdB DRM_CTL_SCRUB_EN 0 s = true) && decide (dramHeld s = false) && decide (patrolBurst s.dram.patrol s = none) && decide (s.dram.patrol ≠ 0) | none => false)
theorem witness_DramUpkeep_1 : [clause1, clause3, clause4, clause5, clause6, clause7, clause8, clause9].all id = true := by decide +kernel
theorem witness_DramUpkeep_2 : [clause11, clause13, clause14, clause15, clause16, clause17, clause18].all id = true := by decide +kernel
theorem witness_DramUpkeep_pools (c : Nat) : Smap.get 0 D.dram.poolRank c < 8 := by
  have h : D.dram.poolRank = [(1, 4)] := by decide +kernel
  rw [h]; by_cases h1 : 1 = c <;> simp [Smap.get, Smap.find?, h1]
/-- A page of 64 clean bursts being retired. -/
def E19 : State := (List.range 64).foldl (fun s i => dramPut (192 + i) 0 s) (onD (fun d => { d with retiring := [{ page := 3, pool := 1 }] }) D)
theorem witness_DramUpkeep_retire : dramHeld E19 = false ∧ rankFrames E19 ≤ 65536 ∧ E19.dram.retiring = [{ page := 3, pool := 1 }] ∧
    ∀ i : Nat, i < 64 → decodeBurst (dramRaw (64 * 3 + i) E19) = .clean := by
  refine ⟨by decide +kernel, by decide +kernel, by decide +kernel, fun i hi => ?_⟩
  have h : (List.range 64).all (fun i => decide (dramRaw (64 * 3 + i) E19 = 0)) = true := by decide +kernel
  have hz := of_decide_eq_true (List.all_eq_true.mp h i (List.mem_range.mpr hi))
  rw [hz]; decide +kernel

end WDramUpkeep

namespace WDramOperations
def enc (n : Nat) : Burst := encodeBurst ((List.range 64).map (fun i => (i * n) % 256))
def D : State := reg0 0 1 3 (dm 1 1)
def D1 : State := reg0 1 1 3 (dm 1 1)
def one (s : State) : State := onD (fun d => { d with homeRk := [(0, 1), (1, 1)], hasSpare := false }) s
def op (o : DramOp) (s : State) : State := onD (fun d => { d with op := some o }) s
def fill (l : List Nat) (s : State) : State := l.foldl (fun s b => dramPut b (enc b) s) s
def small (s : State) : State := wr DRM_ORG_RANKS 0 1 (wr DRM_ORG_RANKS 1 1 (wr DRM_REGION_LIMIT 0 999 (wr DRM_CAP_FRAMES 0 1500 s)))
def spare (s : State) : State := wr DRM_STAT_SPARE_OK 0 1 (wr DRM_STAT_SPARE_CH 0 1 (wr DRM_STAT_SPARE_RANK 0 1 (onD (fun d => { d with hasSpare := true }) s)))
def cr (o : Nat) (s : State) : State := cmds [{ cm o [] with phase := .running, aux := 0 }] s
def ss : List (String × State) := named "ss" <| List.map (wr DRM_CTL_AUTO_RANK 0 0) [one <| wr DRM_REGION_LIMIT 0 1999 (wr DRM_ORG_RANKS 0 1 (wr DRM_ORG_RANKS 1 1 (wr DRM_CAP_FRAMES 0 2000 D))), D, spare D, op { kind := 1, ch := 0, rank := 1, toSpare := true, byCmd := false } (wr DRM_STAT_RANK_OUT 0 2 (spare D1)), op { kind := 1, ch := 0, rank := 1, toSpare := false, byCmd := false } (wr DRM_STAT_RANK_OUT 0 2 D1), dm 3 1, op { kind := 2, ch := 0, rank := 0, toSpare := false, byCmd := true } (cr 0x30 (reg0 1 1 3 (dm 2 1))), op { kind := 3, ch := 0, rank := 0, toSpare := false, byCmd := true } (cr 0x31 (reg0 0 1 3 (dm 4 1))), wr DRM_ORG_RANK_GIB 1 32 (wr DRM_ORG_DENSITY 1 16 (dm 3 1)), reg0 0 1 1 (dm 1 1), wr DRM_STAT_FILL_BUSY 0 1 D, wr DRM_STAT_FILL_BUSY 0 1 (reg0 0 1 2 (fill [0,5,70] D)), op { kind := 1, ch := 0, rank := 1, toSpare := true, byCmd := false } (onD (fun d => { d with bmap := [] }) (wr DRM_STAT_RANK_OUT 0 1 (spare D1)))]
def vs : List (String × Qword) := ([0, 1, 64, 65, 2 ^ DRM_REGION_CTL_EN.lo + 0x40000, 2 ^ DRM_REGION_CTL_EN.lo] : List Nat).map (fun v => ("v" ++ toString v, BitVec.ofNat 64 v))
def D5 : State := wr DRM_REGION_LIMIT 0 1 (wr DRM_CAP_FRAMES 0 2 (onD (fun d => { d with homeRk := [(0, 1)], hasSpare := false }) D))
noncomputable def clause1 : Bool := (match (ss : List (String × (State)))[0]? with | some (_, s) => (match (vs : List (String × (Qword)))[0]? with | some (_, v) => (let c : Nat := v.toNat % 2; (let k : Nat := 4 * c + slice v.toNat 6 2; decide (s.dram.op = none) && decide (k ∈ servingRanks s) && decide (s.sys.inReset = false))) | none => false) | none => false)
noncomputable def clause2 : Bool := (match (ss : List (String × (State)))[0]? with | some (_, s) => (match (vs : List (String × (Qword)))[2]? with | some (_, v) => (let c : Nat := v.toNat % 2; (let k : Nat := 4 * c + slice v.toNat 6 2; decide (s.dram.op = none) && decide (k ∉ servingRanks s) && decide (s.sys.inReset = false))) | none => false) | none => false)
noncomputable def clause3 : Bool := (match (ss : List (String × (State)))[3]? with | some (_, s) => decide (s.dram.op ≠ none) && decide (s.sys.inReset = false) | none => false)
noncomputable def clause4 : Bool := (match (ss : List (String × (State)))[1]? with | some (_, s) => (match (vs : List (String × (Qword)))[0]? with | some (_, v) => (let c : Nat := v.toNat % 2; decide (s.dram.op = none) && decide (chState 0 s = chSERVING) && decide (chState 1 s = chSERVING) && decide ((declaredChan c s).length ≤ (freeFrames (vacateRanks c s) s).length) && decide (s.sys.inReset = false)) | none => false) | none => false)
noncomputable def clause5 : Bool := (match [("D5", D5)][0]? with | some (_, s) => (match (vs : List (String × (Qword)))[0]? with | some (_, v) => (let c : Nat := v.toNat % 2; decide (s.dram.op = none) && decide (chState 0 s = chSERVING) && decide (chState 1 s = chSERVING) && decide ((freeFrames (vacateRanks c s) s).length < (declaredChan c s).length) && decide (s.sys.inReset = false)) | none => false) | none => false)
noncomputable def clause6 : Bool := (match (ss : List (String × (State)))[8]? with | some (_, s) => (match (vs : List (String × (Qword)))[0]? with | some (_, v) => (let c : Nat := v.toNat % 2; (let pr : Bool := true; (let kn : Bool := true; (let rk : Fin 8 := 2; (let de : Fin 64 := 16; (let gi : Fin 256 := 32; (let tr : Fin 65536 := 100; decide (s.dram.op = none) && (match spdOf pr kn rk de gi tr with | some x => decide (chState c s = chVACANT) && decide (orgSame c x s = true) && decide (s.sys.inReset = false) | _ => false)))))))) | none => false) | none => false)
noncomputable def clause7 : Bool := (match (ss : List (String × (State)))[5]? with | some (_, s) => (match (vs : List (String × (Qword)))[0]? with | some (_, v) => (let c : Nat := v.toNat % 2; (let pr : Bool := false; (let kn : Bool := true; (let rk : Fin 8 := 2; (let de : Fin 64 := 16; (let gi : Fin 256 := 32; (let tr : Fin 65536 := 100; decide (s.dram.op = none) && decide (chState c s = chVACANT) && decide (spdOf pr kn rk de gi tr = none) && decide (s.sys.inReset = false)))))))) | none => false) | none => false)
noncomputable def clause8 : Bool := (match (ss : List (String × (State)))[0]? with | some (_, s) => decide (s.dram.op = none) | none => false)
noncomputable def clause11 : Bool := (match (ss : List (String × (State)))[3]? with | some (_, s) => (match s.dram.op with | some o => decide (dramHeld s = false) && decide (s.dram.rankWait = []) && decide (rdB DRM_CTL_AUTO_RANK 0 s = false) && decide (o.ch < 2) && decide (o.kind = 1) && decide (o.toSpare = true) | _ => false) | none => false)
noncomputable def clause12 : Bool := (match (ss : List (String × (State)))[4]? with | some (_, s) => (match s.dram.op with | some o => decide (dramHeld s = false) && decide (s.dram.rankWait = []) && decide (rdB DRM_CTL_AUTO_RANK 0 s = false) && decide (o.ch < 2) && decide (o.kind = 1) && decide (o.toSpare = false) | _ => false) | none => false)
noncomputable def clause13 : Bool := (match (ss : List (String × (State)))[6]? with | some (_, s) => (match s.dram.op with | some o => decide (dramHeld s = false) && decide (s.dram.rankWait = []) && decide (rdB DRM_CTL_AUTO_RANK 0 s = false) && decide (o.ch < 2) && decide (o.kind = 2) | _ => false) | none => false)
noncomputable def clause14 : Bool := (match (ss : List (String × (State)))[7]? with | some (_, s) => (match s.dram.op with | some o => decide (dramHeld s = false) && decide (s.dram.rankWait = []) && decide (rdB DRM_CTL_AUTO_RANK 0 s = false) && decide (o.ch < 2) && (let er : Fin 65 := 5; decide (o.kind = 3) && decide (er.val < 20)) | _ => false) | none => false)
noncomputable def clause15 : Bool := (match (ss : List (String × (State)))[7]? with | some (_, s) => (match s.dram.op with | some o => decide (dramHeld s = false) && decide (s.dram.rankWait = []) && decide (rdB DRM_CTL_AUTO_RANK 0 s = false) && decide (o.ch < 2) && (let er : Fin 65 := 20; (let ew : Fin 65 := 20; decide (o.kind = 3) && decide (20 ≤ er.val) && decide (20 ≤ ew.val))) | _ => false) | none => false)
noncomputable def clause16 : Bool := (match (ss : List (String × (State)))[0]? with | some (_, s) => (match (vs : List (String × (Qword)))[1]? with | some (_, v) => (let r : Fin 8 := 0; decide (s.sys.inReset = false) && decide (DRM_REGION_CTL_EN.ofQ v = 1) && decide (rd DRM_REGION_CTL_EN r s = 1) && decide (rd DRM_STAT_FILL_BUSY 0 s = 0) && decide (s.dram.op = none) && decide (weaving s = false)) | none => false) | none => false)
noncomputable def clause17 : Bool := (match (ss : List (String × (State)))[10]? with | some (_, s) => (match (vs : List (String × (Qword)))[1]? with | some (_, v) => (let r : Fin 8 := 0; decide (s.sys.inReset = false) && decide (DRM_REGION_CTL_EN.ofQ v = 1) && decide (rd DRM_REGION_CTL_EN r s = 1) && decide (rd DRM_STAT_FILL_BUSY 0 s = 1)) | none => false) | none => false)
noncomputable def clause18 : Bool := (match (ss : List (String × (State)))[11]? with | some (_, s) => (let r : Nat := 0; decide (r < 8) && decide ((∀ q : Nat, q < 8 → (rd DRM_REGION_CTL_STATE q s = rgFILLING ↔ q = r))) && decide (dramHeld s = false) && decide (s.dram.remap = []) && decide (s.dram.fillKeep = [])) | none => false)
theorem witness_DramOperations_1 : [clause1, clause2, clause3, clause4, clause5, clause6, clause7, clause8].all id = true := by decide +kernel
theorem witness_DramOperations_2 : [clause11, clause12, clause13, clause14, clause15, clause16, clause17, clause18].all id = true := by decide +kernel
end WDramOperations

namespace WMoverAndWindows
def enc (n : Nat) : Burst := encodeBurst ((List.range 64).map (fun i => (i * n + 3) % 256))
def fill (l : List Nat) (s : State) : State := l.foldl (fun s b => dramPut b (enc b) s) s
def D : State := fill [0,1,2] (reg0 0 1 3 (dm 1 1))
def mv (m : Move) (s : State) : State := wr DRM_STAT_MOVE_BUSY 0 1 (onD (fun d => { d with move := some m }) s)
def it (n : Nat) : QItem := { pri := 5, word := encodeWord n }
def rq (q a b c : Nat) (s : State) : State := { s with queues := s.queues.put {} q { items := [it a, it b, it c, it 9] } }
def m0 : Move := { dir := false, reply := 0, tag := 5, len := 9, addr := 61, word := 0x1600010 }
def mk (dir reply len : Nat) : Nat := dir * 2^47 + reply * 2^39 + 5 * 2^23 + 0x2A * 2^17 + (len - 1)
def rpl (en : Nat) (s : State) : State := wr GAU_SPAN_CELLS 6 100 (wr DRM_RPL_EN 1 en (wr DRM_RPL_PORT 1 6 (wr DRM_RPL_CELLS 1 10 (wr DRM_RPL_FIRST 1 5 (wr DRM_RPL_RING_DEPTH 1 4 (wr DRM_RPL_RING_BASE 1 0 s))))))
def vv (en cells : Nat) : Nat := en * 2 ^ DRM_RPL_EN.lo + 6 * 2 ^ DRM_RPL_PORT.lo + cells * 2 ^ DRM_RPL_CELLS.lo + 5 * 2 ^ DRM_RPL_FIRST.lo
def vs : List (String × Qword) := ([0, vv 0 10, vv 1 10, vv 1 20, vv 0 20] : List Nat).map (fun v => ("v" ++ toString v, BitVec.ofNat 64 v))
def ss : List (String × State) := named "ss" [D, rq (moveQueue 0 D) (mk 0 70 9) 61 0x1600010 D, rq (moveQueue 0 D) (mk 1 70 9) 61 0x1600010 D, rq (moveQueue 0 D) 5 61 0x1600010 D, mv m0 D, mv { m0 with dir := true } D, mv { m0 with reply := 70 } D, wr WFQ_CFG_CAP 70 2 (qf 70 2 (mv { m0 with reply := 70 } D)), mv { m0 with len := 1, addr := 64 } D, rpl 0 D, rpl 1 D, rpl 0 r0]
noncomputable def clause1 : Bool := (match (ss : List (String × (State)))[4]? with | some (_, s) => decide (s.dram.move.isSome = true) | none => false)
noncomputable def clause2 : Bool := (match (ss : List (String × (State)))[1]? with | some (_, s) => (match ((((queueOf (moveQueue 0 s) s).items.drop 0).take 1).map (fun i => ("i", i)) : List (String × (QItem)))[0]? with | some (_, i0) => (match ((((queueOf (moveQueue 0 s) s).items.drop 1).take 1).map (fun i => ("i", i)) : List (String × (QItem)))[0]? with | some (_, i1) => (match ((((queueOf (moveQueue 0 s) s).items.drop 2).take 1).map (fun i => ("i", i)) : List (String × (QItem)))[0]? with | some (_, i2) => (match ([("r", (queueOf (moveQueue 0 s) s).items.drop 3)] : List (String × (List QItem)))[0]? with | some (_, r) => (let q : Nat := moveQueue 0 s; (match decodeWord i0.word with | .clean d0 => (match decodeWord i1.word with | .clean d1 => (match decodeWord i2.word with | .clean d2 => decide (s.dram.move = none) && decide (dramHeld s = false) && decide (s.dram.turn = false) && decide (s.dram.skip = []) && decide ((queueOf q s).items = i0 :: i1 :: i2 :: r) && decide ((∀ i ∈ [i0, i1, i2], i.linkBad = false)) && decide (moveMarker d0 = true) && decide (moveAllowed (d1 % 2 ^ 38) (6 * (d0 % 2 ^ 17 + 1)) s = true) && decide (0x1600000 ≤ d2) && decide (d2 + (d0 % 2 ^ 17 + 1) ≤ 0x1800000) && decide (d1 < 2 ^ 38) | _ => false) | _ => false) | _ => false)) | none => false) | none => false) | none => false) | none => false) | none => false)
noncomputable def clause3 : Bool := (match (ss : List (String × (State)))[3]? with | some (_, s) => (match ((((queueOf (moveQueue 0 s) s).items.drop 0).take 1).map (fun i => ("i", i)) : List (String × (QItem)))[0]? with | some (_, i0) => (match ((((queueOf (moveQueue 0 s) s).items.drop 1).take 1).map (fun i => ("i", i)) : List (String × (QItem)))[0]? with | some (_, i1) => (match ((((queueOf (moveQueue 0 s) s).items.drop 2).take 1).map (fun i => ("i", i)) : List (String × (QItem)))[0]? with | some (_, i2) => (match ([("r", (queueOf (moveQueue 0 s) s).items.drop 3)] : List (String × (List QItem)))[0]? with | some (_, r) => (let q : Nat := moveQueue 0 s; (match decodeWord i0.word with | .clean d0 => (match decodeWord i1.word with | .clean _ => (match decodeWord i2.word with | .clean _ => decide (s.dram.move = none) && decide (dramHeld s = false) && decide (s.dram.turn = false) && decide (s.dram.skip = []) && decide ((queueOf q s).items = i0 :: i1 :: i2 :: r) && decide ((∀ i ∈ [i0, i1, i2], i.linkBad = false)) && decide (moveMarker d0 = false) | _ => false) | _ => false) | _ => false)) | none => false) | none => false) | none => false) | none => false) | none => false)
noncomputable def clause4 : Bool := (match (ss : List (String × (State)))[0]? with | some (_, s) => decide (s.dram.move = none) | none => false)
noncomputable def clause5 : Bool := (match (ss : List (String × (State)))[7]? with | some (_, s) => (match s.dram.move with | some m => decide (64 ≤ m.reply) && decide (qRoom m.reply s = 0) | _ => false) | none => false)
noncomputable def clause6 : Bool := (match (ss : List (String × (State)))[4]? with | some (_, s) => (match s.dram.move with | some m => decide (m.reply < 64 ∨ 0 < qRoom m.reply s) | _ => false) | none => false)
noncomputable def clause7 : Bool := (match (ss : List (String × (State)))[4]? with | some (_, s) => (match s.dram.move with | some m => decide (m.reply < 64) && decide (m.refused = false) && decide (m.dir = false) && decide (0x1600000 ≤ m.word) && decide (m.word + m.len ≤ 0x1800000) && decide (s.warp.rowMap = []) && decide (s.warp.fill = none) && decide (s.warp.repair = none) && decide (rdB WRP_INJ_ADDR_ARM 0 s = false) && decide ((∀ sb : Nat, m.addr / 64 ≤ sb → sb ≤ (m.addr + 6 * m.len) / 64 → decodeBurst (dramRaw sb s) = .clean)) | _ => false) | none => false)
noncomputable def clause8 : Bool := (match (ss : List (String × (State)))[0]? with | some (_, s) => (let w : Fin 4 := 1; (match (vs : List (String × (Qword)))[0]? with | some (_, v) => decide (s.sys.inReset = false) && decide (rd DRM_RPL_EN w s = 0) && decide (DRM_RPL_EN.ofQ v = 0) | none => false)) | none => false)
noncomputable def clause9 : Bool := (match (ss : List (String × (State)))[9]? with | some (_, s) => (let w : Fin 4 := 1; (match (vs : List (String × (Qword)))[2]? with | some (_, v) => decide (s.sys.inReset = false) && decide ((∀ f ∈ [DRM_RPL_PORT, DRM_RPL_CELLS, DRM_RPL_FIRST], f.ofQ v = rd f w s)) && decide (rd DRM_RPL_EN w s = 0) && decide (DRM_RPL_EN.ofQ v = 1) && decide (rplValid w s = true) | none => false)) | none => false)
noncomputable def clause10 : Bool := (match (ss : List (String × (State)))[11]? with | some (_, s) => (let w : Fin 4 := 1; (match (vs : List (String × (Qword)))[2]? with | some (_, v) => decide (s.sys.inReset = false) && decide ((∀ f ∈ [DRM_RPL_PORT, DRM_RPL_CELLS, DRM_RPL_FIRST], f.ofQ v = rd f w s)) && decide (rd DRM_RPL_EN w s = 0) && decide (DRM_RPL_EN.ofQ v = 1) && decide (rplValid w s = false) | none => false)) | none => false)
noncomputable def clause11 : Bool := (match (ss : List (String × (State)))[10]? with | some (_, s) => (let w : Fin 4 := 1; (match (vs : List (String × (Qword)))[1]? with | some (_, v) => decide (s.sys.inReset = false) && decide ((∀ f ∈ [DRM_RPL_PORT, DRM_RPL_CELLS, DRM_RPL_FIRST], f.ofQ v = rd f w s)) && decide (rd DRM_RPL_EN w s = 1) && decide (DRM_RPL_EN.ofQ v = 0) | none => false)) | none => false)
noncomputable def clause12 : Bool := (match (ss : List (String × (State)))[10]? with | some (_, s) => (let w : Fin 4 := 1; (match (vs : List (String × (Qword)))[3]? with | some (_, v) => decide (s.sys.inReset = false) && decide (rd DRM_RPL_EN w s = 1) && decide (DRM_RPL_EN.ofQ v = 1) && decide (DRM_RPL_CELLS.ofQ v ≠ rd DRM_RPL_CELLS w s) | none => false)) | none => false)
theorem witness_MoverAndWindows_1 : [clause1, clause2, clause3, clause4, clause5, clause6, clause7, clause8].all id = true := by decide +kernel
theorem witness_MoverAndWindows_2 : [clause9, clause10, clause11, clause12].all id = true := by decide +kernel
end WMoverAndWindows

namespace WSourceChannels
def prepd (s : State) : State := { s with trd := { s.trd with set := some { beatPick := 3, prepared := true } } }
def ch (x : Chan) (s : State) : State := { s with src := { s.src with chans := s.src.chans.put {} 2 x } }
def md (m p stt : Nat) (s : State) : State := wr SRC_CUR_MODE_MODE 2 m (wr SRC_CUR_STAT_PRESENT 2 p (wr SRC_CUR_STAT_STATE 2 stt s))
def perm (s : State) : State := wr SRC_CTL_PERMIT 0 1 (wr SRC_STAT_SRCEN 0 1 s)
def f0 : Fade := { start := 1000, target := 5000, shape := true, tf := 100, at_ := 50, step := 7 }
def ss : List (String × State) := named "ss" ([r0, wv [] r0, prepd (wv [] r0), wr SRC_CUR_STAT_STATE 2 2 r0, wr SRC_CUR_STAT_STATE 2 1 (wr SRC_CUR_STAT_PRESENT 2 77 r0), md 1 500 1 r0, md 1 0 1 r0, md 0 0 0 (perm r0), md 1 0 2 r0, ch { cleared := true } (md 0 0 2 r0), ch { cleared := true } (md 0 0 2 (perm r0)), ch { fade := some f0 } r0, ch { fade := some { f0 with step := 100 } } r0, ch { fade := some { f0 with shape := false, start := 6000 } } r0]
 ++ [0,1,2].flatMap (fun k => [ch { lastKind := k } (md 1 5000 1 r0), ch { lastKind := k, fade := some f0 } (md 1 5000 1 (perm r0))]) ++ [ch { onEnd := some 900, launches := 3 } (md 2 5000 1 r0), ch { onEnd := some 900, launches := 3, lastKind := 2 } (md 2 5000 1 r0), ch { proofAt := some 900 } (md 2 5000 1 r0), ch { proofAt := some 900 } (md 1 5000 1 r0), ch { proofAt := some 900 } (wr SRC_CUR_MODE_PROOF_I 2 55 (md 2 5000 1 r0))])
def vs : List (String × Qword) := ([0, 0xFFFFFFFFFFFFFFFF, 0x123456789ABCDEF0, 2 ^ SRC_CUR_MODE_MODE.lo, 3 * 2 ^ SRC_CUR_MODE_MODE.lo, 2 * 2 ^ SRC_CUR_MODE_MODE.lo, 30000 * 2 ^ SRC_CUR_SET.lo + 500 * 2 ^ SRC_CUR_FADE.lo + 2 ^ SRC_CUR_SHAPE.lo] : List Nat).map (fun v => ("v" ++ toString v, BitVec.ofNat 64 v))
noncomputable def clause1 : Bool := (match (ss : List (String × (State)))[1]? with | some (_, s) => decide (weaving s = true) && decide (setPrepared s = false) && decide (s.sys.inReset = false) | none => false)
noncomputable def clause2 : Bool := (match (ss : List (String × (State)))[2]? with | some (_, s) => decide (weaving s = true) && decide (setPrepared s = true) && decide (s.sys.inReset = false) | none => false)
noncomputable def clause3 : Bool := (match (ss : List (String × (State)))[0]? with | some (_, s) => (let c : Fin 8 := 2; decide (weaving s = false) && decide (rd SRC_CUR_STAT_STATE c s < 2) && decide (s.sys.inReset = false)) | none => false)
noncomputable def clause4 : Bool := (match (ss : List (String × (State)))[3]? with | some (_, s) => (let c : Fin 8 := 2; decide (weaving s = false) && decide (rd SRC_CUR_STAT_STATE c s = 2 ∨ rd SRC_CUR_STAT_STATE c s = 3) && decide (s.sys.inReset = false)) | none => false)
noncomputable def clause5 : Bool := (match (ss : List (String × (State)))[0]? with | some (_, s) => (let c : Fin 8 := 2; (match (vs : List (String × (Qword)))[0]? with | some (_, v) => (let m : Nat := SRC_CUR_MODE_MODE.ofQ v; decide (m = rd SRC_CUR_MODE_MODE c s) && decide (s.sys.inReset = false)) | none => false)) | none => false)
noncomputable def clause6 : Bool := (match (ss : List (String × (State)))[4]? with | some (_, s) => (let c : Fin 8 := 2; (match (vs : List (String × (Qword)))[1]? with | some (_, v) => (let m : Nat := SRC_CUR_MODE_MODE.ofQ v; decide (m ≠ rd SRC_CUR_MODE_MODE c s) && decide (rd SRC_CUR_STAT_PRESENT c s ≠ 0) && decide (s.sys.inReset = false)) | none => false)) | none => false)
noncomputable def clause7 : Bool := (match (ss : List (String × (State)))[0]? with | some (_, s) => (let c : Fin 8 := 2; (match (vs : List (String × (Qword)))[1]? with | some (_, v) => (let m : Nat := SRC_CUR_MODE_MODE.ofQ v; decide (m ≠ rd SRC_CUR_MODE_MODE c s) && decide (rd SRC_CUR_STAT_PRESENT c s = 0) && decide (chanFault c s = false) && decide (s.sys.inReset = false)) | none => false)) | none => false)
noncomputable def clause8 : Bool := (match (ss : List (String × (State)))[8]? with | some (_, s) => (let c : Fin 8 := 2; (match (vs : List (String × (Qword)))[0]? with | some (_, v) => (let m : Nat := SRC_CUR_MODE_MODE.ofQ v; decide (m ≠ rd SRC_CUR_MODE_MODE c s) && decide (rd SRC_CUR_STAT_PRESENT c s = 0) && decide (chanFault c s = true) && decide (m = 0) && decide (s.sys.inReset = false)) | none => false)) | none => false)
noncomputable def clause9 : Bool := (match (ss : List (String × (State)))[9]? with | some (_, s) => (let c : Fin 8 := 2; (match (vs : List (String × (Qword)))[1]? with | some (_, v) => (let m : Nat := SRC_CUR_MODE_MODE.ofQ v; decide (m ≠ rd SRC_CUR_MODE_MODE c s) && decide (rd SRC_CUR_STAT_PRESENT c s = 0) && decide (chanFault c s = true) && decide (m ≠ 0) && decide ((chanOf c s).cleared = true) && decide (s.sys.inReset = false)) | none => false)) | none => false)
noncomputable def clause10 : Bool := (match (ss : List (String × (State)))[0]? with | some (_, s) => (let c : Fin 8 := 2; decide ((chanOf c s).fade = none)) | none => false)
noncomputable def clause11 : Bool := (match (ss : List (String × (State)))[11]? with | some (_, s) => (let c : Fin 8 := 2; (match (chanOf c s).fade with | some f => decide (f.step < f.tf) | _ => false)) | none => false)
noncomputable def clause12 : Bool := (match (ss : List (String × (State)))[12]? with | some (_, s) => (let c : Fin 8 := 2; (match (chanOf c s).fade with | some f => decide (f.step = f.tf) && decide (f.target < 65536) | _ => false)) | none => false)
noncomputable def clause13 : Bool := (match (ss : List (String × (State)))[5]? with | some (_, s) => (let c : Fin 8 := 2; (let vc : Fin 65536 := 200; (let cu : Fin 65536 := 100; (let k : Nat := chanFinding vc cu (rd SRC_CUR_STAT_PRESENT c s); decide (chanMode c s = 1) && decide (400 ≤ rd SRC_CUR_STAT_PRESENT c s) && decide (k = 0 ∨ k ≠ (chanOf c s).lastKind))))) | none => false)
noncomputable def clause14 : Bool := (match (ss : List (String × (State)))[16]? with | some (_, s) => (let c : Fin 8 := 2; (let vc : Fin 65536 := 4600; (let cu : Fin 65536 := 100; (let k : Nat := chanFinding vc cu (rd SRC_CUR_STAT_PRESENT c s); decide (chanMode c s = 1) && decide (400 ≤ rd SRC_CUR_STAT_PRESENT c s) && decide (k ≠ 0) && decide (k = (chanOf c s).lastKind))))) | none => false)
noncomputable def clause15 : Bool := (match (ss : List (String × (State)))[0]? with | some (_, s) => (let c : Fin 8 := 2; decide (chanMode c s = 0) && decide ((chanOf c s).onEnd = none)) | none => false)
noncomputable def clause16 : Bool := (match (ss : List (String × (State)))[20]? with | some (_, s) => (let c : Fin 8 := 2; (match (chanOf c s).onEnd with | some _ => decide (chanMode c s = 2) | _ => false)) | none => false)
noncomputable def clause17 : Bool := (match (ss : List (String × (State)))[0]? with | some (_, s) => (let c : Fin 8 := 2; decide ((chanOf c s).proofAt = none)) | none => false)
noncomputable def clause18 : Bool := (match (ss : List (String × (State)))[23]? with | some (_, s) => (let c : Fin 8 := 2; decide ((chanOf c s).proofAt ≠ none) && decide (chanMode c s ≠ 2)) | none => false)
noncomputable def clause19 : Bool := (match (ss : List (String × (State)))[22]? with | some (_, s) => (let c : Fin 8 := 2; (match (chanOf c s).proofAt with | some _ => decide (chanMode c s = 2) | _ => false)) | none => false)
theorem witness_SourceChannels_1 : [clause1, clause2, clause3, clause4, clause5, clause6, clause7, clause8].all id = true := by decide +kernel
theorem witness_SourceChannels_2 : [clause9, clause10, clause11, clause12, clause13, clause14, clause15, clause16].all id = true := by decide +kernel
theorem witness_SourceChannels_3 : [clause17, clause18, clause19].all id = true := by decide +kernel
end WSourceChannels

namespace WSourcePermissionAndBus
def perm (s : State) : State := wr SRC_STAT_HBEAT_RUN 0 1 (wr SRC_CTL_PERMIT 0 1 (wr SRC_STAT_SRCEN 0 1 s))
def chs (s : State) : State := wr SRC_CUR_MODE_MODE 2 1 (wr SRC_CUR_STAT_PRESENT 2 500 (wr SRC_CUR_STAT_STATE 2 1 (wr SRC_CUR_MODE_MODE 3 2 (wr SRC_CUR_STAT_STATE 3 2 (wr SRC_CUR_SET 2 9000 s)))))
def onS (f : Source → Source) (s : State) : State := { s with src := f s.src }
def xf (k : XferKind) (a : Nat) (stt : Bool) (ack : Nat) : Xfer := { kind := k, line := 50, cs := 3, len := 4, data := 0x11223344, attempts := a, status := stt, due := 900, ack := ack, mask := 0xFF, val := 0x11, retries := 2 }
def bus (k : XferKind) (a : Nat) (stt : Bool) (ack : Nat) (s : State) : State := wr SRC_CS_ACK_MASK 3 0xFF (wr SRC_CS_ACK_VAL 3 0x11 (wr SRC_CS_ACK_CMD 3 0x77 (wr SRC_CS_RETRIES 3 2 (wr SRC_CS_ACK 3 ack (onS (fun x => { x with bus := some (xf k a stt ack) }) s)))))
def ss : List (String × State) := named "ss" ([r0, perm r0, perm (chs r0), wr SRC_CTL_PERMIT 0 1 r0, onS (fun x => { x with intlkLow := true }) r0, st 3 (chs r0), st 3 (perm (chs r0)), onS (fun x => { x with hbeatAt := 1000 }) (perm r0), onS (fun x => { x with blankUntil := [(6, 700)] }) r0, wr SRC_LAUNCH_MON_EN 6 0 (wv [pk 7 [yy 6]] r0), wr SRC_LAUNCH_MON_EN 6 1 (wv [pk 7 [yy 6]] r0), wr PRT_STAT_STATE 6 1 (wr SRC_CTL_MISS_M1 0 2 (wr SRC_MON_RUN 6 2 (wr SRC_LAUNCH_MON_EN 6 1 (wv [pk 7 [yy 6]] r0)))), wr TSU_IN_DELAY 6 9000 (wv [pk 7 [yy 6]] r0), wr TSU_IN_DELAY 6 0x8000 (wv [pk 7 [yy 6]] r0)]
 ++ [XferKind.lo 3, .preset 6, .restore 6].flatMap (fun k => [(0, 0), (0, 1), (0, 2), (2, 0), (2, 1), (2, 2)].flatMap (fun (a, ack) => [bus k a false ack r0, bus k a true ack r0]))
 ++ [0, 1].flatMap (fun b => [r0, wv [] r0].flatMap (fun s => [50, 49, 127].map (fun j => onS (fun x => { x with sw := [(100, 5), (101, 6)] }) (wr SRC_LINE_ADDR_LINE 0 j (wr SRC_LINE_ADDR_WORD 0 b s))))) ++ [wr SRC_LINE_ADDR_LINE 0 48 (wv [] r0)])
def vs : List (String × Qword) := ([0, 0xFFFFFFFFFFFFFFFF, 0x123456789ABCDEF0] : List Nat).map (fun v => ("v" ++ toString v, BitVec.ofNat 64 v))
def ms : List (String × List Byte) := [("a", [0,0x11,0x22,0x33,0x44]), ("b", [0x77,0x11]), ("c", [0,0,0,0,0,0]), ("d", [0,0x44,0x33,0x22,0x11])]
noncomputable def clause1 : Bool := (match (ss : List (String × (State)))[0]? with | some (_, s) => decide (rdB SRC_CTL_PERMIT 0 s = false) | none => false)
noncomputable def clause2 : Bool := (match (ss : List (String × (State)))[1]? with | some (_, s) => decide (rdB SRC_CTL_PERMIT 0 s = true) | none => false)
noncomputable def clause4 : Bool := (match (ss : List (String × (State)))[4]? with | some (_, s) => decide (s.src.intlkLow = true) && decide (rd SRC_CTL_PERMIT 0 s = 0) && decide (s.sys.inReset = false) | none => false)
noncomputable def clause5 : Bool := (match (ss : List (String × (State)))[6]? with | some (_, s) => decide (s.src.intlkLow = false) && decide (devState s = stIDLE ∨ devState s = stWEAVING) && decide (permitted s = true) && decide (s.sys.inReset = false) | none => false)
noncomputable def clause6 : Bool := (match (ss : List (String × (State)))[5]? with | some (_, s) => decide (s.src.intlkLow = false) && decide (devState s = stIDLE ∨ devState s = stWEAVING) && decide (permitted s = false) && decide (s.sys.inReset = false) | none => false)
noncomputable def clause7 : Bool := (match (ss : List (String × (State)))[0]? with | some (_, s) => decide (permitted s = false) | none => false)
noncomputable def clause8 : Bool := (match (ss : List (String × (State)))[1]? with | some (_, s) => decide (permitted s = true) | none => false)
noncomputable def clause9 : Bool := (match (ss : List (String × (State)))[0]? with | some (_, s) => (let p : Fin 16 := 6; decide (s.src.blankUntil.get 0 p = 0)) | none => false)
noncomputable def clause10 : Bool := (match (ss : List (String × (State)))[8]? with | some (_, s) => (let p : Fin 16 := 6; decide (s.src.blankUntil.get 0 p ≠ 0)) | none => false)
noncomputable def clause11 : Bool := (match (ss : List (String × (State)))[0]? with | some (_, s) => (let p : Fin 16 := 6; decide (windowDue p s = none)) | none => false)
noncomputable def clause12 : Bool := (match (ss : List (String × (State)))[9]? with | some (_, s) => (let p : Fin 16 := 6; (match windowDue p s with | some (_, _) => decide (rdB SRC_LAUNCH_MON_EN p s = false) | _ => false)) | none => false)
noncomputable def clause13 : Bool := (match (ss : List (String × (State)))[10]? with | some (_, s) => (let p : Fin 16 := 6; (match windowDue p s with | some (_, _) => decide (rdB SRC_LAUNCH_MON_EN p s = true) && decide (rd SRC_MON_RUN p s < rd SRC_CTL_MISS_M1 0 s ∨ rd SRC_CTL_MISS_M1 0 s < rd SRC_MON_RUN p s ∧ rd PRT_STAT_STAMP_FAULT p s = 1) | _ => false)) | none => false)
noncomputable def clause14 : Bool := (match (ss : List (String × (State)))[11]? with | some (_, s) => (let p : Fin 16 := 6; (match windowDue p s with | some (_, _) => decide (rdB SRC_LAUNCH_MON_EN p s = true) && decide (rd SRC_MON_RUN p s = rd SRC_CTL_MISS_M1 0 s ∨ rd SRC_CTL_MISS_M1 0 s < rd SRC_MON_RUN p s ∧ rd PRT_STAT_STAMP_FAULT p s = 0) | _ => false)) | none => false)
noncomputable def clause15 : Bool := (match (ss : List (String × (State)))[0]? with | some (_, s) => decide (s.src.bus = none) | none => false)
noncomputable def clause16 : Bool := (match (ss : List (String × (State)))[18]? with | some (_, s) => (match s.src.bus with | some x => decide (x.status = false) && decide (x.ack = 2) | _ => false) | none => false)
noncomputable def clause17 : Bool := (match (ss : List (String × (State)))[14]? with | some (_, s) => (match (ms : List (String × (List Byte)))[0]? with | some (_, miso) => (match s.src.bus with | some x => decide (x.status = true ∨ x.ack ≠ 2) && decide (frameAcked x miso = true) && decide (s.src.loWait = []) && decide (s.src.swWait = []) | _ => false) | none => false) | none => false)
noncomputable def clause18 : Bool := (match (ss : List (String × (State)))[15]? with | some (_, s) => (match (ms : List (String × (List Byte)))[2]? with | some (_, miso) => (match s.src.bus with | some x => decide (x.status = true ∨ x.ack ≠ 2) && decide (frameAcked x miso = false) && decide (x.attempts < x.retries) | _ => false) | none => false) | none => false)
noncomputable def clause19 : Bool := (match (ss : List (String × (State)))[21]? with | some (_, s) => (match (ms : List (String × (List Byte)))[2]? with | some (_, miso) => (match s.src.bus with | some x => decide (x.status = true ∨ x.ack ≠ 2) && decide (frameAcked x miso = false) && decide (x.retries ≤ x.attempts) && decide (s.src.loWait = []) && decide (s.src.swWait = []) | _ => false) | none => false) | none => false)
noncomputable def clause20 : Bool := (match (ss : List (String × (State)))[0]? with | some (_, s) => (let b : Nat := rd SRC_LINE_ADDR_WORD 0 s; decide (b < 2) && decide (s.sys.inReset = false)) | none => false)
noncomputable def clause21 : Bool := (match (ss : List (String × (State)))[0]? with | some (_, s) => (let j : Nat := rd SRC_LINE_ADDR_LINE 0 s; (let b : Nat := rd SRC_LINE_ADDR_WORD 0 s; decide (b < 2) && decide (swWritable j s = true) && decide (s.sys.inReset = false))) | none => false)
noncomputable def clause22 : Bool := (match (ss : List (String × (State)))[9]? with | some (_, s) => (let j : Nat := rd SRC_LINE_ADDR_LINE 0 s; (let b : Nat := rd SRC_LINE_ADDR_WORD 0 s; decide (b < 2) && decide (swWritable j s = false) && decide (s.sys.inReset = false))) | none => false)
theorem witness_SourcePermissionAndBus_1 : [clause1, clause2, clause4, clause5, clause6, clause7, clause8, clause9].all id = true := by decide +kernel
theorem witness_SourcePermissionAndBus_2 : [clause10, clause11, clause12, clause13, clause14, clause15, clause16, clause17].all id = true := by decide +kernel
theorem witness_SourcePermissionAndBus_3 : [clause18, clause19, clause20, clause21, clause22].all id = true := by decide +kernel
end WSourcePermissionAndBus

namespace WTimestamps
def onT (f : Tsu → Tsu) (s : State) : State := { s with tsu := f s.tsu }
def en (s : State) : State := wr TSU_IN_EN 20 1 (wr TSU_IN_DELIVER 20 1 s)
def stp (i raw e : Nat) : Stamp := { input := i, raw := raw, fall := true, edge := e }
def ss : List (String × State) := named "ss" [r0, en r0, onT (fun t => { t with last := [(20, 256 * 1000)] }) (en r0), onT (fun t => { t with last := [(20, 256 * 900), (6, 256 * 1000)] }) (en r0), onT (fun t => { t with stamps := (List.range 16).map (fun i => stp 20 (i * 1000) (5 + i)) }) (en r0), onT (fun t => { t with stamps := (List.range 15).map (fun i => stp 20 (i * 1000) (5 + i)) ++ [stp 19 3 2] }) (wr TSU_IN_EDGE 20 2 (en r0)), wv [pk 7 [{ yy 6 with launchRaw := 200000, windowEnd := 300000 }]] r0, wv [pk 7 [{ yy 6 with launchRaw := 200000, windowEnd := 300000, stamp := some 5 }]] r0, onT (fun t => { t with stamps := [stp 20 100000 400, stp 19 99999 500] }) r0, wr WFQ_CFG_CAP 58 1 (onT (fun t => { t with stamps := [stp 20 100000 400, stp 19 99999 500] }) r0), onT (fun t => { t with lossDue := [(3, 5, 6), (1, 2, 3)] }) r0, onT (fun t => { t with spareNext := some 31 }) (wr TSU_STAT_SPARE_FOR 0 5 r0), onT (fun t => { t with spareNext := some 4, last := [(4, 256 * 5000)] }) (wr TSU_STAT_SPARE_FOR 0 31 r0)]
def s2 : List (String × State) := named "s2" ([0, 5, 28, 3].flatMap (fun l => [0, 5, 319].flatMap (fun p => [r0, wv [] r0].map (fun s => wr TSU_MAP_ADDR_LINE 0 l (wr TSU_MAP_ADDR_TAP 0 p s)))))
noncomputable def clause1 : Bool := (match ((ss ++ s2) : List (String × (State)))[0]? with | some (_, s) => (let i : Fin 24 := 6; (let k : Nat := 1000; (let fall : Bool := true; decide (onCalclk i (advanceTo k s) = true ∨ edgeWanted i fall s = false)))) | none => false)
noncomputable def clause2 : Bool := (match ((ss ++ s2) : List (String × (State)))[2]? with | some (_, s) => (let i : Fin 24 := 20; (let k : Nat := 1000; (let tap : Fin 320 := 0; (let fall : Bool := false; (let n : Nat := maxN s.now k; (let raw : Nat := (edgeRaw i n tap s).toNat; decide (onCalclk i (advanceTo k s) = false) && decide (edgeWanted i fall s = true) && decide (s.tsu.last.get 0 i ≠ 0) && decide (raw + 1 < s.tsu.last.get 0 i + 640))))))) | none => false)
noncomputable def clause3 : Bool := (match ((ss ++ s2) : List (String × (State)))[1]? with | some (_, s) => (let i : Fin 24 := 20; (let k : Nat := 1000; (let tap : Fin 320 := 0; (let fall : Bool := false; (let n : Nat := maxN s.now k; (let raw : Nat := (edgeRaw i n tap s).toNat; decide (onCalclk i (advanceTo k s) = false) && decide (edgeWanted i fall s = true) && decide (s.tsu.last.get 0 i = 0 ∨ s.tsu.last.get 0 i + 640 ≤ raw + 1) && decide (17 ≤ i.val) && decide (rdB TSU_IN_DELIVER i s = false ∨ (s.tsu.stamps.filter (fun y => decide (y.input = i.val))).length < 16))))))) | none => false)
noncomputable def clause4 : Bool := (match ((ss ++ s2) : List (String × (State)))[4]? with | some (_, s) => (let i : Fin 24 := 20; (let k : Nat := 1000; (let tap : Fin 320 := 0; (let fall : Bool := false; (let n : Nat := maxN s.now k; (let raw : Nat := (edgeRaw i n tap s).toNat; decide (onCalclk i (advanceTo k s) = false) && decide (edgeWanted i fall s = true) && decide (s.tsu.last.get 0 i = 0 ∨ s.tsu.last.get 0 i + 640 ≤ raw + 1) && decide (17 ≤ i.val) && decide (rdB TSU_IN_DELIVER i s = true) && decide (16 ≤ (s.tsu.stamps.filter (fun y => decide (y.input = i.val))).length))))))) | none => false)
noncomputable def clause5 : Bool := (match ((ss ++ s2) : List (String × (State)))[6]? with | some (_, s) => (let i : Fin 24 := 6; (let k : Nat := 1000; (let tap : Fin 320 := 0; (let fall : Bool := false; (let n : Nat := maxN s.now k; (let raw : Nat := (edgeRaw i n tap s).toNat; (let u : Nat := ((raw : Int) - rdZ TSU_IN_DELAY i s).toNat; decide (onCalclk i (advanceTo k s) = false) && decide (edgeWanted i fall s = true) && decide (s.tsu.last.get 0 i = 0 ∨ s.tsu.last.get 0 i + 640 ≤ raw + 1) && decide (i.val < 16) && decide (s.trd.picks.any (fun x => x.ports.any (inLaunch i u)) = true)))))))) | none => false)
noncomputable def clause6 : Bool := (match ((ss ++ s2) : List (String × (State)))[0]? with | some (_, s) => (let i : Fin 24 := 6; (let k : Nat := 1000; (let tap : Fin 320 := 0; (let fall : Bool := false; (let n : Nat := maxN s.now k; (let raw : Nat := (edgeRaw i n tap s).toNat; (let u : Nat := ((raw : Int) - rdZ TSU_IN_DELAY i s).toNat; decide (onCalclk i (advanceTo k s) = false) && decide (edgeWanted i fall s = true) && decide (s.tsu.last.get 0 i = 0 ∨ s.tsu.last.get 0 i + 640 ≤ raw + 1) && decide (i.val < 16) && decide (s.trd.picks.any (fun x => x.ports.any (inLaunch i u)) = false)))))))) | none => false)
noncomputable def clause7 : Bool := (match ((ss ++ s2) : List (String × (State)))[0]? with | some (_, s) => decide (firstStamp s.tsu.stamps = none) | none => false)
noncomputable def clause8 : Bool := (match ((ss ++ s2) : List (String × (State)))[4]? with | some (_, s) => (match firstStamp s.tsu.stamps with | some x => decide (s.canon = true) && decide (rdB WRP_INJ_ADDR_ARM 0 s = false) && decide (winOf x.input x.raw s = none) && decide (2 ≤ qRoom 58 s) | _ => false) | none => false)
noncomputable def clause9 : Bool := (match ((ss ++ s2) : List (String × (State)))[9]? with | some (_, s) => (match firstStamp s.tsu.stamps with | some x => decide (s.canon = true) && decide (rdB WRP_INJ_ADDR_ARM 0 s = false) && decide (winOf x.input x.raw s = none) && decide (qRoom 58 s < 2) | _ => false) | none => false)
noncomputable def clause10 : Bool := (match ((ss ++ s2) : List (String × (State)))[0]? with | some (_, s) => decide (s.tsu.lossDue = []) | none => false)
noncomputable def clause11 : Bool := (match ((ss ++ s2) : List (String × (State)))[10]? with | some (_, s) => (match s.tsu.lossDue with | (_, _) :: _ => true | _ => false) | none => false)
noncomputable def clause12 : Bool := (match ((ss ++ s2) : List (String × (State)))[0]? with | some (_, s) => decide (s.tsu.spareNext = none) | none => false)
noncomputable def clause13 : Bool := (match ((ss ++ s2) : List (String × (State)))[11]? with | some (_, s) => (match s.tsu.spareNext with | some l => decide (l < 32) | _ => false) | none => false)
noncomputable def clause14 : Bool := (match ((ss ++ s2) : List (String × (State)))[0]? with | some (_, s) => (let l : Nat := rd TSU_MAP_ADDR_LINE 0 s; (let p : Nat := rd TSU_MAP_ADDR_TAP 0 s; decide (l < 29) && decide (p < 320) && decide (s.sys.inReset = false))) | none => false)
noncomputable def clause15 : Bool := (match ((ss ++ s2) : List (String × (State)))[0]? with | some (_, s) => (let l : Nat := rd TSU_MAP_ADDR_LINE 0 s; (let p : Nat := rd TSU_MAP_ADDR_TAP 0 s; decide (l < 29) && decide (p < 320) && decide (lineServes l s = false ∨ weaving s = false) && decide (l ≠ 28 ∨ lineCalibrates 28 s = false) && decide (s.sys.inReset = false))) | none => false)
noncomputable def clause16 : Bool := (match ((ss ++ s2) : List (String × (State)))[6]? with | some (_, s) => (let l : Nat := rd TSU_MAP_ADDR_LINE 0 s; (let p : Nat := rd TSU_MAP_ADDR_TAP 0 s; decide (l < 29) && decide (p < 320) && decide (lineServes l s = true) && decide (weaving s = true) && decide (s.sys.inReset = false))) | none => false)
theorem witness_Timestamps_1 : [clause1, clause2, clause3, clause4, clause5, clause6, clause7, clause8].all id = true := by decide +kernel
theorem witness_Timestamps_2 : [clause9, clause10, clause11, clause12, clause13, clause14, clause15, clause16].all id = true := by decide +kernel
end WTimestamps

namespace WGates
def wG1 : State := wr TSU_GATE_ARM 1 1 r0
def wG2 : State := match (Sys2Proof.Machine.execGateOpen 1 1000 0) wG1 with | .next t => t | _ => r0
def wG3 : State := wr TSU_GATE_ARM 1 1 (wr TSU_GATE_CLOSE_EV 1 1 (wr TSU_GATE_MAX_LEN 1 3 r0))
def wG4 : State := match (Sys2Proof.Machine.execGateOpen 1 1000 0) wG3 with | .next t => t | _ => r0
def wG5 : State := match (Sys2Proof.Machine.execGateClose 1 2000 0) wG4 with | .next t => t | _ => r0
noncomputable def clause1 : Bool := (let s : State := wG2; (let g : Fin 4 := 1; (let k : Nat := 1000; (let tap : Fin 320 := 0; (let n : Nat := maxN s.now k; (let raw : Nat := (edgeRaw (24 + g) n tap s).toNat; decide (onCalclk (24 + g) (advanceTo k s) = true ∨ s.tsu.last.get 0 (24 + g) ≠ 0 ∧ raw + 1 < s.tsu.last.get 0 (24 + g) + 640)))))))
noncomputable def clause2 : Bool := (let s : State := wG5; (let g : Fin 4 := 1; (let k : Nat := 1000; (let tap : Fin 320 := 0; (let n : Nat := maxN s.now k; (let raw : Nat := (edgeRaw (24 + g) n tap s).toNat; decide (onCalclk (24 + g) (advanceTo k s) = true ∨ s.tsu.last.get 0 (24 + g) ≠ 0 ∧ raw + 1 < s.tsu.last.get 0 (24 + g) + 640) && decide (onCalclk (24 + g) (advanceTo k s) = true ∨ openedNow g (advanceTo k s) = none)))))))
noncomputable def clause3 : Bool := (let s : State := wG1; (let g : Fin 4 := 1; (let k : Nat := 1000; (let tap : Fin 320 := 0; (let n : Nat := maxN s.now k; (let raw : Nat := (edgeRaw (24 + g) n tap s).toNat; decide (onCalclk (24 + g) (advanceTo k s) = false) && decide (s.tsu.last.get 0 (24 + g) = 0 ∨ s.tsu.last.get 0 (24 + g) + 640 ≤ raw + 1) && decide (rdB TSU_GATE_ARM g s = true) && decide (rdB TSU_GATE_STAT_OPEN g s = false)))))))
noncomputable def clause4 : Bool := (let s : State := r0; (let g : Fin 4 := 1; (let k : Nat := 1000; (let tap : Fin 320 := 0; (let n : Nat := maxN s.now k; (let raw : Nat := (edgeRaw (24 + g) n tap s).toNat; decide (onCalclk (24 + g) (advanceTo k s) = false) && decide (s.tsu.last.get 0 (24 + g) = 0 ∨ s.tsu.last.get 0 (24 + g) + 640 ≤ raw + 1) && decide (rdB TSU_GATE_ARM g s = false ∨ rdB TSU_GATE_STAT_OPEN g s = true)))))))
noncomputable def clause5 : Bool := (let s : State := r0; (let g : Fin 4 := 1; (let k : Nat := 1000; (let tap : Fin 320 := 0; (let n : Nat := maxN s.now k; (let raw : Nat := (edgeRaw (24 + g) n tap s).toNat; decide (onCalclk (24 + g) (advanceTo k s) = false) && decide (s.tsu.last.get 0 (24 + g) = 0 ∨ s.tsu.last.get 0 (24 + g) + 640 ≤ raw + 1) && decide (rdB TSU_GATE_STAT_OPEN g s = false) && decide (openedNow g (advanceTo k s) = none)))))))
noncomputable def clause6 : Bool := (let s : State := r0; (let g : Fin 4 := 1; decide (gateWins g s = [])))
noncomputable def clause7 : Bool := (let s : State := r0; (let g : Fin 4 := 1; (let v : Qword := 0; decide (rdB TSU_GATE_STAT_OPEN g s = false ∨ bitOf v.toNat 1 = true) && decide (s.sys.inReset = false))))
noncomputable def clause8 : Bool := (let s : State := wG2; (let g : Fin 4 := 1; (match gateWins g s with | w :: _ => decide (w.close.isSome = true ∨ w.maxLen = 0) | _ => false)))
noncomputable def clause9 : Bool := (let s : State := wG2; (let g : Fin 4 := 1; (let k : Nat := 1000; (let tap : Fin 320 := 0; (let n : Nat := maxN s.now k; (let raw : Nat := (edgeRaw (24 + g) n tap s).toNat; (match gateWins g s with | w :: _ => decide (w.close = none) && decide (w.beyond = []) && decide (s.tsu.stamps = []) && (match ([("c", (edgeRaw (24 + g) (maxN s.now k) tap s).toNat), ("c2", (openedNow g (advanceTo k s)).getD 0)] : List (String × (Nat)))[0]? with | some (_, c) => decide (onCalclk (24 + g) (advanceTo k s) = false) && decide ((openedNow g (advanceTo k s) = some c ∨ openedNow g (advanceTo k s) = none ∧ c = raw ∧ (s.tsu.last.get 0 (24 + g) = 0 ∨ s.tsu.last.get 0 (24 + g) + 640 ≤ raw + 1) ∧ rdB TSU_GATE_STAT_OPEN g s = true)) | none => false) | _ => false)))))))
noncomputable def clause10 : Bool := (let s : State := wG4; (let g : Fin 4 := 1; (match gateWins g s with | w :: _ => decide (w.close = none) && decide (w.beyond = []) && decide (s.tsu.stamps = []) && decide (w.maxLen ≠ 0) | _ => false)))
noncomputable def clause11 : Bool := (let s : State := wG2; (let g : Fin 4 := 1; (let v : Qword := 0; (match gateWins g s with | w :: _ => decide (w.close = none) && decide (w.beyond = []) && decide (s.tsu.stamps = []) && decide (rdB TSU_GATE_STAT_OPEN g s = true) && decide (bitOf v.toNat 1 = false) && decide (s.sys.inReset = false) | _ => false))))
theorem witness_Gates_1 : [clause1, clause2, clause3, clause4, clause5, clause6, clause7, clause8].all id = true := by decide +kernel
theorem witness_Gates_2 : [clause9, clause10, clause11].all id = true := by decide +kernel
end WGates

namespace WTimeOfDay
def ppsOn (s : State) : State := wr SYS_DISC_CTL_PPS_EN 0 1 s
def late (s : State) : State := { s with now := 3000000500 }
def run16 (s : State) : Cmd := { cm 0x16 [5] with phase := .running, aux := 1 }
def ss : List (String × State) := named "ss" [r0, wr TSU_IN_EN 16 1 r0, onTod (fun t => { t with armed := some 7 }) r0, onTod (fun t => { t with armed := some 7, ppsFirst := true }) (late (ppsOn r0)), onTod (fun t => { t with armed := some 7 }) (cmds [run16 r0] r0), ppsOn r0, late (ppsOn r0), wr SYS_DISC_STAT_HOLDOVER 0 1 (ppsOn r0), onTod (fun t => { t with prevPps := some (256 * 2000000500) }) (late (ppsOn r0)), onTod (fun t => { t with ppsFirst := false, prevPps := some (256 * 1000), armed := none }) (late (ppsOn r0)), onTod (fun t => { t with ppsFirst := true, tU := 100, rawU := 5000, lockRun := 5, slew := 1 }) (wr SYS_DISC_STAT_LOCKED 0 1 (late (ppsOn r0))), wr TSU_IN_DELAY 16 65000 (late (ppsOn r0)), onTod (fun t => { t with tU := 256000000000 * 1000 - 2, rawU := 256 * 3000000500 }) (wr SYS_DISC_STAT_LOCKED 0 1 (late (ppsOn r0))), onTod (fun t => { t with tU := 256000000000 * 1000 - 256000, rawU := 256 * 3000000500 - 255, lockRun := 9 }) (wr SYS_DISC_CTL_TC 0 5 (wr SYS_DISC_STAT_LOCKED 0 1 (wr SYS_DISC_CTL_STEP_THR 0 2000 (late (ppsOn r0)))))]
def vs : List (String × Qword) := ([0, 1, 0xFFFFFFFFFFFFFFFF, 0xFFFFFFFFFFFFFFFE, 0x123456789ABCDEF1] : List Nat).map (fun v => ("v" ++ toString v, BitVec.ofNat 64 v))
noncomputable def clause1 : Bool := (match (ss : List (String × (State)))[0]? with | some (_, s) => decide (s.tod.armed = none) && decide (s.sys.inReset = false) | none => false)
noncomputable def clause2 : Bool := (match (ss : List (String × (State)))[4]? with | some (_, s) => (match ((cmdS s) : List (String × (Cmd)))[0]? with | some (_, ec) => (match s.tod.armed with | some _ => decide (s.host.cmds.filter (fun e => decide (e.opcode = 0x16 ∧ e.phase = .running)) = [ec]) && decide (ec.aux = 1) && decide (s.sys.inReset = false) | _ => false) | none => false) | none => false)
noncomputable def clause4 : Bool := (match (ss : List (String × (State)))[0]? with | some (_, s) => decide (s.sys.inReset = false) | none => false)
noncomputable def clause5 : Bool := (match (ss : List (String × (State)))[0]? with | some (_, s) => (match (vs : List (String × (Qword)))[1]? with | some (_, v) => decide (bitOf v.toNat 0 = true) && decide (s.sys.inReset = false) | none => false) | none => false)
noncomputable def clause6 : Bool := (match (ss : List (String × (State)))[0]? with | some (_, s) => (match (vs : List (String × (Qword)))[0]? with | some (_, v) => decide (bitOf v.toNat 0 = false) && decide (s.sys.inReset = false) | none => false) | none => false)
noncomputable def clause7 : Bool := (match (ss : List (String × (State)))[0]? with | some (_, s) => decide (rdB SYS_DISC_CTL_PPS_EN 0 s = false ∨ rdB SYS_DISC_STAT_HOLDOVER 0 s = true) | none => false)
noncomputable def clause8 : Bool := (match (ss : List (String × (State)))[3]? with | some (_, s) => decide (rdB SYS_DISC_CTL_PPS_EN 0 s = true) && decide (rdB SYS_DISC_STAT_HOLDOVER 0 s = false) | none => false)
noncomputable def clause9 : Bool := (match (ss : List (String × (State)))[0]? with | some (_, s) => (let k : Nat := 0; (let tap : Fin 320 := 0; (let raw : Nat := (edgeRaw 16 (maxN s.now k) tap s).toNat; decide (onCalclk 16 (advanceTo k s) = false) && decide (s.tsu.last.get 0 16 = 0 ∨ s.tsu.last.get 0 16 + 640 ≤ raw + 1) && decide (rdB SYS_DISC_CTL_PPS_EN 0 s = false)))) | none => false)
noncomputable def clause10 : Bool := (match (ss : List (String × (State)))[9]? with | some (_, s) => (let k : Nat := 0; (let tap : Fin 320 := 0; (let raw : Nat := (edgeRaw 16 (maxN s.now k) tap s).toNat; (let u : Nat := ((raw : Int) - rdZ TSU_IN_DELAY 16 s).toNat; decide (onCalclk 16 (advanceTo k s) = false) && decide (s.tsu.last.get 0 16 = 0 ∨ s.tsu.last.get 0 16 + 640 ≤ raw + 1) && decide (rdB SYS_DISC_CTL_PPS_EN 0 s = true) && decide (ppsAccept u s.tod.prevPps s = false))))) | none => false)
noncomputable def clause11 : Bool := (match (ss : List (String × (State)))[3]? with | some (_, s) => (let k : Nat := 0; (let tap : Fin 320 := 0; (let raw : Nat := (edgeRaw 16 (maxN s.now k) tap s).toNat; (let u : Nat := ((raw : Int) - rdZ TSU_IN_DELAY 16 s).toNat; decide (onCalclk 16 (advanceTo k s) = false) && decide (s.tsu.last.get 0 16 = 0 ∨ s.tsu.last.get 0 16 + 640 ≤ raw + 1) && (match s.tod.armed with | some _ => decide (rdB SYS_DISC_CTL_PPS_EN 0 s = true) && decide (ppsAccept u s.tod.prevPps s = true) && decide (s.trd.ppsWait = none) | _ => false))))) | none => false)
noncomputable def clause12 : Bool := (match (ss : List (String × (State)))[5]? with | some (_, s) => (let k : Nat := 3300000000; (let tap : Fin 320 := 0; (let raw : Nat := (edgeRaw 16 (maxN s.now k) tap s).toNat; (let u : Nat := ((raw : Int) - rdZ TSU_IN_DELAY 16 s).toNat; (let e : Int := taiOf u s - nearSecond (taiOf u s); decide (onCalclk 16 (advanceTo k s) = false) && decide (s.tsu.last.get 0 16 = 0 ∨ s.tsu.last.get 0 16 + 640 ≤ raw + 1) && decide (rdB SYS_DISC_CTL_PPS_EN 0 s = true) && decide (ppsAccept u s.tod.prevPps s = true) && decide (s.tod.armed = none) && decide (s.trd.ppsWait = none) && decide (maxN 100 (rd SYS_DISC_CTL_STEP_THR 0 s) * 256 < e.natAbs)))))) | none => false)
noncomputable def clause13 : Bool := (match (ss : List (String × (State)))[5]? with | some (_, s) => (let k : Nat := 0; (let tap : Fin 320 := 0; (let raw : Nat := (edgeRaw 16 (maxN s.now k) tap s).toNat; (let u : Nat := ((raw : Int) - rdZ TSU_IN_DELAY 16 s).toNat; (let e : Int := taiOf u s - nearSecond (taiOf u s); decide (onCalclk 16 (advanceTo k s) = false) && decide (s.tsu.last.get 0 16 = 0 ∨ s.tsu.last.get 0 16 + 640 ≤ raw + 1) && decide (rdB SYS_DISC_CTL_PPS_EN 0 s = true) && decide (ppsAccept u s.tod.prevPps s = true) && decide (s.tod.armed = none) && decide (s.trd.ppsWait = none) && decide (e.natAbs ≤ maxN 100 (rd SYS_DISC_CTL_STEP_THR 0 s) * 256)))))) | none => false)
theorem witness_TimeOfDay_1 : [clause1, clause2, clause4, clause5, clause6, clause7, clause8, clause9].all id = true := by decide +kernel
theorem witness_TimeOfDay_2 : [clause10, clause11, clause12, clause13].all id = true := by decide +kernel
end WTimeOfDay

namespace WAnchorChannels
def onA (f : Anchor → Anchor) (s : State) : State := { s with anc := f s.anc }
def ent (ch : Nat) (n : Nat) (s : State) : State := wr ANC_CTL_CHK_PERIOD 0 0 (onA (fun a => { a with tbl := [(0, 0)], word := ch * 2 ^ 43 + 7 * 2 ^ 11 + (n-1) * 2 ^ 35, left := n, since := 1000, cfg := (List.replicate 7 0), range := if ch < 16 then 3 else 0 }) (wr ANC_STAT_TABLE 0 1 s))
def nm16 (s : State) : State := onA (fun a => { a with tbl := [(0, 1 * 2 ^ 43)] }) s
def ex5 (s : State) : State := wr ANC_CH_EXC_IMIN 1 2 (wr ANC_CH_EXC_IMAX 1 4 (wr ANC_CH_CFG_EXC 1 1 s))
def ss : List (String × State) := named "ss" [r0, st 3 (nm16 r0), wr ANC_STAT_TABLE 0 2 r0, onA (fun a => { a with phase := .convert }) (ent 5 3 r0), onA (fun a => { a with phase := .convert }) (ent 20 3 (st 3 r0)), onA (fun a => { a with phase := .convert }) (ent 15 2 (wr ANC_CH_ENG_SCALE 15 100000 (wr ANC_CH_ENG_ZERO 15 (2^24 - 50) (wr ANC_CELL_BASE_CELL_BASE 0 4000 (qf 51 3 r0))))), onA (fun a => { a with phase := .check, checkCh := 5 }) (ent 5 3 (wr ANC_STAT_CHECKING 0 1 r0)), onA (fun a => { a with phase := .check, checkCh := 5, wasBroken := true }) (ent 5 3 r0), onA (fun a => { a with phase := .check, checkCh := 5, tripped := true }) (ent 5 3 r0), onA (fun a => { a with phase := .delay }) (ent 5 3 r0), onA (fun a => { a with phase := .delay }) (ent 31 3 r0), onA (fun a => { a with phase := .delay }) (ent 31 3 (wr ANC_CTL_LEN_M1 0 5 r0)), ex5 (nm16 (wr ANC_STAT_TABLE 0 1 (st 3 r0))), ex5 (onA (fun a => { a with phase := .check, checkCh := 1 }) (nm16 (wr ANC_STAT_TABLE 0 1 (st 3 r0)))), wr ANC_CTL_STALE 0 2 (nm16 (wr ANC_STAT_TABLE 0 1 (st 3 r0))), wr ANC_TBL_ADDR_ENTRY 0 63 (onA (fun a => { a with tbl := [(63, 0x1001)], cur := [(63, 6)] }) r0)]
def vs : List (String × Qword) := ([0, 1, 0xFFFFFFFFFFFFFFFF, 0x0000A00000000FF1, 0x0000A00000000FF0] : List Nat).map (fun v => ("v" ++ toString v, BitVec.ofNat 64 v))
noncomputable def clause1 : Bool := (match (ss : List (String × (State)))[1]? with | some (_, s) => (match (vs : List (String × (Qword)))[1]? with | some (_, v) => decide (bitOf v.toNat 0 = true) && decide (ancTable s = ancSTOPPED) && decide (devState s = stIDLE ∨ devState s = stWEAVING ∨ devState s = stFAULT) && decide (s.sys.inReset = false) | none => false) | none => false)
noncomputable def clause2 : Bool := (match (ss : List (String × (State)))[2]? with | some (_, s) => (match (vs : List (String × (Qword)))[1]? with | some (_, v) => decide (bitOf v.toNat 0 = true) && decide (ancTable s = ancCLOSING) && decide (s.sys.inReset = false) | none => false) | none => false)
noncomputable def clause3 : Bool := (match (ss : List (String × (State)))[3]? with | some (_, s) => (match (vs : List (String × (Qword)))[0]? with | some (_, v) => decide (bitOf v.toNat 0 = false) && decide (ancTable s = ancRUNNING) && decide (s.anc.phase = .convert ∨ s.anc.phase = .check) && decide (s.sys.inReset = false) | none => false) | none => false)
noncomputable def clause4 : Bool := (match (ss : List (String × (State)))[9]? with | some (_, s) => (match (vs : List (String × (Qword)))[0]? with | some (_, v) => decide (bitOf v.toNat 0 = false) && decide (ancTable s = ancRUNNING) && decide (s.anc.phase = .delay) && decide (rdB ANC_STAT_START_PENDING 0 s = false) && decide (s.sys.inReset = false) | none => false) | none => false)
noncomputable def clause5 : Bool := (match (ss : List (String × (State)))[0]? with | some (_, s) => decide (s.anc.phase ≠ .delay) | none => false)
noncomputable def clause6 : Bool := (match (ss : List (String × (State)))[0]? with | some (_, s) => decide (s.anc.phase ≠ .check) | none => false)
noncomputable def clause7 : Bool := (match (ss : List (String × (State)))[0]? with | some (_, s) => decide (s.anc.phase ≠ .convert) | none => false)
noncomputable def clause8 : Bool := (match (ss : List (String × (State)))[9]? with | some (_, s) => decide (s.anc.phase = .delay) && decide (entryCh s.anc.word < 26) | none => false)
noncomputable def clause9 : Bool := (match (ss : List (String × (State)))[10]? with | some (_, s) => decide (s.anc.phase = .delay) && decide (26 ≤ entryCh s.anc.word) && decide (s.anc.beyond = false) && decide (ancTable s = ancRUNNING) && decide (ancCalDue s = false) && decide (checkPick (advanceTo (s.anc.since + entryDelay s.anc.word) s) = none) | none => false)
noncomputable def clause10 : Bool := (match (ss : List (String × (State)))[3]? with | some (_, s) => (let v1 : Int := 0; (let v2 : Int := 0; (let vexc : Int := 0; (let ch : Nat := entryCh s.anc.word; (let x : Int × Nat := ancVin s.anc.cfg v1 v2; (let w : Nat := rd ANC_CELL_BASE_CELL_BASE 0 s + 4 * ch; (let value : Int := (if 16 ≤ ch then v1 else if s.anc.cfg.getD 4 0 = 1 then quotRound (x.1 * 2 ^ (23 + s.anc.range)) (vexc * x.2) else quotRound (x.1 * 2 ^ (23 + s.anc.range)) ((refinUv s * 1000000 * x.2 : Nat) : Int)); decide (s.anc.phase = .convert) && decide (2 ≤ s.anc.left) && decide (ancTable s = ancRUNNING) && decide (ch < 26) && decide ((ch < 16 → s.anc.cfg.getD 4 0 = 1 → vexc ≠ 0)) && decide (satS 24 value = value) && decide (w % 4 = 0) && decide (0x1600000 ≤ w) && decide (w + 4 ≤ 0x1800000) && decide (s.warp.fill = none) && decide (s.warp.rowMap = []) && decide (s.warp.repair = none) && decide (rdB WRP_INJ_ADDR_ARM 0 s = false)))))))) | none => false)
noncomputable def clause11 : Bool := (match (ss : List (String × (State)))[6]? with | some (_, s) => (let z : Nat := 500; (let ch : Nat := s.anc.checkCh; decide (s.anc.phase = .check) && decide (ch < 16) && decide (rd ANC_CH_CFG_ZMIN ch s ≤ minN z 65535) && decide (minN z 65535 ≤ rd ANC_CH_CFG_ZMAX ch s) && decide (s.anc.tripped = false))) | none => false)
noncomputable def clause12 : Bool := (match (ss : List (String × (State)))[6]? with | some (_, s) => (let z : Nat := 5; (let ch : Nat := s.anc.checkCh; decide (s.anc.phase = .check) && decide (ch < 16) && decide (minN z 65535 < rd ANC_CH_CFG_ZMIN ch s ∨ rd ANC_CH_CFG_ZMAX ch s < minN z 65535 ∨ s.anc.tripped = true))) | none => false)
noncomputable def clause13 : Bool := (match (ss : List (String × (State)))[0]? with | some (_, s) => (let ch : Fin 16 := 1; (let c : Nat := 250; (let lo : Nat := (chInForce ch s).getD 5 0 * 100; (let hi : Nat := (chInForce ch s).getD 6 0 * 500; decide (lo ≤ c) && decide (c ≤ hi))))) | none => false)
noncomputable def clause14 : Bool := (match (ss : List (String × (State)))[12]? with | some (_, s) => (let ch : Fin 16 := 1; (let c : Nat := 0; (let lo : Nat := (chInForce ch s).getD 5 0 * 100; (let hi : Nat := (chInForce ch s).getD 6 0 * 500; decide (c < lo ∨ hi < c) && decide (¬(s.anc.phase = .check ∧ s.anc.checkCh = ch.val)) && decide (excOn ch s = true))))) | none => false)
noncomputable def clause15 : Bool := (match (ss : List (String × (State)))[13]? with | some (_, s) => (let ch : Fin 16 := 1; (let c : Nat := 0; (let lo : Nat := (chInForce ch s).getD 5 0 * 100; (let hi : Nat := (chInForce ch s).getD 6 0 * 500; decide (c < lo ∨ hi < c) && decide (s.anc.phase = .check) && decide (s.anc.checkCh = ch.val))))) | none => false)
noncomputable def clause16 : Bool := (match (ss : List (String × (State)))[0]? with | some (_, s) => (let ch : Fin 26 := 1; decide (rd ANC_CTL_STALE 0 s = 0 ∨ ancNamed ch s = false ∨ s.anc.stale.contains ch.val = true)) | none => false)
noncomputable def clause17 : Bool := (match (ss : List (String × (State)))[14]? with | some (_, s) => (let ch : Fin 26 := 1; decide (rd ANC_CTL_STALE 0 s ≠ 0) && decide (ancNamed ch s = true) && decide (s.anc.stale.contains ch.val = false)) | none => false)
noncomputable def clause18 : Bool := (match (ss : List (String × (State)))[0]? with | some (_, s) => (let e : Nat := rd ANC_TBL_ADDR_ENTRY 0 s; decide (e < 64) && decide (s.sys.inReset = false)) | none => false)
noncomputable def clause19 : Bool := (match (ss : List (String × (State)))[0]? with | some (_, s) => (match (vs : List (String × (Qword)))[0]? with | some (_, v) => (let e : Nat := rd ANC_TBL_ADDR_ENTRY 0 s; decide (e < 64) && decide (slice v.toNat 27 8 = 0) && decide (slice v.toNat 0 4 = 0) && decide (s.sys.inReset = false)) | none => false) | none => false)
noncomputable def clause20 : Bool := (match (ss : List (String × (State)))[0]? with | some (_, s) => (match (vs : List (String × (Qword)))[2]? with | some (_, v) => (let e : Nat := rd ANC_TBL_ADDR_ENTRY 0 s; decide (e < 64) && decide (slice v.toNat 27 8 ≠ 0) && decide (s.sys.inReset = false)) | none => false) | none => false)
theorem witness_AnchorChannels_1 : [clause1, clause2, clause3, clause4, clause5, clause6, clause7, clause8].all id = true := by decide +kernel
theorem witness_AnchorChannels_2 : [clause9, clause10, clause11, clause12, clause13, clause14, clause15, clause16].all id = true := by decide +kernel
theorem witness_AnchorChannels_3 : [clause17, clause18, clause19, clause20].all id = true := by decide +kernel
end WAnchorChannels

namespace WBobbinCommands
def D : State := reg0 0 50 3 (dm 1 1)
def bs (n : Nat) (s : State) : State := wr BOB_CTX_STAT_STATE 1 n s
def bc (c : BobCtx) (s : State) : State := { s with bob := s.bob.put {} 1 c }
def g (s : State) : State := wr BOB_CTX_CFG_DEST_Q 1 80 (wr BOB_CTX_CFG_SRC_Q 1 70 s)
def ss : List (String × State) := named "ss" ((List.range 6).map (fun n => bs n D) ++ [g D, wr BOB_CTX_CFG_WRAP 1 0 (g D), wr BOB_CTX_SHAPE_FRAME 1 1 (g D), wr BOB_CTX_SHAPE_FRAME 1 1 (wr BOB_CTX_SHAPE_W 1 5 (g D)), bs 3 (g D), bs 3 (g r0), bs 2 D, wr BOB_CTX_SHAPE_FRAME 1 1 (bc { pos := 3, block := [1,2,3] } (bs 1 (g D))), bs 1 (g D), bc { bits := 5, part := 3, partN := 5 } (bs 1 (g D)), bc { block := [1,2,3,3,3,3,3,3,3] } (bs 1 (g D)), bc { block := [1,2,3], pos := 4 } (bs 3 (g D)), bc { block := [], bits := 48, out := [1,2,3,4,5,6] } (bs 1 (g D)), bc { slot := 7 } (bs 4 (g D)), wr BOB_CTX_STAT_STATE 2 4 { (bs 0 (g D)) with bob := [(2, { slot := 7 })] }])
noncomputable def clause1 : Bool := (match (ss : List (String × (State)))[0]? with | some (_, s) => (let x : Fin 4 := 1; decide (s.sys.inReset = false) && (match (([(Sys2Proof.Machine.execBobStart x, [bRUNNING, bSAVING, bRESTORING]), (Sys2Proof.Machine.execBobPause x, [bIDLE, bCLOSING, bPAUSED, bSAVING, bRESTORING]), (Sys2Proof.Machine.execBobFinish x, [bIDLE, bCLOSING, bSAVING, bRESTORING]), (Sys2Proof.Machine.execBobFlush x, [bIDLE, bCLOSING, bPAUSED, bSAVING, bRESTORING]), (Sys2Proof.Machine.execBobAbort x, [bIDLE, bSAVING, bRESTORING]), (Sys2Proof.Machine.execBobSave x 0, [bIDLE, bRUNNING, bCLOSING, bSAVING, bRESTORING]), (Sys2Proof.Machine.execBobRestore x 15, [bRUNNING, bCLOSING, bPAUSED, bSAVING, bRESTORING])] : List ((State → Host.Outcome State Fault Refusal) × List Nat)))[1]? with | some y => decide (bobSt x s ∈ y.2) | none => false)) | none => false)
noncomputable def clause2 : Bool := (match (ss : List (String × (State)))[6]? with | some (_, s) => (let x : Fin 4 := 1; decide (s.sys.inReset = false) && decide (bobSt x s = bIDLE) && decide (bobStartReason x s = 0) && decide (bobFrame x s = 0)) | none => false)
noncomputable def clause3 : Bool := (match (ss : List (String × (State)))[9]? with | some (_, s) => (let x : Fin 4 := 1; decide (s.sys.inReset = false) && decide (bobSt x s = bIDLE) && decide (bobStartReason x s = 0) && decide (bobFrame x s ≠ 0) && decide (s.warp.fill = none) && decide (s.warp.rowMap = []) && decide (s.warp.repair = none) && decide (rdB WRP_INJ_ADDR_ARM 0 s = false)) | none => false)
noncomputable def clause4 : Bool := (match (ss : List (String × (State)))[0]? with | some (_, s) => (let x : Fin 4 := 1; decide (s.sys.inReset = false) && decide (bobSt x s = bIDLE) && decide (bobStartReason x s ≠ 0)) | none => false)
noncomputable def clause5 : Bool := (match (ss : List (String × (State)))[0]? with | some (_, s) => (let x : Fin 4 := 1; decide (s.sys.inReset = false) && decide (bobSt x s = bIDLE) && (let k : Fin 16 := 3; decide ((∀ y : Nat, y < 4 → bobSt y s = bSAVING → (bobOf y s).slot ≠ k)))) | none => false)
noncomputable def clause6 : Bool := (match (ss : List (String × (State)))[3]? with | some (_, s) => (let x : Fin 4 := 1; decide (s.sys.inReset = false) && decide (bobSt x s = bPAUSED)) | none => false)
noncomputable def clause7 : Bool := (match (ss : List (String × (State)))[3]? with | some (_, s) => (let x : Fin 4 := 1; decide (s.sys.inReset = false) && decide (bobSt x s = bPAUSED) && (let k : Fin 16 := 3; decide (slotInside k s = true))) | none => false)
noncomputable def clause8 : Bool := (match (ss : List (String × (State)))[11]? with | some (_, s) => (let x : Fin 4 := 1; decide (s.sys.inReset = false) && decide (bobSt x s = bPAUSED) && (let k : Fin 16 := 3; decide (slotInside k s = false))) | none => false)
noncomputable def clause9 : Bool := (match (ss : List (String × (State)))[2]? with | some (_, s) => (let x : Fin 4 := 1; decide (s.sys.inReset = false) && decide (bobSt x s = bCLOSING)) | none => false)
noncomputable def clause10 : Bool := (match (ss : List (String × (State)))[13]? with | some (_, s) => (let x : Fin 4 := 1; decide (s.sys.inReset = false) && decide (bobSt x s = bRUNNING) && decide (bobAtBoundary x s = false)) | none => false)
noncomputable def clause12 : Bool := (match (ss : List (String × (State)))[1]? with | some (_, s) => (let x : Fin 4 := 1; (let c : BobCtx := bobOf x s; decide (s.sys.inReset = false) && decide (bobSt x s = bRUNNING) && decide (bobAtBoundary x s = true) && decide (c.block = []) && decide (c.held = []) && decide (c.bits % 48 = 0) && decide (c.out = []) && decide (c.partN = 0) && decide (rdB BOB_CTX_STAT_START_PENDING x s = false))) | none => false)
noncomputable def clause13 : Bool := (match (ss : List (String × (State)))[1]? with | some (_, s) => (let x : Fin 4 := 1; (let c : BobCtx := bobOf x s; decide (s.sys.inReset = false) && decide (bobSt x s = bRUNNING) && decide (bobAtBoundary x s = true) && decide (c.block = []) && decide (c.held = []))) | none => false)
noncomputable def clause14 : Bool := (match (ss : List (String × (State)))[1]? with | some (_, s) => (let x : Fin 4 := 1; (let c : BobCtx := bobOf x s; decide (s.sys.inReset = false) && decide (bobSt x s = bRUNNING) && decide (c.block = []) && decide (c.bits % 48 = 0))) | none => false)
noncomputable def clause15 : Bool := (match (ss : List (String × (State)))[13]? with | some (_, s) => (let x : Fin 4 := 1; (let c : BobCtx := bobOf x s; decide (s.sys.inReset = false) && decide (bobSt x s = bRUNNING) && decide (c.block ≠ [] ∨ c.bits % 48 ≠ 0))) | none => false)
noncomputable def clause16 : Bool := (match (ss : List (String × (State)))[1]? with | some (_, s) => (let x : Fin 4 := 1; decide (s.sys.inReset = false) && decide (bobSt x s = bRUNNING ∨ bobSt x s = bCLOSING ∨ bobSt x s = bPAUSED)) | none => false)
theorem witness_BobbinCommands_1 : [clause1, clause2, clause3, clause4, clause5, clause6, clause7, clause8].all id = true := by decide +kernel
theorem witness_BobbinCommands_2 : [clause9, clause10, clause12, clause13, clause14, clause15, clause16].all id = true := by decide +kernel
end WBobbinCommands

namespace WBobbinStreams
def D : State := reg0 0 50 3 (dm 1 1)
def bs (n : Nat) (s : State) : State := wr BOB_CTX_STAT_STATE 1 n s
def bc (c : BobCtx) (s : State) : State := { s with bob := s.bob.put {} 1 c }
def g (s : State) : State := wr BOB_CTX_CFG_DEST_Q 1 80 (wr BOB_CTX_CFG_SRC_Q 1 70 s)
def sv : State := match execBobSaveDone 1 (bc { slot := 3, window := [1,2,3,4,5], bits := 777 } (bs 4 (wr BOB_CTX_STAT_ADLER 1 12345 (g D)))) with | .next t => t | _ => r0
def ss : List (String × State) := named "ss" ((List.range 6).map (fun n => bs n D) ++ [qf 70 3 (bs 1 (g D)), bc { block := [9,8] } (qf 70 3 (bs 1 (g D))), bc { out := [1,2,3,4,5,6,7], bits := 56 } (bs 1 (g D)), bc { out := [1,2,3,4,5,6,7], bits := 56 } (qf 80 5 (bs 1 (g D))), wr WFQ_CFG_CAP 80 1 (bc { out := [1,2,3,4,5,6,7], bits := 56 } (qf 80 65536 (bs 1 (g D)))), bc { out := [1,2,3,4,5,6], flush := true, closing := 1 } (bs 2 (g D)), bc { out := [1,2,3,4,5,6], flush := true, closing := 2 } (bs 2 (g D)), wr BOB_CTX_CFG_IDLE_FLUSH 1 5 (bs 1 (g D)), bc { idleDone := false } (wr BOB_CTX_CFG_IDLE_FLUSH 1 5 (bs 1 (g D))), bc { idleDone := false, block := [1,2,3] } (wr BOB_CTX_CFG_IDLE_FLUSH 1 5 (bs 1 (g D))), bc { slot := 3 } (bs 4 (g D)), bc { slot := 3 } (bs 5 (g D)), bc { slot := 3 } (bs 5 (g r0)), bc { slot := 3 } (bs 5 sv)])
noncomputable def clause1 : Bool := (match (ss : List (String × (State)))[0]? with | some (_, s) => (let x : Fin 4 := 1; (let c : BobCtx := bobOf x s; decide (c.held ≠ [] ∨ bobSt x s = bIDLE ∨ bobSt x s = bPAUSED))) | none => false)
noncomputable def clause2 : Bool := (match (ss : List (String × (State)))[1]? with | some (_, s) => (let x : Fin 4 := 1; (let c : BobCtx := bobOf x s; (let q : Nat := rd BOB_CTX_CFG_SRC_Q x s; decide (bobSt x s = bRUNNING) && decide (c.held = []) && decide ((queueOf q s).items = [])))) | none => false)
noncomputable def clause3 : Bool := (match (ss : List (String × (State)))[6]? with | some (_, s) => (let x : Fin 4 := 1; (let c : BobCtx := bobOf x s; (let q : Nat := rd BOB_CTX_CFG_SRC_Q x s; (match (queueOf q s).items with | it :: _ => (match decodeWord it.word with | .clean _ => decide (bobSt x s = bRUNNING) && decide (c.held = []) && decide (bobFrame x s = 0) && decide (it.linkBad = false) && decide (c.block.length + 6 < bobLimit x s) | _ => false) | _ => false)))) | none => false)
noncomputable def clause4 : Bool := (match (ss : List (String × (State)))[0]? with | some (_, s) => (let x : Fin 4 := 1; (let c : BobCtx := bobOf x s; (let p : Nat := rd BOB_CTX_CFG_DEST_Q x s; decide (c.out.length < 6 ∨ qRoom p s = 0)))) | none => false)
noncomputable def clause5 : Bool := (match (ss : List (String × (State)))[8]? with | some (_, s) => (let x : Fin 4 := 1; (let c : BobCtx := bobOf x s; (let p : Nat := rd BOB_CTX_CFG_DEST_Q x s; decide (6 ≤ c.out.length) && decide (1 ≤ qRoom p s) && decide (c.held = []) && decide (bobSt x s = bRUNNING) && decide (rdB WRP_INJ_ADDR_ARM 0 s = false)))) | none => false)
noncomputable def clause6 : Bool := (match (ss : List (String × (State)))[11]? with | some (_, s) => (let x : Fin 4 := 1; (let c : BobCtx := bobOf x s; (let p : Nat := rd BOB_CTX_CFG_DEST_Q x s; decide (6 ≤ c.out.length) && decide (1 ≤ qRoom p s) && decide (c.held = []) && decide (bobSt x s = bCLOSING) && decide (c.flush = true) && decide (c.out.length = 6) && decide (c.partN = 0) && decide (rdB BOB_CTX_STAT_START_PENDING x s = false) && decide (c.closing = 1)))) | none => false)
noncomputable def clause7 : Bool := (match (ss : List (String × (State)))[12]? with | some (_, s) => (let x : Fin 4 := 1; (let c : BobCtx := bobOf x s; (let p : Nat := rd BOB_CTX_CFG_DEST_Q x s; decide (6 ≤ c.out.length) && decide (1 ≤ qRoom p s) && decide (c.held = []) && decide (bobSt x s = bCLOSING) && decide (c.flush = true) && decide (c.out.length = 6) && decide (c.partN = 0) && decide (rdB BOB_CTX_STAT_START_PENDING x s = false) && decide (c.closing = 2)))) | none => false)
noncomputable def clause8 : Bool := (match (ss : List (String × (State)))[0]? with | some (_, s) => (let x : Fin 4 := 1; (let c : BobCtx := bobOf x s; (let q : Nat := rd BOB_CTX_CFG_SRC_Q x s; (let u : Nat := rd BOB_CTX_CFG_IDLE_FLUSH x s; decide (u = 0 ∨ c.idleDone = true ∨ (bobSt x s ≠ bRUNNING ∧ bobSt x s ≠ bCLOSING) ∨ (bobSt x s = bCLOSING ∧ c.flush = true) ∨ (c.held = [] ∧ qCount q s ≠ 0)))))) | none => false)
noncomputable def clause9 : Bool := (match (ss : List (String × (State)))[14]? with | some (_, s) => (let x : Fin 4 := 1; (let c : BobCtx := bobOf x s; (let q : Nat := rd BOB_CTX_CFG_SRC_Q x s; (let u : Nat := rd BOB_CTX_CFG_IDLE_FLUSH x s; decide (u ≠ 0) && decide (c.idleDone = false) && decide (bobSt x s = bRUNNING ∨ (bobSt x s = bCLOSING ∧ c.flush = false)) && decide (c.held ≠ [] ∨ qCount q s = 0))))) | none => false)
noncomputable def clause10 : Bool := (match (ss : List (String × (State)))[0]? with | some (_, s) => (let x : Fin 4 := 1; decide (bobSt x s ≠ bSAVING)) | none => false)
noncomputable def clause11 : Bool := (match (ss : List (String × (State)))[0]? with | some (_, s) => (let x : Fin 4 := 1; decide (bobSt x s ≠ bRESTORING)) | none => false)
noncomputable def clause12 : Bool := (match (ss : List (String × (State)))[4]? with | some (_, s) => (let x : Fin 4 := 1; (let c : BobCtx := bobOf x s; decide (bobSt x s = bSAVING) && decide (dramHeld s = false) && decide (c.slot < 16))) | none => false)
noncomputable def clause13 : Bool := (match (ss : List (String × (State)))[18]? with | some (_, s) => (let x : Fin 4 := 1; (let c : BobCtx := bobOf x s; decide (bobSt x s = bRESTORING) && decide (dramHeld s = false) && decide (slotInside c.slot s = false))) | none => false)
theorem witness_BobbinStreams_1 : [clause1, clause2, clause3, clause4, clause5, clause6, clause7, clause8].all id = true := by decide +kernel
theorem witness_BobbinStreams_2 : [clause9, clause10, clause11, clause12, clause13].all id = true := by decide +kernel
/-- The first burst of an image whose CRC register stands at 0 after its second word, so that every word after it may be 0. -/
def imageHead : List Nat := [0, 0, 1, 66, 79, 66, 225, 19, 172, 106] ++ List.replicate 38 0 ++ [255, 255, 255, 255] ++ List.replicate 12 0
def headBurst : Burst := BitVec.ofNat 640 2336140095178295695720281304491924209771743639380070129136396585071146817653209765671649640826539199841249315368885747082506431895083269760053818511494401180538823345816282816719822799023115504
def slotFrame : Frame := { bursts := (0, headBurst) :: (List.range' 1 512).map (fun i => (i, 0)) }
def restoring : State := setFrame 0 slotFrame (bs 5 D)

theorem zero_key (l : List Nat) (k : Nat) (h : k ∈ l) : Smap.find? (l.map (fun i => (i, (0 : Burst)))) k = some 0 := by
  induction l with
  | nil => cases h
  | cons a t ih =>
    by_cases h1 : a = k
    · simp [Smap.find?, h1]
    · have h2 : k ∈ t := by simpa [Ne.symm h1] using h
      simpa [Smap.find?, h1] using ih h2

theorem restoring_blocks : blockLoc 0 restoring = 0 ∧ restoring.dram.remap = [] := by decide +kernel

theorem restoring_raw (k : Nat) (h : 1 ≤ k) (h2 : k ≤ 512) : dramRaw k restoring = 0 := by
  have hb : burstLoc k restoring = (0, k) := by
    have h0 : k / 16384 = 0 := by omega
    simp [burstLoc, restoring_blocks.2, Smap.get, Smap.find?, h0, restoring_blocks.1]; omega
  have hf : frameOf 0 restoring = slotFrame := by simp [restoring, setFrame, frameOf, onDram]
  have h3 : Smap.find? slotFrame.bursts k = some 0 := by
    have : (0 : Nat) ≠ k := by omega
    simp only [slotFrame, Smap.find?, this, if_false]
    exact zero_key _ _ (by simp; omega)
  have h4 : (0 : Nat) ≠ lostLoc ∧ (0 : Nat) ≠ noLoc := by decide
  simp [dramRaw, hb, hf, h4.1, h4.2, Smap.get, h3]

theorem zero_burst : decodeBurst 0 = .clean ∧ dataBytes 0 = List.replicate 64 0 := by decide +kernel

theorem head_burst : decodeBurst headBurst = .clean ∧ dataBytes headBurst = imageHead := by decide +kernel

theorem read_clean (k : Nat) (b : Burst) (d : List Nat) (s : State) (hr : dramRaw k s = b) (h : decodeBurst b = .clean ∧ dataBytes b = d) :
    dramRead k 0 s = (.data d, s) := by
  have hx : b ^^^ (0 : Burst) = b := BitVec.xor_zero
  simp only [dramRead, hr, hx, dramSettle, h.1, h.2]

theorem read_step (k n : Nat) (d l : List Nat) (s : State) (h : dramRead k 0 s = (.data d, s)) (h2 : bobRead (k + 1) n s = (some l, s)) :
    bobRead k (n + 1) s = (some (d ++ l), s) := by
  simp only [bobRead, h, h2]

theorem restoring_head : dramRaw 0 restoring = headBurst := by
  have hb : burstLoc 0 restoring = (0, 0) := by
    simp [burstLoc, restoring_blocks.2, Smap.get, Smap.find?, restoring_blocks.1]
  have hf : frameOf 0 restoring = slotFrame := by simp [restoring, setFrame, frameOf, onDram]
  have h4 : (0 : Nat) ≠ lostLoc ∧ (0 : Nat) ≠ noLoc := by decide
  simp [dramRaw, hb, hf, h4.1, h4.2, Smap.get, slotFrame, Smap.find?]

theorem restoring_read (n k : Nat) (h : 1 ≤ k) (h2 : k + n ≤ 513) :
    bobRead k n restoring = (some (List.replicate (64 * n) 0), restoring) := by
  induction n generalizing k with
  | zero => rfl
  | succ n ih =>
    rw [read_step k n _ _ _ (read_clean k 0 _ _ (restoring_raw k h (by omega)) zero_burst) (ih (k + 1) (by omega) (by omega)),
      List.replicate_append_replicate, Nat.mul_succ, Nat.add_comm]

theorem restoring_image : bobRead 0 513 restoring = (some (imageHead ++ List.replicate 32768 0), restoring) :=
  read_step 0 512 _ _ _ (read_clean 0 _ _ _ restoring_head head_burst) (restoring_read 512 1 (by decide) (by decide))

theorem zero_words (n m : Nat) (h : 6 * n ≤ m) : imageWords (List.replicate m 0) n = List.replicate n 0 := by
  induction n generalizing m with
  | zero => rfl
  | succ n ih =>
    have h6 : leNum ((List.replicate m 0).take 6) = 0 := by
      have : (List.replicate m 0).take 6 = List.replicate 6 (0 : Nat) := by rw [List.take_replicate]; congr 1; omega
      rw [this]; decide
    simp only [imageWords, h6, List.drop_replicate, List.replicate_succ, ih (m - 6) (by omega)]

theorem zero_crc (n : Nat) : (List.replicate n 0).foldl crcByte 0 = 0 := by
  induction n with
  | zero => rfl
  | succ n ih =>
    have h : crcByte 0 0 = 0 := by decide
    simpa [List.replicate_succ, h] using ih

theorem zero_wordBytes (n : Nat) : (List.replicate n 0).flatMap wordBytes = List.replicate (6 * n) 0 := by
  induction n with
  | zero => rfl
  | succ n ih =>
    have h : wordBytes 0 = List.replicate 6 0 := by decide
    rw [List.replicate_succ, List.flatMap_cons, ih, h, List.replicate_append_replicate]; congr 1; omega

def headWords : List Nat := [0x424F42010000, 1789662177, 0, 0, 0, 0, 0, 0, 0xFFFFFFFF]
def imageOf : List Nat := headWords ++ List.replicate 5462 0

theorem append_words (k n : Nat) (a l : List Nat) (h : 6 * k ≤ a.length) :
    imageWords (a ++ l) (n + k) = imageWords a k ++ imageWords (a.drop (6 * k) ++ l) n := by
  induction k generalizing a with
  | zero => rfl
  | succ k ih =>
    have h1 := ih (a.drop 6) (by rw [List.length_drop]; omega)
    rw [List.drop_drop] at h1
    rw [← Nat.add_assoc, imageWords, imageWords, List.take_append_of_le_length (by omega), List.drop_append_of_le_length (by omega), h1,
      Nat.mul_succ, Nat.add_comm 6]
    rfl

theorem head_words (n : Nat) (l : List Nat) :
    imageWords (imageHead ++ l) (n + 9) = headWords ++ imageWords (List.replicate 10 0 ++ l) n := by
  have h : imageWords imageHead 9 = headWords ∧ imageHead.drop 54 = List.replicate 10 0 ∧ 6 * 9 ≤ imageHead.length := by decide +kernel
  rw [append_words 9 n imageHead l h.2.2, h.1, h.2.1]

theorem image_words : imageWords (imageHead ++ List.replicate 32768 0) 5471 = imageOf := by
  have h2 : ∀ n m : Nat, 6 * n ≤ 10 + m → imageWords (List.replicate 10 0 ++ List.replicate m 0) n = List.replicate n 0 := by
    intro n m h
    rw [List.replicate_append_replicate, zero_words _ _ h]
  have h3 : ∀ n m : Nat, 6 * n ≤ 10 + m → imageWords (imageHead ++ List.replicate m 0) (n + 9) = headWords ++ List.replicate n 0 := by
    intro n m h
    rw [head_words, h2 n m h]
  exact (congrArg (imageWords _) (rfl : (5471 : Nat) = 5462 + 9)).trans (h3 5462 32768 (by decide))

theorem image_ok : imageOk imageOf = true := by
  have ht : imageOf.take 8 = headWords.take 8 := by
    rw [imageOf, List.take_append_of_le_length (by decide)]
  have hd : imageOf.drop 9 = List.replicate 5462 0 := List.drop_left (l₁ := headWords)
  have hc : imageCheck imageOf = 0xFFFFFFFF := by
    have h0 : ((headWords.take 8 ++ [0]).flatMap wordBytes).foldl crcByte 0xFFFFFFFF = 0 := by decide +kernel
    rw [imageCheck, ht, hd, List.flatMap_append, zero_wordBytes, crc32, List.foldl_append, h0, zero_crc]; rfl
  have h0 : imageOf.getD 0 0 = 0x424F42010000 := rfl
  have h7 : imageOf.getD 7 0 = 0 := rfl
  have h8 : imageOf.getD 8 0 = 0xFFFFFFFF := rfl
  simp only [imageOk, hc, h0, h7, h8]; decide

/-- A restored context: the hypotheses of the last clause met together. -/
theorem witness_BobbinStreams_restore :
    bobSt 1 restoring = bRESTORING ∧ dramHeld restoring = false ∧ slotInside (bobOf 1 restoring).slot restoring = true ∧
    bobSlotAddr (bobOf 1 restoring).slot restoring / 64 = 0 ∧
    bobRead 0 513 restoring = (some (imageHead ++ List.replicate 32768 0), restoring) ∧
    5471 = imageLen (leNum (((imageHead ++ List.replicate 32768 0).drop 30).take 6)) ∧
    bobRead (0 + 513) ((6 * 5471 + 63) / 64 - 513) restoring = (some [], restoring) ∧
    imageWords (imageHead ++ List.replicate 32768 0 ++ []) 5471 = imageOf ∧ imageOk imageOf = true := by
  refine ⟨by decide +kernel, by decide +kernel, by decide +kernel, by decide +kernel, restoring_image, ?_, rfl, ?_, image_ok⟩
  · have : ((imageHead ++ List.replicate 32768 0).drop 30).take 6 = (imageHead.drop 30).take 6 := by
      rw [List.drop_append_of_le_length (by decide), List.take_append_of_le_length (by decide)]
    rw [this]; decide
  · rw [List.append_nil, image_words]

end WBobbinStreams

namespace WCalibrationPairs
def onQ (f : Cal → Cal) (s : State) : State := { s with cal := f s.cal }
def run28 (k i : Nat) : Cmd := { cm 0x28 [k] with phase := .running, aux := calAux k i }
def pr (k i : Nat) (s : State) : State := onQ (fun c => { c with pairs := [{ kind := k, idx := i, byCmd := true, since := 500, tol := calTols s }] }) (cmds [run28 k i] s)
def vc : List Int := [5, 33000, 100, 200, 300, 7]
def oc (v : List Int) : CalOut := { sel := [1,2,3,4,5,6,7,8,9], vals := v }
def two (a b : CalOut) (s : State) : State := onQ (fun c => { c with pairs := c.pairs.map (fun p => { p with first := some a, second := some b }) }) s
def one (a : CalOut) (s : State) : State := onQ (fun c => { c with pairs := c.pairs.map (fun p => { p with first := some a }) }) s
def qd (l : List (Nat × Nat)) (n : Nat) (s : State) : State := onQ (fun c => { c with queue := l, cmdN := n }) s
def bad : CalOut := { oc vc with failed := true }
def p0 : State := wr CNV_STAT_STATE 1 cCALIBRATING (pr 0 1 (st 3 r0))
def tp (n : Nat) : List Int := (List.range 320).map (fun i => ((i * n : Nat) : Int))
def rbd (s : State) : State := wr CAL_STAT_REF_BAD 0 1 (wr CAL_STAT_CALCLK_BAD 0 1 s)
def late (n : Nat) : State := (fun s => { s with reed := { s.reed with slots := [(1, { gen := 1, inForce := some cb0 })] }, cal := { s.cal with pairs := s.cal.pairs.map (fun c => { c with caps := [{ yy 0 with slot := 1, launchRaw := 512 * n }] }) } }) (wr CAL_REPL_REPS_M1 0 0 (wr CAL_REPL_REFL 0 0 (pr 2 1 (st 4 r0))))
def ss : List (String × State) := named "ss" ([late 6000000000, late 60000, rbd p0, rbd (two (oc vc) (oc vc) p0), rbd (pr 3 1 (st 3 r0)), rbd (pr 1 1 (st 3 r0)), rbd (two { vals := List.replicate 16 9 } { vals := List.replicate 16 10 } (pr 3 1 (st 3 r0))), r0, st 3 r0, qd [(2, 5), (3, 0)] 1 (st 3 r0), qd [(3, 0), (2, 5)] 2 (st 4 r0), qd [(2, 5), (3, 0)] 1 (pr 2 5 (st 3 r0)), pr 3 0 (st 3 r0),
 qd [(0, 20)] 1 (st 3 r0), wr CNV_STAT_STATE 20 cREADY (qd [(0, 20)] 1 (st 3 r0)), wr CNV_STAT_STATE 65 cREADY (qd [(0, 65)] 0 (st 3 r0)), wr CNV_STAT_STATE 65 cREADY (wr CNV_GRP_STAT_SPARE 1 65 (wr CNV_STAT_STATE 20 cSERVING (qd [(0, 20)] 0 (st 3 r0)))),
 qd [(1, 5)] 0 (st 3 r0), qd [(1, 28)] 0 (st 3 r0), wr TSU_STAT_SPARE_FOR 0 7 (qd [(1, 5)] 0 (st 3 r0)), wr TSU_STAT_SPARE_FOR 0 5 (onQ (fun c => { c with line := some 5 }) (qd [(1, 5)] 0 (st 3 r0))),
 p0, one (oc vc) p0, two (oc vc) (oc vc) p0, two (oc vc) (oc [5, 33000, 100, 200, 300, 20]) p0, two (oc vc) (oc [50, 33000, 100, 200, 300, 7]) p0, two (oc vc) { oc vc with sel := [1,2,3,4,5,6,7,8,8] } p0, two bad (oc vc) p0, two bad (oc vc) (wr CNV_GRP_STAT_SPARE 0 1 p0),
 pr 1 1 (st 3 r0), two { vals := tp 5 } { vals := tp 5 } (pr 1 1 (st 3 r0)), two { vals := tp 5 } { vals := tp 6 } (pr 1 1 (st 3 r0)), two { vals := tp 5 } { failed := true } (pr 1 1 (st 3 r0)),
 pr 3 1 (st 3 r0), two { vals := List.replicate 16 9 } { vals := List.replicate 16 10 } (pr 3 1 (st 3 r0)), two { vals := List.replicate 16 9 } { vals := List.replicate 16 1000 } (pr 3 1 (st 3 r0)), two { replica := [(100,5)] } { replica := [(100,5)] } (pr 2 1 (st 4 r0)), two { replica := [(100,5)] } { replica := [(-100,5)] } (pr 2 1 (st 4 r0)), pr 2 1 (st 3 r0),
 onQ (fun c => { c with retry := [(calKey 0 1, 99999), (calKey 3 1, 700)] }) (wr CAL_CTL_AUTO_RECAL 0 1 (st 3 r0)), onQ (fun c => { c with retry := [(calKey 0 1, 99999), (calKey 3 1, 700)] }) (wr CAL_CTL_AUTO_RECAL 0 0 (st 3 r0))])
def ms : List (String × CalMeas) := [("m0", .converter false [1,2,3,4,5,6,7,8,9] vc), ("m1", .converter true [1,2,3,4,5,6,7,8,9] vc), ("m2", .line (List.replicate 320 1000)), ("m3", .line ((List.replicate 300 3000) ++ List.replicate 20 0)), ("m4", .anchor (List.replicate 16 4)), ("m5", .replica []), ("m6", .replica [[0x12345678]])]
noncomputable def clause1 : Bool := (match (ss : List (String × (State)))[7]? with | some (_, s) => decide (devState s ≠ stIDLE) && decide (devState s ≠ stWEAVING) | none => false)
noncomputable def clause2 : Bool := (match (ss : List (String × (State)))[0]? with | some (_, s) => decide (devState s = stIDLE ∨ devState s = stWEAVING) && (let kf : Fin 4 := 2; decide ((2 : Fin 4) = kf ∨ kf = 3) && decide (calBusy kf s = true)) | none => false)
noncomputable def clause3 : Bool := (match (ss : List (String × (State)))[9]? with | some (_, s) => decide (devState s = stIDLE ∨ devState s = stWEAVING) && (let kf : Fin 4 := 2; (match ((s.cal.queue.map (fun o => ("i", o.2))) : List (String × (Nat)))[0]? with | some (_, i) => decide ((2 : Fin 4) = kf ∨ (kf = 3 ∧ rdB CAL_STAT_REF_BAD 0 s = false ∧ s.anc.phase = .idle)) && decide (calBusy kf s = false) && decide (s.cal.queue.find? (fun o => decide (o.1 = kf.val)) = some (kf.val, i)) | none => false)) | none => false)
noncomputable def clause4 : Bool := (match (ss : List (String × (State)))[14]? with | some (_, s) => (let g : Fin 4 := 1; decide (devState s = stIDLE ∨ devState s = stWEAVING) && (match convNext g s with | some j => decide (rdB CAL_STAT_REF_BAD 0 s = false) && decide (s.cal.pairs.any (fun c => decide (c.kind = 0 ∧ convGroup c.idx = g.val)) = false) && decide (cnvSt j s = cREADY) | _ => false)) | none => false)
noncomputable def clause5 : Bool := (match (ss : List (String × (State)))[13]? with | some (_, s) => (let g : Fin 4 := 1; decide (devState s = stIDLE ∨ devState s = stWEAVING) && (match convNext g s with | some j => decide (rdB CAL_STAT_REF_BAD 0 s = false) && decide (s.cal.pairs.any (fun c => decide (c.kind = 0 ∧ convGroup c.idx = g.val)) = false) && (match slotOfConv j s with | some k => decide (cnvSt j s = cSERVING) && decide (swapReason g (k % 16) s = 0) | _ => false) | _ => false)) | none => false)
noncomputable def clause6 : Bool := (match (ss : List (String × (State)))[17]? with | some (_, s) => decide (devState s = stIDLE ∨ devState s = stWEAVING) && (let l : Nat := 5; decide (calBusy 1 s = false) && decide (s.tsu.spareNext = none) && decide (rdB CAL_STAT_CALCLK_BAD 0 s = false) && decide (s.cal.line = none) && decide (s.cal.queue.find? (fun o => decide (o.1 = 1)) = some (1, l)) && decide (rd TSU_STAT_SPARE_FOR 0 s = 31)) | none => false)
noncomputable def clause7 : Bool := (match (ss : List (String × (State)))[19]? with | some (_, s) => decide (devState s = stIDLE ∨ devState s = stWEAVING) && (let l : Nat := 5; decide (calBusy 1 s = false) && decide (s.tsu.spareNext = none) && decide (rdB CAL_STAT_CALCLK_BAD 0 s = false) && decide (s.cal.line = none) && decide (s.cal.queue.find? (fun o => decide (o.1 = 1)) = some (1, l)) && decide (rd TSU_STAT_SPARE_FOR 0 s ≠ 31)) | none => false)
noncomputable def clause8 : Bool := (match (ss : List (String × (State)))[20]? with | some (_, s) => decide (devState s = stIDLE ∨ devState s = stWEAVING) && (let l : Nat := 5; decide (calBusy 1 s = false) && decide (s.tsu.spareNext = none) && decide (rdB CAL_STAT_CALCLK_BAD 0 s = false) && decide (s.cal.line = some l) && decide (rd TSU_STAT_SPARE_FOR 0 s = l)) | none => false)
noncomputable def clause9 : Bool := (match (ss : List (String × (State)))[0]? with | some (_, s) => (let kind : Fin 4 := 0; (let idx : Fin 256 := 1; decide (pairOf kind idx s = none))) | none => false)
noncomputable def clause11 : Bool := (match (ss : List (String × (State)))[0]? with | some (_, s) => (let kind : Fin 4 := 2; (let idx : Fin 256 := 1; (match (ms : List (String × (CalMeas)))[0]? with | some (_, m) => (match pairOf kind idx s with | some c => decide (c.second.isSome = true ∨ runResult c m s = none) | _ => false) | none => false))) | none => false)
noncomputable def clause12 : Bool := (match (ss : List (String × (State)))[0]? with | some (_, s) => (let kind : Fin 4 := 2; (let idx : Fin 256 := 1; (match (ms : List (String × (CalMeas)))[6]? with | some (_, m) => (match pairOf kind idx s with | some c => (match runResult c m s with | some oo => (let e : Nat := oo.2.1; decide (c.second = none) && decide (kind.val = 2) && decide (c.since + 10000000000 < e)) | _ => false) | _ => false) | none => false))) | none => false)
noncomputable def clause13 : Bool := (match (ss : List (String × (State)))[2]? with | some (_, s) => (let kind : Fin 4 := 0; (let idx : Fin 256 := 1; (match (ms : List (String × (CalMeas)))[0]? with | some (_, m) => (match pairOf kind idx s with | some c => (match runResult c m s with | some _ => decide (c.second = none) && decide (kind.val ≠ 2) && decide (refBad kind s = true) | _ => false) | _ => false) | none => false))) | none => false)
noncomputable def clause14 : Bool := (match (ss : List (String × (State)))[3]? with | some (_, s) => (let kind : Fin 4 := 0; (let idx : Fin 256 := 1; (match pairOf kind idx s with | some c => decide (c.first ≠ none) && decide (c.second ≠ none) && decide (refBad kind s = true) | _ => false))) | none => false)
noncomputable def clause15 : Bool := (match (ss : List (String × (State)))[0]? with | some (_, s) => (let kind : Fin 4 := 2; (let idx : Fin 256 := 1; (match pairOf kind idx s with | some c => decide (c.first = none ∨ c.second = none) | _ => false))) | none => false)
noncomputable def clause16 : Bool := (match (ss : List (String × (State)))[1]? with | some (_, s) => (let kind : Fin 4 := 2; (let idx : Fin 256 := 1; (match (ms : List (String × (CalMeas)))[6]? with | some (_, m) => (match pairOf kind idx s with | some c => (match runResult c m s with | some oo => (let e : Nat := oo.2.1; decide (c.second = none) && decide ((kind.val = 2 → e ≤ c.since + 10000000000)) && decide (refBad kind s = false)) | _ => false) | _ => false) | none => false))) | none => false)
noncomputable def clause17 : Bool := (match (ss : List (String × (State)))[23]? with | some (_, s) => (let kind : Fin 4 := 0; (let idx : Fin 256 := 1; (match pairOf kind idx s with | some c => (match c.first with | some a => (match c.second with | some b => decide ((kind.val = 0 → idx.val < 68 ∧ cnvSt idx s = cCALIBRATING)) && decide ((kind.val = 1 → idx.val < 29)) && decide (refBad kind s = false) && decide (a.failed = false) && decide (b.failed = false) && decide (disagreement c a b = none) | _ => false) | _ => false) | _ => false))) | none => false)
noncomputable def clause18 : Bool := (match (ss : List (String × (State)))[24]? with | some (_, s) => (let kind : Fin 4 := 0; (let idx : Fin 256 := 1; (match pairOf kind idx s with | some c => (match c.first with | some a => (match c.second with | some b => decide ((kind.val = 0 → idx.val < 68 ∧ cnvSt idx s = cCALIBRATING)) && decide ((kind.val = 1 → idx.val < 29)) && decide (refBad kind s = false) && decide (a.failed = false) && decide (b.failed = false) && (match disagreement c a b with | some kk => (let k : Nat := kk.1; decide (k < 256)) | _ => false) | _ => false) | _ => false) | _ => false))) | none => false)
noncomputable def clause19 : Bool := (match (ss : List (String × (State)))[27]? with | some (_, s) => (let kind : Fin 4 := 0; (let idx : Fin 256 := 1; (match pairOf kind idx s with | some c => (match c.first with | some a => (match c.second with | some b => decide ((kind.val = 0 → idx.val < 68 ∧ cnvSt idx s = cCALIBRATING)) && decide ((kind.val = 1 → idx.val < 29)) && decide (refBad kind s = false) && decide (a.failed = true ∨ b.failed = true) | _ => false) | _ => false) | _ => false))) | none => false)
noncomputable def clause20 : Bool := (match (ss : List (String × (State)))[0]? with | some (_, s) => (let kind : Fin 4 := 0; (let idx : Fin 256 := 1; (let u : Nat := s.cal.retry.get 0 (calKey kind idx); decide (u = 0)))) | none => false)
noncomputable def clause21 : Bool := (match (ss : List (String × (State)))[39]? with | some (_, s) => (let kind : Fin 4 := 0; (let idx : Fin 256 := 1; (let u : Nat := s.cal.retry.get 0 (calKey kind idx); decide (u ≠ 0)))) | none => false)
noncomputable def clause22 : Bool := (match (ss : List (String × (State)))[2]? with | some (_, s) => decide (s.cal.pairs.find? (fun c => decide (c.kind = 2) && c.second.isNone) = none) | none => false)
noncomputable def clause23 : Bool := (match (ss : List (String × (State)))[0]? with | some (_, s) => (match s.cal.pairs.find? (fun c => decide (c.kind = 2) && c.second.isNone) with | some _ => true | _ => false) | none => false)
theorem witness_CalibrationPairs_1 : [clause1, clause2, clause3, clause4, clause5, clause6, clause7, clause8].all id = true := by decide +kernel
theorem witness_CalibrationPairs_2 : [clause9, clause11, clause12, clause13, clause14, clause15, clause16, clause17].all id = true := by decide +kernel
theorem witness_CalibrationPairs_3 : [clause18, clause19, clause20, clause21, clause22, clause23].all id = true := by decide +kernel
end WCalibrationPairs

namespace WCalibrationUpkeep
def onQ (f : Cal → Cal) (s : State) : State := { s with cal := f s.cal }
def srv (s : State) : State := wr CNV_STAT_STATE 1 cSERVING (wr CAL_CTL_CHK_S 0 2 s)
def sv0 : CalSaveRun := { copy := 2, seq := 6, bytes := [1,2,3] }
def ss : List (String × State) := named "ss" ([r0, st 3 r0, srv (st 3 r0), srv (wr PRT_STAT_STATE 0 1 (wv [{ pk 3 [yy 0] with tick := 2000000000 }] r0)), onQ (fun c => { c with chkFail := [(1, 1)] }) (srv (wr PRT_STAT_STATE 0 1 (wv [{ pk 3 [yy 0] with tick := 2000000000 }] r0))), wr CAL_CTL_AUTO_RECAL 0 0 (st 3 r0), wr CAL_STAT_REF_BAD 0 1 r0, wr CAL_STAT_COPY 0 1 (st 3 r0), onQ (fun c => { c with save := some sv0 }) (st 3 r0), onQ (fun c => { c with save := some sv0 }) (wr SYS_STRAP_NOFLASH 0 1 (st 3 r0)), { st 3 r0 with sys := { r0.sys with hotRun := 2 } }, { st 3 r0 with sys := { r0.sys with inReset := true } }])
def vs : List (String × Qword) := ([0, 1, 2, 0xFFFFFFFFFFFFFFFF, 2500000] : List Nat).map (fun v => ("v" ++ toString v, BitVec.ofNat 64 v))
noncomputable def clause1 : Bool := (match (ss : List (String × (State)))[0]? with | some (_, s) => (let j : Fin 68 := 66; decide (slotOfConv j s = none ∨ rd CAL_CTL_CHK_S 0 s = 0 ∨ cnvSt j s ≠ cSERVING)) | none => false)
noncomputable def clause2 : Bool := (match (ss : List (String × (State)))[3]? with | some (_, s) => (let j : Fin 68 := 1; (match slotOfConv j s with | some k => (let due : Nat := s.cal.chk.get 0 j + rd CAL_CTL_CHK_S 0 s * 1000000000; (match checkRoom (k / 4) due s with | some _ => decide (rd CAL_CTL_CHK_S 0 s ≠ 0) && decide (cnvSt j s = cSERVING) | _ => false)) | _ => false)) | none => false)
noncomputable def clause3 : Bool := (match (ss : List (String × (State)))[0]? with | some (_, s) => (match (vs : List (String × (Qword)))[4]? with | some (_, v) => decide (s.sys.inReset = false) && decide (CAL_REF_REFIN.ofQ v = rd CAL_REF_REFIN 0 s) | none => false) | none => false)
noncomputable def clause4 : Bool := (match (ss : List (String × (State)))[0]? with | some (_, s) => (match (vs : List (String × (Qword)))[0]? with | some (_, v) => decide (s.sys.inReset = false) && decide (CAL_REF_REFIN.ofQ v ≠ rd CAL_REF_REFIN 0 s) && decide (s.cal.pairs = []) && decide (s.cal.queue = []) && decide (s.anc.phase ≠ .calWait) | none => false) | none => false)
noncomputable def clause5 : Bool := (match (ss : List (String × (State)))[0]? with | some (_, s) => decide (s.anc.phase ≠ .calWait) | none => false)
noncomputable def clause8 : Bool := (match (ss : List (String × (State)))[0]? with | some (_, s) => decide (s.cal.save = none) && decide (s.sys.inReset = false) | none => false)
noncomputable def clause9 : Bool := (match (ss : List (String × (State)))[8]? with | some (_, s) => decide (s.cal.save ≠ none) && decide (s.sys.inReset = false) | none => false)
noncomputable def clause10 : Bool := (match (ss : List (String × (State)))[0]? with | some (_, s) => decide (s.cal.save = none) | none => false)
noncomputable def clause11 : Bool := (match (ss : List (String × (State)))[8]? with | some (_, s) => (match s.cal.save with | some r => decide (r.copy < 4) && decide (rdB SYS_STRAP_NOFLASH 0 s = false) | _ => false) | none => false)
noncomputable def clause12 : Bool := (match (ss : List (String × (State)))[8]? with | some (_, s) => (match s.cal.save with | some r => decide (r.copy < 4) | _ => false) | none => false)
noncomputable def clause13 : Bool := (match (ss : List (String × (State)))[11]? with | some (_, s) => decide (s.sys.inReset = true) | none => false)
noncomputable def clause14 : Bool := (match (ss : List (String × (State)))[0]? with | some (_, s) => (let v0 : BitVec 16 := 800; (let v1 : BitVec 16 := 800; (let v2 : BitVec 16 := 1100; (let v3 : BitVec 16 := 1800; (let v4 : BitVec 16 := 5000; (let low : List (BitVec 16 × Nat) := [(v0, 700), (v1, 880), (v2, 970), (v3, 1580), (v4, 4400)]; decide (s.sys.inReset = false) && decide ((∃ x ∈ low, x.1.toNat < x.2)))))))) | none => false)
noncomputable def clause15 : Bool := (match (ss : List (String × (State)))[5]? with | some (_, s) => (let t0 : BitVec 16 := 2500; (let t1 : BitVec 16 := 2500; (let t2 : BitVec 16 := 2500; (let t3 : BitVec 16 := 2500; (let v0 : BitVec 16 := 800; (let v1 : BitVec 16 := 1000; (let v2 : BitVec 16 := 1100; (let v3 : BitVec 16 := 1800; (let v4 : BitVec 16 := 5000; (let low : List (BitVec 16 × Nat) := [(v0, 700), (v1, 880), (v2, 970), (v3, 1580), (v4, 4400)]; decide (s.sys.inReset = false) && decide ((∀ x ∈ low, x.2 ≤ x.1.toNat)) && decide (devState s = stIDLE) && decide (faultActive s = 0) && decide (rdB CAL_CTL_AUTO_RECAL 0 s = false) && [t0, t1, t2, t3].all (fun x => decide (x.toInt < tempWarn s)))))))))))) | none => false)
noncomputable def clause16 : Bool := (match (ss : List (String × (State)))[10]? with | some (_, s) => (let t0 : BitVec 16 := 2500; (let t1 : BitVec 16 := 14000; (let t2 : BitVec 16 := 2500; (let t3 : BitVec 16 := 2500; (let v0 : BitVec 16 := 800; (let v1 : BitVec 16 := 1000; (let v2 : BitVec 16 := 1100; (let v3 : BitVec 16 := 1800; (let v4 : BitVec 16 := 5000; (let low : List (BitVec 16 × Nat) := [(v0, 700), (v1, 880), (v2, 970), (v3, 1580), (v4, 4400)]; decide (s.sys.inReset = false) && decide ((∀ x ∈ low, x.2 ≤ x.1.toNat)) && decide (devState s = stIDLE) && decide (faultActive s = 0) && decide (s.sys.hotRun = 2) && [t0, t1, t2, t3].any (fun x => decide (tempFault s ≤ x.toInt)))))))))))) | none => false)
theorem witness_CalibrationUpkeep_1 : [clause1, clause2, clause3, clause4, clause5, clause8, clause9, clause10].all id = true := by decide +kernel
theorem witness_CalibrationUpkeep_2 : [clause11, clause12, clause13, clause14, clause15, clause16].all id = true := by decide +kernel
end WCalibrationUpkeep

namespace WResets
def rn : State := { st 4 r0 with sys := { r0.sys with inReset := true, sample := true } }
def rich : State := wr DRM_STAT_HELD 0 1 (wr DRM_REGION_CTL_KEEP 0 1 (reg0 0 50 3 (dm 1 1)))
def setC (s : State) : State := wr SYS_ID_STEP_MINOR 0 1 { s with sys := { s.sys with cells := 0x155 } }
def ss : List (String × State) := named "ss" [r0, st 4 r0, wr WRP_STAT_SELFTEST_OK 0 1 (wr CAL_REF_REFIN 0 2400000 (wr SYS_PROFILE_PROFILE 0 3 (wv [pk 3 []] r0))), rich, { rich with warp := { rowMap := [(5, 3)], sparesUsed := [(1, 2)], fill := none } }, rn, { r0 with sys := { r0.sys with inReset := true } }, { rich with sys := { r0.sys with inReset := true, tap := .extest } }, setC { rich with sys := { r0.sys with inReset := true }, src := { r0.src with intlkLow := true } }, { rich with src := { r0.src with intlkLow := true } }, { wv [] rich with now := 100, src := { r0.src with gates := [(3, some { at_ := 25000, len := 40, chipLen := 4, chips := 10, code := [] }), (4, some { at_ := 5, len := 4, chipLen := 4, chips := 1, code := [] })] } }]
def allF : List (Fld × Nat) := regTable.flatMap (fun r => r.fields.flatMap (fun f => (List.range r.count).map (fun i => (f, i))))
noncomputable def clause2 : Bool := (match (ss : List (String × (State)))[0]? with | some (_, s) => (match (([(Sys2Proof.Machine.execRstN, 2, false), (Sys2Proof.Machine.execFlr, 3, true), (Sys2Proof.Machine.execCoreRst, 4, true)] : List ((State → Host.Outcome State Fault Refusal) × Nat × Bool)))[0]? with | some x => decide ((x.2.1 = 4 → s.sys.inReset = false)) | none => false) | none => false)
noncomputable def clause7 : Bool := (match (ss : List (String × (State)))[5]? with | some (_, s) => decide (s.sys.inReset = true) | none => false)
noncomputable def clause9 : Bool := (match (ss : List (String × (State)))[0]? with | some (_, s) => decide (s.sys.inReset = false ∨ tapHolds s = true) | none => false)
noncomputable def clause10 : Bool := (match (ss : List (String × (State)))[5]? with | some (_, s) => decide (s.sys.inReset = true) && decide (tapHolds s = false) | none => false)
theorem witness_Resets : [clause2, clause7, clause9, clause10].all id = true := by decide +kernel
end WResets

namespace WBringUp
def bu (n : Nat) : State := wr SYS_BRINGUP_STEP 0 n r0
def fimg : List (BitVec 8) := (flashImage 5 r0).map (BitVec.ofNat 8)
def cv : CalMeas := .converter false [1,2,3,4,5,6,7,8,9] [5, 33000, 100, 200, 300, 7]
def mss : List (CalMeas × CalMeas) := List.replicate 68 (cv, cv) ++ List.replicate 29 (.line (List.replicate 320 1000), .line (List.replicate 320 1000)) ++ [(.anchor (List.replicate 16 4), .anchor (List.replicate 16 5))]
def mss2 : List (CalMeas × CalMeas) := List.replicate 68 (cv, .converter true [1,2,3,4,5,6,7,8,9] [5, 33000, 100, 200, 300, 7]) ++ List.replicate 29 (.line (List.replicate 320 1000), .line ((List.replicate 300 3000) ++ List.replicate 20 0)) ++ [(.anchor (List.replicate 16 4), .anchor (List.replicate 16 500))]
def ss : List (String × State) := named "ss" ((List.range 9).map bu ++ [st 3 r0, wr SYS_STRAP_NOFLASH 0 1 (bu 1), wr CAL_CTL_AUTO_RECAL 0 1 (bu 7), setEng 3 { loom := [(5, encodeWord 9)], istore := [(7, encodeWord 2)] } { bu 4 with warp := { (bu 4).warp with words := [(20, encodeWord 8)] } }, wr SYS_FAULT_ACTIVE 0 1 (bu 1)])
def sp0 : SpdRead := .present true 2 16 32 295
def sp1 : SpdRead := .present true 1 16 32 295
def sp2 : SpdRead := .present false 2 16 32 295
def sp3 : SpdRead := .present true 3 16 32 295
noncomputable def clause1 : Bool := (match (ss : List (String × (State)))[9]? with | some (_, s) => decide (devState s ≠ stBRINGUP) | none => false)
noncomputable def clause2 : Bool := (match (ss : List (String × (State)))[0]? with | some (_, s) => (let n : Nat := rd SYS_BRINGUP_STEP 0 s; decide (devState s = stBRINGUP) && decide (n ≠ 1)) | none => false)
noncomputable def clause4 : Bool := (match (ss : List (String × (State)))[0]? with | some (_, s) => (let n : Nat := rd SYS_BRINGUP_STEP 0 s; decide (devState s = stBRINGUP) && decide (n ≠ 6)) | none => false)
noncomputable def clause5 : Bool := (match (ss : List (String × (State)))[1]? with | some (_, s) => (let n : Nat := rd SYS_BRINGUP_STEP 0 s; decide (devState s = stBRINGUP) && decide (n = 1)) | none => false)
noncomputable def clause6 : Bool := (match (ss : List (String × (State)))[1]? with | some (_, s) => (let n : Nat := rd SYS_BRINGUP_STEP 0 s; decide (devState s = stBRINGUP) && decide (n = 1) && decide (bitOf (faultActive s) 0 = false)) | none => false)
noncomputable def clause7 : Bool := (match (ss : List (String × (State)))[2]? with | some (_, s) => (let n : Nat := rd SYS_BRINGUP_STEP 0 s; decide (devState s = stBRINGUP) && decide (n = 2)) | none => false)
noncomputable def clause8 : Bool := (match (ss : List (String × (State)))[3]? with | some (_, s) => (let n : Nat := rd SYS_BRINGUP_STEP 0 s; decide (devState s = stBRINGUP) && decide (n = 3)) | none => false)
noncomputable def clause9 : Bool := (match (ss : List (String × (State)))[3]? with | some (_, s) => (let n : Nat := rd SYS_BRINGUP_STEP 0 s; decide (devState s = stBRINGUP) && decide (n = 3) && decide (bitOf (faultActive s) 3 = false)) | none => false)
noncomputable def clause10 : Bool := (match (ss : List (String × (State)))[4]? with | some (_, s) => (let n : Nat := rd SYS_BRINGUP_STEP 0 s; decide (devState s = stBRINGUP) && decide (n = 4) && decide (rdB WRP_INJ_ADDR_ARM 0 s = false)) | none => false)
noncomputable def clause11 : Bool := (match (ss : List (String × (State)))[4]? with | some (_, s) => (let n : Nat := rd SYS_BRINGUP_STEP 0 s; decide (devState s = stBRINGUP) && decide (n = 4) && decide (rdB WRP_INJ_ADDR_ARM 0 s = false) && (let a : BitVec 25 := 0x0000001#25; decide (a.toNat < 0x1800000) && decide (rdB WRP_CTL_AUTO_REPAIR 0 s = true) && decide (s.warp.sparesUsed.get 0 (bankOfQuad (a.toNat / 4)) < 8))) | none => false)
noncomputable def clause12 : Bool := (match (ss : List (String × (State)))[5]? with | some (_, s) => (let n : Nat := rd SYS_BRINGUP_STEP 0 s; decide (devState s = stBRINGUP) && decide (n = 5)) | none => false)
noncomputable def clause14 : Bool := (match (ss : List (String × (State)))[6]? with | some (_, s) => (let n : Nat := rd SYS_BRINGUP_STEP 0 s; decide (devState s = stBRINGUP) && decide (n = 6)) | none => false)
noncomputable def clause15 : Bool := (match (ss : List (String × (State)))[7]? with | some (_, s) => (let n : Nat := rd SYS_BRINGUP_STEP 0 s; decide (devState s = stBRINGUP) && decide (n = 7) && (match ([("mss", mss), ("mss2", mss2), ("nil", [])] : List (String × (List (CalMeas × CalMeas))))[0]? with | some (_, ms) => decide (bringupMeasOk ms s = true) | none => false)) | none => false)
theorem witness_BringUp_1 : [clause1, clause2, clause4, clause5, clause6, clause7, clause8, clause9].all id = true := by decide +kernel
theorem witness_BringUp_2 : [clause10, clause11, clause12, clause14, clause15].all id = true := by decide +kernel
end WBringUp

namespace WFaultsAndClocks
def ss : List (String × State) := named "ss" [r0, st 3 r0, wv [pk 3 []] r0, st 6 (wr SYS_FAULT_ACTIVE 0 32 r0), st 6 (wr SYS_FAULT_ACTIVE 0 34 r0), st 5 r0, wr PRT_STAT_STATE 3 1 (st 3 r0), { st 3 r0 with sys := { r0.sys with inReset := true } }, { st 3 r0 with sys := { r0.sys with supplyWarn := 2 } }, st 6 r0, st 2 r0, st 5 (wr SYS_FAULT_ACTIVE 0 34 r0), wr SHT_ENG_STAT_ENG_STATE 3 4 (wr SYS_PROFILE_PROFILE 0 2 r0)]
def vs : List (String × Qword) := ([0, 1, 2, 3, 7] : List Nat).map (fun v => ("v" ++ toString v, BitVec.ofNat 64 v))
noncomputable def clause1 : Bool := (match (ss : List (String × (State)))[7]? with | some (_, s) => decide (s.sys.inReset = true) | none => false)
noncomputable def clause2 : Bool := (match (ss : List (String × (State)))[0]? with | some (_, s) => decide (s.sys.inReset = false) && decide (weaving s = false) | none => false)
noncomputable def clause3 : Bool := (match (ss : List (String × (State)))[2]? with | some (_, s) => decide (s.sys.inReset = false) && decide (weaving s = true) && decide (bitOf (faultActive s) 0 = false) | none => false)
noncomputable def clause6 : Bool := (match (ss : List (String × (State)))[1]? with | some (_, s) => decide (devState s = stIDLE ∨ devState s = stWEAVING) && decide (bitOf (faultActive s) 5 = false) && decide (s.sys.inReset = false) | none => false)
noncomputable def clause7 : Bool := (match (ss : List (String × (State)))[3]? with | some (_, s) => decide (devState s = stFAULT) && decide (setBitTo (faultActive s) 5 false % 256 = 0) && decide (s.sys.inReset = false) | none => false)
noncomputable def clause8 : Bool := (match (ss : List (String × (State)))[4]? with | some (_, s) => decide (devState s = stFAULT) && decide (setBitTo (faultActive s) 5 false % 256 ≠ 0) && decide (s.sys.inReset = false) | none => false)
noncomputable def clause9 : Bool := (match (ss : List (String × (State)))[0]? with | some (_, s) => decide (devState s ≠ stFAULT) && decide (s.sys.inReset = false) && decide (setBitTo (faultActive s) 5 false % 256 = 0) | none => false)
noncomputable def clause10 : Bool := (match (ss : List (String × (State)))[11]? with | some (_, s) => decide (devState s ≠ stFAULT) && decide (s.sys.inReset = false) && decide (setBitTo (faultActive s) 5 false % 256 ≠ 0) | none => false)
noncomputable def clause14 : Bool := (match (ss : List (String × (State)))[0]? with | some (_, s) => (let k : Fin 5 := 1; (let mv : BitVec 16 := 879; (let brown : Nat := [700, 880, 970, 1580, 4400].getD k 0; decide (s.sys.inReset = false) && decide (mv.toNat < brown)))) | none => false)
noncomputable def clause16 : Bool := (match (ss : List (String × (State)))[0]? with | some (_, s) => (let k : Fin 5 := 1; (let mv : BitVec 16 := 1000; (let brown : Nat := [700, 880, 970, 1580, 4400].getD k 0; decide (s.sys.inReset = false) && decide (brown ≤ mv.toNat) && decide (inBand (supplyRange k) mv.toNat = true)))) | none => false)
noncomputable def clause17 : Bool := (match (ss : List (String × (State)))[1]? with | some (_, s) => (let k : Fin 5 := 1; (let mv : BitVec 16 := 900; (let brown : Nat := [700, 880, 970, 1580, 4400].getD k 0; decide (s.sys.inReset = false) && decide (brown ≤ mv.toNat) && decide (inBand (supplyRange k) mv.toNat = false) && decide (devState s = stIDLE) && decide (bitOf (faultActive s) 2 = false)))) | none => false)
noncomputable def clause18 : Bool := (match (ss : List (String × (State)))[5]? with | some (_, s) => (let k : Fin 5 := 1; (let mv : BitVec 16 := 900; (let brown : Nat := [700, 880, 970, 1580, 4400].getD k 0; decide (s.sys.inReset = false) && decide (brown ≤ mv.toNat) && decide (inBand (supplyRange k) mv.toNat = false) && decide (devState s = stHOLD)))) | none => false)
noncomputable def clause19 : Bool := (match (ss : List (String × (State)))[0]? with | some (_, s) => decide (s.sys.inReset = false) | none => false)
noncomputable def clause20 : Bool := (match (ss : List (String × (State)))[0]? with | some (_, s) => (let k : Fin 5 := 1; (let mv : BitVec 16 := 1000; (let brown : Nat := [700, 880, 970, 1580, 4400].getD k 0; decide (s.sys.inReset = false) && decide (brown ≤ mv.toNat) && decide (inBand (supplyWarnBand k) mv.toNat = true)))) | none => false)
noncomputable def clause21 : Bool := (match (ss : List (String × (State)))[8]? with | some (_, s) => (let k : Fin 5 := 1; (let mv : BitVec 16 := 900; (let brown : Nat := [700, 880, 970, 1580, 4400].getD k 0; decide (s.sys.inReset = false) && decide (brown ≤ mv.toNat) && decide (inBand (supplyWarnBand k) mv.toNat = false) && decide (bitOf s.sys.supplyWarn k = true)))) | none => false)
noncomputable def clause22 : Bool := (match (ss : List (String × (State)))[0]? with | some (_, s) => (let k : Fin 5 := 1; (let mv : BitVec 16 := 900; (let brown : Nat := [700, 880, 970, 1580, 4400].getD k 0; decide (s.sys.inReset = false) && decide (brown ≤ mv.toNat) && decide (inBand (supplyWarnBand k) mv.toNat = false) && decide (bitOf s.sys.supplyWarn k = false)))) | none => false)
noncomputable def clause23 : Bool := (match (ss : List (String × (State)))[6]? with | some (_, s) => (match (vs : List (String × (Qword)))[0]? with | some (_, v) => (let m : Nat := SYS_PROFILE_PROFILE.ofQ v; decide (profileFree s = false) && decide (m = rd SYS_PROFILE_PROFILE 0 s) && decide (s.sys.inReset = false)) | none => false) | none => false)
noncomputable def clause24 : Bool := (match (ss : List (String × (State)))[6]? with | some (_, s) => (match (vs : List (String × (Qword)))[1]? with | some (_, v) => (let m : Nat := SYS_PROFILE_PROFILE.ofQ v; decide (profileFree s = false) && decide (m ≠ rd SYS_PROFILE_PROFILE 0 s) && decide (s.sys.inReset = false)) | none => false) | none => false)
noncomputable def clause25 : Bool := (match (ss : List (String × (State)))[0]? with | some (_, s) => (match (vs : List (String × (Qword)))[0]? with | some (_, v) => (let m : Nat := SYS_PROFILE_PROFILE.ofQ v; decide ((∀ p : Nat, p < 16 → portSt p s = pSTOPPED)) && decide ((∀ l : Nat, l < 32 → engSt (physOf l s) s = eSTOPPED)) && decide (m < 3) && decide (s.sys.inReset = false)) | none => false) | none => false)
noncomputable def clause26 : Bool := (match (ss : List (String × (State)))[0]? with | some (_, s) => (match (vs : List (String × (Qword)))[3]? with | some (_, v) => (let m : Nat := SYS_PROFILE_PROFILE.ofQ v; decide ((∀ p : Nat, p < 16 → portSt p s = pSTOPPED)) && decide ((∀ l : Nat, l < 32 → engSt (physOf l s) s = eSTOPPED)) && decide (m = 3) && decide (s.sys.inReset = false)) | none => false) | none => false)
theorem witness_FaultsAndClocks_1 : [clause1, clause2, clause3, clause6, clause7, clause8, clause9, clause10].all id = true := by decide +kernel
theorem witness_FaultsAndClocks_2 : [clause14, clause16, clause17, clause18, clause19, clause20, clause21, clause22].all id = true := by decide +kernel
theorem witness_FaultsAndClocks_3 : [clause23, clause24, clause25, clause26].all id = true := by decide +kernel
end WFaultsAndClocks

namespace WRegisterCommandRefusals
def ss : List (String × State) := named "ss" ((dma r0 :: [st 3 (dma r0), wr PRT_STAT_STATE 3 1 (st 3 (dma r0)), wr SHT_ENG_STAT_ENG_STATE 3 4 (st 3 (dma r0)), wr SHT_ENG_STAT_ENG_STATE 9 8 (wr PRT_STAT_STATE 3 4 (st 3 (dma r0)))]).flatMap (fun s => [2,3,4,10].flatMap (fun o => [c1 o [0x6000, 7] s, c1 o [3] s])))
noncomputable def clause1 : Bool := (match (ss : List (String × (State)))[0]? with | some (_, s) => (let tag : Byte := 9; (match ((cmdS s) : List (String × (Cmd)))[0]? with | some (_, c) => (match (([(Sys2Proof.Machine.execCsrRead tag, 0x02), (Sys2Proof.Machine.execCsrWrite tag, 0x03), (Sys2Proof.Machine.execCsrRmw tag, 0x04)] : List ((State → Host.Outcome State Fault Refusal) × Nat)))[0]? with | some x => decide (s.starts x.2 tag c) && decide (0x6000 ≤ c.op 0) | none => false) | none => false)) | none => false)
noncomputable def clause2 : Bool := (match (ss : List (String × (State)))[22]? with | some (_, s) => (let tag : Byte := 9; (match ((cmdS s) : List (String × (Cmd)))[0]? with | some (_, c) => decide (s.starts 0x0A tag c) && decide (devState s = stIDLE) && decide (((List.range 16).any (fun p => decide (portSt p s ≠ pSTOPPED ∧ portSt p s ≠ pGATED)) = true) ∨ ((List.range 32).any (fun l => decide (engSt (physOf l s) s ≠ eSTOPPED ∧ engSt (physOf l s) s ≠ eGATED)) = true)) | none => false)) | none => false)
noncomputable def clause3 : Bool := (match (ss : List (String × (State)))[14]? with | some (_, s) => (let tag : Byte := 9; (match ((cmdS s) : List (String × (Cmd)))[0]? with | some (_, c) => decide (s.starts 0x0A tag c) && decide (devState s = stIDLE) && decide ((∀ p : Nat, p < 16 → portSt p s = pSTOPPED ∨ portSt p s = pGATED)) && decide ((∀ l : Nat, l < 32 → engSt (physOf l s) s = eSTOPPED ∨ engSt (physOf l s) s = eGATED)) | none => false)) | none => false)
theorem witness_RegisterCommandRefusals : [clause1, clause2, clause3].all id = true := by decide +kernel
end WRegisterCommandRefusals

namespace WHoldoverOfTheTime
def ppsOn (s : State) : State := wr SYS_DISC_CTL_PPS_EN 0 1 s
def late (s : State) : State := { s with now := 3000000500 }
def run16 (s : State) : Cmd := { cm 0x16 [5] with phase := .running, aux := 1 }
def ss : List (String × State) := named "ss" [r0, wr TSU_IN_EN 16 1 r0, onTod (fun t => { t with armed := some 7 }) r0, onTod (fun t => { t with armed := some 7, ppsFirst := true }) (late (ppsOn r0)), onTod (fun t => { t with armed := some 7 }) (cmds [run16 r0] r0), ppsOn r0, late (ppsOn r0), wr SYS_DISC_STAT_HOLDOVER 0 1 (ppsOn r0), onTod (fun t => { t with prevPps := some (256 * 2000000500) }) (late (ppsOn r0)), onTod (fun t => { t with ppsFirst := false, prevPps := some (256 * 1000), armed := none }) (late (ppsOn r0)), onTod (fun t => { t with ppsFirst := true, tU := 100, rawU := 5000, lockRun := 5, slew := 1 }) (wr SYS_DISC_STAT_LOCKED 0 1 (late (ppsOn r0))), wr TSU_IN_DELAY 16 65000 (late (ppsOn r0)), onTod (fun t => { t with tU := 256000000000 * 1000 - 2, rawU := 256 * 3000000500 }) (wr SYS_DISC_STAT_LOCKED 0 1 (late (ppsOn r0))), onTod (fun t => { t with tU := 256000000000 * 1000 - 256000, rawU := 256 * 3000000500 - 255, lockRun := 9 }) (wr SYS_DISC_CTL_TC 0 5 (wr SYS_DISC_STAT_LOCKED 0 1 (wr SYS_DISC_CTL_STEP_THR 0 2000 (late (ppsOn r0)))))]
def vs : List (String × Qword) := ([0, 1, 0xFFFFFFFFFFFFFFFF, 0xFFFFFFFFFFFFFFFE, 0x123456789ABCDEF1] : List Nat).map (fun v => ("v" ++ toString v, BitVec.ofNat 64 v))
noncomputable def clause1 : Bool := (match (ss : List (String × (State)))[3]? with | some (_, s) => decide (rdB SYS_DISC_CTL_PPS_EN 0 s = true) && decide (rdB SYS_DISC_STAT_HOLDOVER 0 s = false) | none => false)
noncomputable def clause2 : Bool := (match (ss : List (String × (State)))[3]? with | some (_, s) => decide (rdB SYS_DISC_CTL_PPS_EN 0 s = true) && (let k : Nat := 0; (let tap : Fin 320 := 0; (let raw : Nat := (edgeRaw 16 (maxN s.now k) tap s).toNat; (let u : Nat := ((raw : Int) - rdZ TSU_IN_DELAY 16 s).toNat; decide (onCalclk 16 (advanceTo k s) = false) && decide (s.tsu.last.get 0 16 = 0 ∨ s.tsu.last.get 0 16 + 640 ≤ raw + 1) && decide (ppsAccept u s.tod.prevPps s = true))))) | none => false)
theorem witness_HoldoverOfTheTime : [clause1, clause2].all id = true := by decide +kernel
end WHoldoverOfTheTime

end Sys2Proof.Tests

end
end

/-!
The refused queue instructions of the engines (R287): what a record leaves of the other queues, what a refusal does, and the two
instructions that are refused.
-/

namespace Sys2Proof.Machine

set_option autoImplicit false

/-! ### The engine and the queues after an update of the other -/

@[simp] theorem engOf_setEng_same (e : Nat) (x : Eng) (s : State) : engOf e (setEng e x s) = x := by simp [engOf, setEng]

theorem engOf_congr {s t : State} (e : Nat) (h : t.sht = s.sht) : engOf e t = engOf e s := by simp [engOf, h]

theorem queueOf_congr {s t : State} (q : Nat) (h : t.queues = s.queues) : queueOf q t = queueOf q s := by simp [queueOf, h]

@[simp] theorem engOf_violate (e blk cls : Nat) (org : Origin) (d a b : Nat) (s : State) :
    engOf e (violate blk cls org d a b s) = engOf e s := engOf_congr e (violate_sht ..)

@[simp] theorem queueOf_setEng (q e : Nat) (x : Eng) (s : State) : queueOf q (setEng e x s) = queueOf q s := rfl

@[simp] theorem evtSet_setEng (ev e : Nat) (x : Eng) (s : State) : evtSet ev (setEng e x s) = evtSet ev s := rfl

/-! ### A push and a record leave every other queue as it was -/

section otherQueues
variable {q r : Nat} (h : r ≠ q)
include h

theorem queueOf_pushOne_other (pri d : Nat) (s : State) : queueOf r (pushOne q pri d s) = queueOf r s :=
  (queueOf_setQueue_other _ _ h).trans (queueOf_congr r (poolStore_queues ..))

theorem queueOf_pushGo_other (pri : Nat) (l : List Nat) (s : State) :
    queueOf r (l.foldl (fun s d => pushOne q pri d s) s) = queueOf r s := by
  induction l generalizing s with
  | nil => rfl
  | cons d t ih => exact (ih _).trans (queueOf_pushOne_other h pri d s)

theorem queueOf_pushItems_other (pri : Nat) (l : List Nat) (s : State) : queueOf r (pushItems q pri l s) = queueOf r s := by
  refine (queueOf_congr r ?_).trans (queueOf_pushGo_other h pri l s)
  rw [pushItems, poolLowCheck_queues, levelCross_queues]

theorem queueOf_pushRecord_other (l : List Nat) (s : State) : queueOf r (pushRecord q l s) = queueOf r s := by
  unfold pushRecord
  split
  · rw [queueOf_pushItems_other h, queueOf_setQueue_other _ _ h]
  · rw [queueOf_setQueue_other _ _ h, queueOf_congr r (bumpBy_queues ..)]

end otherQueues

/-! ### A violation-log entry (R375, R350) -/

theorem queueOf_violate_other {r : Nat} (h : r ≠ 57) (blk cls : Nat) (org : Origin) (d a b : Nat) (s : State) :
    queueOf r (violate blk cls org d a b s) = queueOf r s :=
  (queueOf_congr r (raise_queues ..)).trans (queueOf_pushRecord_other h _ s)

theorem evtSet_violate (blk cls : Nat) (org : Origin) (d a b : Nat) (s : State) : evtSet 20 (violate blk cls org d a b s) = true :=
  evtSet_raise_same 20 _

/-! ### A refused queue instruction (R287) -/

theorem framed_onEng (e : Nat) (f : Eng → Eng) (s : State) : s.framed (onEng e f s) [.sht] [] := framed_setEng _ _ _

@[simp] theorem engOf_onEng_same (e : Nat) (f : Eng → Eng) (s : State) : engOf e (onEng e f s) = f (engOf e s) := engOf_setEng_same ..

@[simp] theorem queueOf_onEng (q e : Nat) (f : Eng → Eng) (s : State) : queueOf q (onEng e f s) = queueOf q s := rfl

@[simp] theorem evtSet_onEng (ev e : Nat) (f : Eng → Eng) (s : State) : evtSet ev (onEng e f s) = evtSet ev s := rfl

/-- What a refusal does to its engine: QV is set. -/
@[simp] theorem engOf_refuseQueue (e q : Nat) (s : State) : engOf e (refuseQueue e q s) = (engOf e s).flag 6 true := by
  simp [refuseQueue]

theorem queueOf_refuseQueue_other {r : Nat} (h : r ≠ 57) (e q : Nat) (s : State) : queueOf r (refuseQueue e q s) = queueOf r s :=
  queueOf_violate_other h ..

@[simp] theorem evtSet_refuseQueue (e q : Nat) (s : State) : evtSet 20 (refuseQueue e q s) = true := evtSet_violate ..

theorem framed_refuseQueue (e q : Nat) (s : State) : s.framed (refuseQueue e q s) (.sht :: recParts) logKeys :=
  framed_trans (framed_violate ..) (framed_onEng ..) (by simp) (by simp) (List.Subset.refl _) (by simp)

/-- What its engine does after the refusal adds nothing to the frame. -/
theorem framed_refuseQueue_onEng (e q : Nat) (f : Eng → Eng) (s : State) :
    s.framed (onEng e f (refuseQueue e q s)) (.sht :: recParts) logKeys :=
  framed_trans (framed_refuseQueue e q s) (framed_onEng ..) (List.Subset.refl _) (by simp) (List.Subset.refl _) (by simp)

/-! ### Queue instructions as they issue -/

@[simp] theorem advance_stall (x : Eng) : x.advance.stall = x.stall := by rw [advance_upd x x rfl rfl rfl]

@[simp] theorem flag_w (x : Eng) (b : Nat) (v : Bool) : (x.flag b v).w = x.w := rfl

@[simp] theorem flag_stall (x : Eng) (b : Nat) (v : Bool) : (x.flag b v).stall = x.stall := rfl

theorem chIssue_ok {e w : Nat} {f : Eng → State → State} {s : State} (hi : issues e w s = true) :
    chIssue e w f s = .next (f (engOf e s) s) := by
  simp [chIssue, hi]

/-- An instruction issues on an engine that waits for nothing. -/
theorem stall_of_issues {e w : Nat} {s : State} (hi : issues e w s = true) : (engOf e s).stall = none := by
  simp only [issues, issuing, Bool.and_eq_true, Option.isNone_iff_eq_none] at hi
  exact hi.1.1.2

theorem execPush_device {e : Fin 34} {w : BitVec 5} {o : QOp} {s : State} (hi : issues e (encQ 0x60 w o) s = true)
    (hn : (engOf e s).qNum o ≤ 63) :
    exec (.push e w o) s = .next (onEng e Eng.advance (refuseQueue e ((engOf e s).qNum o) s)) := by
  simp [execPush, chIssue_ok hi, hn]

/-- The end of a refused pop: the destination reads zero, and the engine moves on. -/
def refusedPopEnd (wd : BitVec 5) (x : Eng) : Eng := { x.put wd 0 with stall := none }.advance

@[simp] theorem refusedPopEnd_reg_same (wd : BitVec 5) (x : Eng) : (refusedPopEnd wd x).reg wd = 0 :=
  (advance_reg _ wd).trans (reg_put_same x wd 0)

theorem refusedPopEnd_reg_other {wd r : BitVec 5} (h : r ≠ wd) (x : Eng) : (refusedPopEnd wd x).reg r = x.reg r :=
  (advance_reg _ r).trans (reg_put_other x 0 h)

@[simp] theorem refusedPopEnd_bit (wd : BitVec 5) (x : Eng) (b : Nat) : (refusedPopEnd wd x).bit b = x.bit b := advance_bit _ b

@[simp] theorem refusedPopEnd_stall (wd : BitVec 5) (x : Eng) : (refusedPopEnd wd x).stall = none := advance_stall _

theorem makePop_ringBound {q : Nat} {s : State} (e : Nat) (wd : BitVec 5) (hb : ringBound q s = true) :
    makePop e wd.toNat q s = onEng e (refusedPopEnd wd) (refuseQueue e q s) := if_pos hb

theorem execPop_ringBound {e : Fin 34} {w : BitVec 5} {o : QOp} {s : State} (hi : issues e (encQ 0x61 w o) s = true)
    (hb : ringBound ((engOf e s).qNum o) s = true) :
    exec (.pop e w o) s = .next (onEng e (refusedPopEnd w) (refuseQueue e ((engOf e s).qNum o) s)) := by
  rw [exec_pop, execPop, chIssue_ok hi, makePop_ringBound _ _ hb]

/-- Settles O11: a refusal sets QV and writes the log entry, and the instruction's end adds the move to the next address and, for a
pop, the zero in the destination. -/
theorem refusedQueueInstructions : Obligations.RefusedQueueInstructions := by
  rintro e w o s x n rfl rfl
  constructor
  · intro hi hn
    refine ⟨_, execPush_device hi hn, framed_refuseQueue_onEng .., fun r hr => ?_, ?_, ?_, ?_, fun b hb => ?_, ?_⟩
    · exact queueOf_refuseQueue_other hr ..
    · simp
    · simp
    · simp
    · simp [hb]
    · simp
  · intro hi hb
    refine ⟨_, execPop_ringBound hi hb, framed_refuseQueue_onEng .., fun r hr => ?_, ?_, ?_, fun r hr => ?_, fun b hb => ?_, ?_, ?_⟩
    · exact queueOf_refuseQueue_other hr ..
    · simp
    · simp
    · simp [refusedPopEnd_reg_other hr]
    · simp [hb]
    · simp [stall_of_issues hi]
    · simp

end Sys2Proof.Machine

/-!
The refusals of the host's register commands and of PROFILE_SET (R342): a command that starts and ends at once, and what the selection
of a profile leaves of the commands in flight.
-/

namespace Sys2Proof.Machine

set_option autoImplicit false

/-! ### A command that starts and ends (R339, R340) -/

/-- A command as it runs. -/
def Cmd.running (c : Cmd) : Cmd := { c with phase := .running }

/-- The state in which a command's body acts: the command runs. -/
def startOf (c : Cmd) (s : State) : State := onCmd c.tag Cmd.running s

@[simp] theorem devState_startOf (c : Cmd) (s : State) : devState (startOf c s) = devState s := rfl

@[simp] theorem profileFree_startOf (c : Cmd) (s : State) : profileFree (startOf c s) = profileFree s := rfl

theorem framed_mapCmds (f : Cmd → Cmd) (s : State) : s.framed (mapCmds f s) [.host] [] :=
  ⟨fun p hp => by cases p <;> simp [Part.same] at hp ⊢, fun _ _ _ => rfl⟩

theorem framed_finishWhere (p : Cmd → Bool) (st d r : Nat) (s : State) : s.framed (finishWhere p st d r s) [.host] [] :=
  ⟨fun q hq => by cases q <;> simp [Part.same] at hq ⊢, fun _ _ _ => rfl⟩

theorem framed_endCmd_startOf (c : Cmd) (tag st d r : Nat) (s : State) : s.framed (endCmd tag st d r (startOf c s)) [.host] [] :=
  framed_trans (framed_mapCmds ..) (framed_finishWhere ..) (by simp) (by simp) (by simp) (by simp)

/-- A running command that ends has its completion among those that wait. -/
theorem cplOf_mem_endCmd {c : Cmd} {s : State} (hc : c ∈ s.host.cmds) (hr : c.phase = .running) (st d r : Nat) :
    cplOf c st d r ∈ (endCmd c.tag st d r s).host.cplWait :=
  List.mem_append_right _ (List.mem_map_of_mem (List.mem_filter.mpr ⟨hc, by simp [hr]⟩))

section starting
variable {s : State} {op : Nat} {tag : Byte} {c : Cmd} (h : s.starts op tag c)
include h

theorem mem_cmds_of_starts : c ∈ s.host.cmds ∧ c.tag = tag.toNat := by
  have hc : c ∈ s.host.cmds.filter (fun e => decide (e.tag = tag.toNat)) := by simp [h.2.2]
  simpa using hc

theorem startCmd_of_starts {legal : State → Bool} (hl : legal (startOf c s) = true) (body : Cmd → State → State) :
    startCmd op tag legal body s = body c (startOf c s) := by
  obtain ⟨hs, ho, -⟩ := h
  simp only [startCmd, hs, ho, if_pos]
  exact if_pos hl

theorem running_mem_startOf : c.running ∈ (startOf c s).host.cmds :=
  List.mem_map.mpr ⟨c, (mem_cmds_of_starts h).1, if_pos rfl⟩

/-- Once a command runs, it alone of its tag runs. -/
theorem filter_running_startOf :
    (startOf c s).host.cmds.filter (fun e => decide (e.phase = .running) && decide (e.tag = c.tag)) = [c.running] := by
  obtain ⟨-, ht⟩ := mem_cmds_of_starts h
  have hp : ((fun e : Cmd => decide (e.phase = .running) && decide (e.tag = c.tag)) ∘
      fun e => if e.tag = c.tag then e.running else e) = fun e => decide (e.tag = tag.toNat) := by
    funext e
    by_cases he : e.tag = c.tag <;> simp [he, ← ht, Cmd.running]
  have hm : (startOf c s).host.cmds = s.host.cmds.map (fun e => if e.tag = c.tag then e.running else e) := rfl
  rw [hm, List.filter_map, hp, h.2.2]
  simp

theorem answered_endCmd_startOf (st d r : Nat) : s.answered (endCmd c.tag st d r (startOf c s)) c st d r := by
  have hw : (endCmd c.tag st d r (startOf c s)).host.cplWait = s.host.cplWait ++
      ((startOf c s).host.cmds.filter (fun e => decide (e.phase = .running) && decide (e.tag = c.tag))).map
        (fun e => cplOf e st d r) := rfl
  rw [State.answered, hw, filter_running_startOf h]
  rfl

end starting

/-! ### The profile and its commands in flight -/

/-- The selected profile stays, and so does every PROFILE_SET in flight. -/
structure ProfileKept (s t : State) : Prop where
  profile : rd SYS_PROFILE_PROFILE 0 t = rd SYS_PROFILE_PROFILE 0 s
  cmds : ∀ c ∈ s.host.cmds, c.opcode = 0x0A → c ∈ t.host.cmds

namespace ProfileKept

theorem refl (s : State) : ProfileKept s s := ⟨rfl, fun _ h _ => h⟩

theorem trans {s t u : State} (h : ProfileKept s t) (k : ProfileKept t u) : ProfileKept s u :=
  ⟨k.profile.trans h.profile, fun c hc ho => k.cmds c (h.cmds c hc ho) ho⟩

theorem of_framed {s t : State} {ps : List Part} {ks : List Nat} (h : s.framed t ps ks) (hk : SYS_PROFILE_PROFILE.key 0 ∉ ks)
    (hc : t.host.cmds = s.host.cmds) : ProfileKept s t :=
  ⟨h.2 _ _ hk, fun _ hm _ => hc ▸ hm⟩

/-- An update of neither the register store nor the host interface. -/
theorem of_eq {s t : State} (hr : t.csr = s.csr) (hh : t.host = s.host) : ProfileKept s t :=
  ⟨rd_congr _ _ hr, fun _ hm _ => hh ▸ hm⟩

theorem ite {s t u : State} {p : Prop} [Decidable p] (ht : ProfileKept s t) (hu : ProfileKept s u) :
    ProfileKept s (if p then t else u) := by
  split
  · exact ht
  · exact hu

theorem ite_self {s t : State} {p : Prop} [Decidable p] (h : ProfileKept s t) : ProfileKept s (if p then t else s) :=
  .ite h (.refl s)

theorem foldl {α : Type} (f : State → α → State) (l : List α) (h : ∀ x ∈ l, ∀ s, ProfileKept s (f s x)) (s : State) :
    ProfileKept s (l.foldl f s) := by
  induction l generalizing s with
  | nil => exact refl s
  | cons x l ih =>
    exact (h x List.mem_cons_self s).trans (ih (fun y hy => h y (List.mem_cons_of_mem x hy)) _)

end ProfileKept

/-- The registers behind SYS_PROFILE hold other fields. -/
theorem profile_key_lt {f : Fld} (hf : 0x30 < f.base) (i : Nat) : SYS_PROFILE_PROFILE.key 0 < f.key i := by
  simp only [Fld.key, SYS_PROFILE_PROFILE]
  omega

theorem profileKept_wr {f : Fld} (hf : 0x30 < f.base) (i v : Nat) (s : State) : ProfileKept s (wr f i v s) :=
  .of_framed (framed_wr f i v s) (by simpa using (profile_key_lt hf i).ne) rfl

theorem profileKept_bump {f : Fld} (hf : 0x30 < f.base) (i : Nat) (s : State) : ProfileKept s (bump f i s) :=
  .of_framed (framed_bump f i s) (by simpa using (profile_key_lt hf i).ne) (by simp)

/-- The end of commands of another opcode. -/
theorem profileKept_finishCmd {op : Nat} (ho : op ≠ 0x0A) (aux st d r : Nat) (s : State) :
    ProfileKept s (finishCmd op aux st d r s) := by
  refine ⟨rfl, fun c hc hop => List.mem_map.mpr ⟨c, hc, ?_⟩⟩
  have hne : c.opcode ≠ op := hop ▸ ho.symm
  simp [hne]

/-! ### Events and records leave the commands in flight -/

@[simp] theorem cmds_sendVec (v : Nat) (s : State) : (sendVec v s).host.cmds = s.host.cmds := by
  simp only [sendVec]; (repeat' split) <;> rfl

@[simp] theorem cmds_raise (e : Nat) (s : State) : (raise e s).host.cmds = s.host.cmds := by
  simp only [raise]; split <;> simp

@[simp] theorem cmds_levelCross (q a b : Nat) (s : State) : (levelCross q a b s).host.cmds = s.host.cmds := by
  simp only [levelCross]; split <;> simp

@[simp] theorem cmds_poolLowCheck (z : Int) (s : State) : (poolLowCheck z s).host.cmds = s.host.cmds := by
  simp only [poolLowCheck]; split <;> simp

@[simp] theorem cmds_pushItems (q pri : Nat) (l : List Nat) (s : State) : (pushItems q pri l s).host.cmds = s.host.cmds := by
  simp [pushItems]

@[simp] theorem cmds_pushRecord (q : Nat) (l : List Nat) (s : State) : (pushRecord q l s).host.cmds = s.host.cmds := by
  simp only [pushRecord]; split <;> simp

theorem profileKept_raise (e : Nat) (s : State) : ProfileKept s (raise e s) :=
  .of_framed (framed_raise e s) (by simpa [evtKey] using (profile_key_lt (by decide) _).ne) (cmds_raise e s)

theorem profileKept_eventRecord (k ev p n a b : Nat) (s : State) : ProfileKept s (eventRecord k ev p n a b s) :=
  .of_framed (framed_eventRecord ..) (by decide) (cmds_pushRecord ..)

/-! ### Calibration leaves the profile and its commands (R520, R524, R530) -/

theorem profileKept_calEnqueue (k j : Nat) (s : State) : ProfileKept s (calEnqueue k j s) :=
  .ite (.refl s) (.of_eq rfl rfl)

theorem profileKept_calAuto (k j : Nat) (s : State) : ProfileKept s (calAuto k j s) :=
  .ite_self (profileKept_calEnqueue k j s)

theorem profileKept_calCmdEnd (k j st d r : Nat) (s : State) : ProfileKept s (calCmdEnd k j st d r s) :=
  profileKept_finishCmd (op := 0x28) (by decide) ..

theorem profileKept_pairDrop (k j : Nat) (s : State) : ProfileKept s (pairDrop k j s) := .of_eq rfl rfl

theorem profileKept_setCalRec (k j : Nat) (r : CalRec) (s : State) : ProfileKept s (setCalRec k j r s) := .of_eq rfl rfl

theorem profileKept_calDrop (k j : Nat) (s : State) : ProfileKept s (calDrop k j s) := by
  refine .ite (.trans ?_ (profileKept_calCmdEnd ..)) ?_
  all_goals exact .of_eq rfl rfl

theorem profileKept_calApply (k j : Nat) (s : State) : ProfileKept s (calApply k j s) := by
  refine .ite (.refl s) (.ite_self ?_)
  exact (((profileKept_setCalRec ..).trans (profileKept_bump (by decide) ..)).trans (profileKept_eventRecord ..)).trans
    (profileKept_raise ..)

theorem profileKept_calTake (k j : Nat) (s : State) : ProfileKept s (calTake k j s) :=
  (profileKept_calApply k j s).trans (.ite_self (profileKept_calAuto ..))

theorem profileKept_corrRestore (j : Nat) (vals : List Nat) (s : State) : ProfileKept s (corrRestore j vals s) := by
  refine .foldl _ _ (fun e he s => ?_) s
  have hf : ∀ f ∈ corrFlds, 0x30 < f.base := by decide
  exact (profileKept_wr (hf e.1 (List.of_mem_zip he).1) ..).trans (.of_eq rfl rfl)

theorem profileKept_pairRestore (p : CalPair) (s : State) : ProfileKept s (pairRestore p s) :=
  .ite_self (profileKept_corrRestore ..)

theorem profileKept_calConvBack (j : Nat) (s : State) : ProfileKept s (calConvBack j s) :=
  .ite_self (profileKept_wr (by decide) ..)

/-- The steps of an abort, from its last back to its first. -/
theorem profileKept_calPairAbort (k j : Nat) (s : State) : ProfileKept s (calPairAbort k j s) := by
  unfold calPairAbort
  split
  · exact .refl s
  · next p _ =>
    refine ProfileKept.trans ?_ (.ite (.refl _) (profileKept_calAuto ..))
    refine ProfileKept.trans ?_ (profileKept_calCmdEnd ..)
    refine ProfileKept.trans ?_ (.ite_self ((profileKept_calConvBack ..).trans (profileKept_calApply ..)))
    refine ProfileKept.trans ?_ (.ite_self (.of_eq rfl rfl))
    refine ProfileKept.trans ?_ (profileKept_setCalRec ..)
    exact ((profileKept_pairDrop k j s).trans (profileKept_pairRestore p _)).trans (.ite_self (.of_eq rfl rfl))

/-! ### A profile comes into force (R69, R256) -/

theorem profileKept_convGate (j : Nat) (s : State) : ProfileKept s (convGate j s) :=
  (((profileKept_wr (by decide) ..).trans (profileKept_wr (by decide) ..)).trans (profileKept_calDrop ..)).trans
    (profileKept_calPairAbort ..)

theorem profileKept_gateSpare (p : Nat) (s : State) : ProfileKept s (gateSpare p s) :=
  .ite_self (((profileKept_wr (by decide) ..).trans (profileKept_calDrop ..)).trans (profileKept_calPairAbort ..))

theorem profileKept_ungateSpare (p : Nat) (s : State) : ProfileKept s (ungateSpare p s) :=
  .ite_self (((profileKept_wr (by decide) ..).trans (profileKept_calApply ..)).trans (profileKept_calEnqueue ..))

theorem profileKept_gainForgotten (p : Nat) (s : State) :
    ProfileKept s { s with ports := { s.ports with lastGain := s.ports.lastGain.put 0 p 0 } } := .of_eq rfl rfl

theorem profileKept_gatePort (p : Nat) (s : State) : ProfileKept s (gatePort p s) := by
  refine .ite ?_ (.ite_self ?_)
  · have hs := (profileKept_wr (f := PRT_STAT_STATE) (by decide) p pGATED s).trans (profileKept_gainForgotten p _)
    exact (hs.trans (profileKept_gateSpare p _)).trans
      (.foldl _ _ (fun i _ s => .ite_self (profileKept_convGate ..)) _)
  · have hs := profileKept_wr (f := PRT_STAT_STATE) (by decide) p pSTOPPED s
    exact (hs.trans (profileKept_ungateSpare p _)).trans (.foldl _ _ (fun i _ s => .ite_self
      (((profileKept_wr (by decide) ..).trans (profileKept_wr (by decide) ..)).trans (profileKept_calTake ..))) _)

theorem profileKept_setEngSt (e st : Nat) (s : State) : ProfileKept s (setEngSt e st s) := profileKept_wr (by decide) ..

theorem profileKept_onEng (e : Nat) (f : Eng → Eng) (s : State) : ProfileKept s (onEng e f s) := .of_eq rfl rfl

theorem profileKept_gateEngines (b : Bool) (s : State) : ProfileKept s (gateEngines b s) := by
  refine .foldl _ _ (fun l _ s => .ite (.refl s) (.ite ?_ (.ite_self (profileKept_setEngSt ..)))) s
  exact ((profileKept_setEngSt ..).trans (profileKept_onEng ..)).trans (profileKept_wr (by decide) ..)

/-- After the selection itself, nothing touches the profile or a PROFILE_SET in flight. -/
theorem profileKept_setProfile (v : Nat) (s : State) : ProfileKept (wr SYS_PROFILE_PROFILE 0 v s) (setProfile v s) :=
  (ProfileKept.foldl _ _ (fun p _ s => profileKept_gatePort p s) _).trans (profileKept_gateEngines ..)

@[simp] theorem profile_setProfile (v : Nat) (s : State) : rd SYS_PROFILE_PROFILE 0 (setProfile v s) = v % 4 :=
  (profileKept_setProfile v s).profile.trans (rd_wr_same ..)

/-! ### The refusals of R342 -/

theorem portIdle_iff (p : Nat) (s : State) : portIdle p s = true ↔ portSt p s = pSTOPPED ∨ portSt p s = pGATED := by
  simp [portIdle]

theorem profileFree_iff (s : State) : profileFree s = true ↔
    (∀ p : Nat, p < 16 → portSt p s = pSTOPPED ∨ portSt p s = pGATED) ∧
      ∀ l : Nat, l < 32 → engSt (physOf l s) s = eSTOPPED ∨ engSt (physOf l s) s = eGATED := by
  simp [profileFree, portIdle_iff]

theorem profileFree_eq_false {s : State} (hb : (∃ p : Nat, p < 16 ∧ portSt p s ≠ pSTOPPED ∧ portSt p s ≠ pGATED) ∨
    ∃ l : Nat, l < 32 ∧ engSt (physOf l s) s ≠ eSTOPPED ∧ engSt (physOf l s) s ≠ eGATED) : profileFree s = false := by
  refine Bool.eq_false_iff.mpr fun hf => ?_
  obtain ⟨hp, he⟩ := (profileFree_iff s).mp hf
  rcases hb with ⟨p, hlt, hs, hg⟩ | ⟨l, hlt, hs, hg⟩
  · exact (hp p hlt).elim hs hg
  · exact (he l hlt).elim hs hg

section refusals
variable {s : State} {op : Nat} {tag : Byte} {c : Cmd}

/-- A register command at 0x6000 or above starts and ends with BAD_ADDRESS, whatever its access. -/
theorem startCmd_csrBody_badAddress (h : s.starts op tag c) (ha : 0x6000 ≤ c.op 0) (acc : Cmd → State → Nat × State) :
    startCmd op tag inAny (csrBody acc) s = endCmd c.tag 0x14 0 0 (startOf c s) :=
  (startCmd_of_starts h rfl _).trans (if_pos ha)

theorem execProfileSet_of_idle (h : s.starts 0x0A tag c) (hi : devState s = stIDLE) :
    exec (.profileSet tag) s = .next (profileBody c (startOf c s)) :=
  congrArg _ (startCmd_of_starts h (by simp [inStates, hi]) _)

theorem profileBody_refused (hf : profileFree s = false) (hi : devState s = stIDLE) :
    profileBody c (startOf c s) = endCmd c.tag 0x12 1 0 (startOf c s) := by
  simp [profileBody, hf, stateCode, hi, stIDLE]

theorem profileBody_accepted (hf : profileFree s = true) :
    profileBody c (startOf c s) = endCmd c.tag 0 0 0 (setProfile (c.op 0) (startOf c s)) := by
  simp [profileBody, hf]

/-- The PROFILE_SET that runs stands among the commands in flight until it ends. -/
theorem running_mem_setProfile (h : s.starts 0x0A tag c) (v : Nat) : c.running ∈ (setProfile v (startOf c s)).host.cmds :=
  (profileKept_setProfile v _).cmds _ (running_mem_startOf h) h.2.1

end refusals

/-- Settles O59: a refused command ends as soon as it runs, and nothing else changes; an accepted PROFILE_SET is still in flight when
the profile has come into force, and then ends. -/
theorem registerCommandRefusals : Obligations.RegisterCommandRefusals := by
  intro s tag c
  refine ⟨fun x hx hs ha => ?_, fun hs hi => ⟨fun hb => ?_, fun hp he => ?_⟩⟩
  · have hx' : ∃ acc, exec x.1 s = .next (startCmd x.2 tag inAny (csrBody acc) s) := by
      simp only [List.mem_cons, List.not_mem_nil, or_false] at hx
      rcases hx with rfl | rfl | rfl
      · exact ⟨csrRead, rfl⟩
      · exact ⟨csrWrite, rfl⟩
      · exact ⟨csrRmw, rfl⟩
    obtain ⟨acc, hx'⟩ := hx'
    rw [hx', startCmd_csrBody_badAddress hs ha]
    exact ⟨_, rfl, answered_endCmd_startOf hs .., framed_endCmd_startOf ..⟩
  · rw [execProfileSet_of_idle hs hi, profileBody_refused (profileFree_eq_false hb) hi]
    exact ⟨_, rfl, answered_endCmd_startOf hs .., framed_endCmd_startOf ..⟩
  · rw [execProfileSet_of_idle hs hi, profileBody_accepted ((profileFree_iff s).mpr ⟨hp, he⟩)]
    exact ⟨_, rfl, cplOf_mem_endCmd (running_mem_setProfile hs _) rfl 0 0 0, profile_setProfile ..⟩

end Sys2Proof.Machine
